-- ==== Sys2Proof/Word.lean ====
section
/-! DEFINITION. The word types and the index types of the JD-9400: bytes, 32-bit register words, and the
bounded indices by which rules R16 to R19, R36, R43, R147, R218, R301, R432 and R499 count units. -/

namespace Sys2Proof

/-- One byte of a memory (R23: multi-byte values are little-endian). -/
abbrev Byte := BitVec 8

/-- A 32-bit register word (R80) or a control-core register (R337). -/
abbrev W32 := BitVec 32

/-- A 64-bit word. -/
abbrev W64 := BitVec 64

/-- A physical room: die × 15 + floor × 5 + room (R36, R65). -/
abbrev RoomIx := Fin 30

/-- A physical engine: physical room × 5 + engine (R36, R422). -/
abbrev EngIx := Fin 150

/-- A floor: die × 3 + floor (R66). -/
abbrev FloorIx := Fin 6

/-- A compute die (R36). -/
abbrev DieIx := Fin 2

/-- A Lorlink port: 0 A-east, 1 A-west, 2 B-east, 3 B-west, 4 P (R499). -/
abbrev PortIx := Fin 5

/-- A ring: 0 is A, 1 is B (R475, R500). -/
abbrev RingIx := Fin 2

/-- A context ID (R3: 2,048 contexts). -/
abbrev CtxId := Fin 2048

/-- A task slot or accumulator-memory slot of an engine, or an inbox of a room (R36, R218, R43). -/
abbrev SlotIx := Fin 4

/-- An arbiter block: 0 to 5 floor arbiters, 6 to 13 HBM stacks, 14 and 15 cellar ports (R441). -/
abbrev ArbIx := Fin 16

/-- A control-core general register g0 to g31 (R337). -/
abbrev GReg := Fin 32

/-- The bit field `w` bits wide whose least significant bit is bit `lsb` of `n` (R20). -/
def bitsAt (n lsb w : Nat) : Nat := n / 2 ^ lsb % 2 ^ w

/-- Bit `i` of `n` (R20). -/
def bitAt (n i : Nat) : Bool := n / 2 ^ i % 2 == 1

/-- ⌈a / b⌉ for the extents of R77, R158, R163. -/
def ceilDiv (a b : Nat) : Nat := (a + b - 1) / b

/-- `n` read as a two's-complement value `w` bits wide (R204, R209, R310). -/
def toSigned (w n : Nat) : Int :=
  if n % 2 ^ w < 2 ^ (w - 1) then Int.ofNat (n % 2 ^ w) else Int.ofNat (n % 2 ^ w) - Int.ofNat (2 ^ w)

/-- 1 for true, 0 for false: a Bool as the value of a one-bit field. -/
def b2n (b : Bool) : Nat := if b then 1 else 0

/-- Addition that stops at `top`: a saturating counter (R99, R324, R442, R499, R528). -/
def satAdd (top a b : Nat) : Nat := min top (a + b)

end Sys2Proof
end

