-- ==== Sys2Proof/Config.lean ====
section
/-! DEFINITION. What an implementation fixes and the manual does not give, and the free values. Each constant
is opaque: no proof can see its value, so a statement about it holds for every value. -/

namespace Sys2Proof

/-- The free values of rules R5, R7, R12, R402 and of every result the spec does not state: the value drawn
when the model's counter `freeCtr` reads the argument (assumption log 3). -/
opaque Config.freeNat : Nat → Nat

/-- Package serial number, identity mailbox item 0x01 (R146, R506); set at manufacture (log 5). -/
opaque Config.serial : BitVec 128

/-- Manufacturing lot, identity mailbox item 0x02 word 0 (R146; log 5). -/
opaque Config.lot : BitVec 32

/-- Manufacturing date, identity mailbox item 0x02 word 1 (R146; log 5). -/
opaque Config.date : BitVec 32

/-- The endpoint's UUID of MCTP Get Endpoint UUID (R538; log 5). -/
opaque Config.endpointUuid : BitVec 128

/-- The version entry that MCTP Get MCTP Version Support answers for a message type (R538; log 20). -/
opaque Config.mctpVersion : BitVec 8 → BitVec 32

/-- The version that GetPLDMVersion answers for a PLDM type (R539; log 20). -/
opaque Config.pldmVersion : BitVec 8 → BitVec 32

/-- The number that stands for a state of a state sensor whose states R540 only names (R540; log 20). -/
opaque Config.stateCode : Nat → Nat → BitVec 8

end Sys2Proof
end

