-- ==== Sys2Proof/Syntax.lean ====
section
/-! DEFINITION. The commands of the block: operand types and `Instr`, one constructor for each row of
spec/opcode_table.json. Indices are bounded types, so that no command names a unit that does not exist;
what a type cannot bound (lengths of data operands, address widths) is checked in WellFormed.lean. -/

namespace Sys2Proof

/-- The two BAR0 requesters of R84. -/
inductive Req where
  | host
  | mgmt
deriving DecidableEq, Repr

/-- A 32-bit bus write: requester, the four byte enables (R81) and the value. -/
structure BusWr where
  req : Req
  be  : BitVec 4
  val : W32
deriving DecidableEq, Repr

/-- What a requester does to an aligned word of BAR0 or BAR2: a 32-bit write; a 64-bit write, of eight byte enables (R82);
whole writes of the host and of the management core in one housekeeping cycle (R109); a read of the bytes that the enables
select (R80); a 64-bit read (R82). -/
inductive RegAcc where
  | write (w : BusWr)
  | write64 (req : Req) (be : BitVec 8) (val : W64)
  | both (host mgmt : W32)
  | read (req : Req) (be : BitVec 4)
  | read64 (req : Req) (be : BitVec 8)
deriving DecidableEq, Repr

/-- A PCIe function: the PF, or virtual function v + 1 for index v (R504, R510). -/
inductive Func where
  | pf
  | vf (v : Fin 256)
deriving DecidableEq, Repr

/-- A doorbell page as it is reached: through the PF's BAR2 by context, or through slot s of a VF's BAR2
(R508, R509). -/
inductive DbPage where
  | pf (c : CtxId)
  | vf (v : Fin 256) (s : Fin 8)
deriving DecidableEq, Repr

/-- What an access of REGISTER_WRITE addresses: a BAR0 byte offset (R143), an offset in a doorbell page (R147), or an
offset of a VF's BAR2 outside its doorbell pages (R509). -/
inductive RegTarget where
  | bar0 (off : Nat)
  | page (p : DbPage) (off : Nat)
  | vfBar2 (v : Fin 256) (off : Nat)
deriving DecidableEq, Repr

/-- The boundary kinds of R100. -/
inductive Boundary where
  | command
  | frame (q : PortIx)
  | tick
deriving DecidableEq, Repr

/-- The slow domains of R111, in the order of their bits. -/
inductive Domain where
  | hk | ts | aon | lorlinkPhy | hbmPhy | hostPhy
deriving DecidableEq, Repr

/-- A remap or fence register: of a floor (rooms) or of a physical room (engines) (R66 to R68). -/
inductive RemapReg where
  | floorReg (f : FloorIx)
  | roomReg (r : RoomIx)
deriving DecidableEq, Repr

/-- A physical room or engine (R72, R73). -/
inductive PhysUnit where
  | room (r : RoomIx)
  | engine (e : EngIx)
deriving DecidableEq, Repr

/-- A requester of an arbiter (R432, R134). Of a floor arbiter: a physical engine's streams, a physical room's control cores,
walks and store moves, the mortar floor stage, the floor's walks and ledger cache. Of a package arbiter: a floor, the host,
Lorlink ingress, the larder fill engine, the mortar's higher stages, the package's walks and ledger reads. Of both: the four
privileged requesters. -/
inductive ArbSource where
  | engine (e : EngIx)
  | room (r : RoomIx)
  | floorStage
  | floorWalks
  | floor (f : FloorIx)
  | host
  | lorlink
  | larder
  | mortar
  | pkgWalks
  | mgmt
  | mirror
  | faultPath
  | flue
deriving DecidableEq, Repr

/-- The unit a detected failure fences (R61). -/
inductive Failure where
  | engine (e : EngIx)
  | room (r : RoomIx)
  | die (d : DieIx)
  | package
deriving DecidableEq, Repr

/-- Where an uncorrectable SRAM error occurs (R388). A floor-cache site names the physical address of a
64-byte beat. -/
inductive SramSite where
  | engineBuffer (e : EngIx)
  | accumulator (e : EngIx)
  | exactSave (e : EngIx)
  | roomStore (r : RoomIx)
  | controlMemory (r : RoomIx)
  | routineStore (r : RoomIx)
  | floorCacheClean (f : FloorIx) (addr : BitVec 48)
  | floorCacheModified (f : FloorIx) (addr : BitVec 48)
deriving DecidableEq, Repr

/-- A command held in a room, named by its room sequence number (R315). -/
structure CmdRef where
  room : RoomIx
  seq  : Nat
deriving DecidableEq, Repr

/-- A stream of an engine (R397, R398), named by the number it was given. -/
structure StreamRef where
  eng : EngIx
  id  : Nat
deriving DecidableEq, Repr

/-- The key of a merge record: merge object, token, slab (R273). -/
structure MergeKey where
  merge : Fin 256
  token : W32
  slab  : Nat
deriving DecidableEq, Repr

/-- A forwarding stage of the mortar tree (R274). -/
inductive MortarStage where
  | floor (f : FloorIx)
  | die (d : DieIx)
deriving DecidableEq, Repr

/-- The second source of an integer instruction: a register, or a 16-bit signed immediate (R339). -/
inductive Src2 where
  | reg (g : GReg)
  | imm (i : BitVec 16)
deriving DecidableEq, Repr

/-- A younger coprocessor instruction that reached EX and is squashed (R358, R359, R361): a TLOAD of tile
register t from a data-memory address, or a TPREF of 1 to 8 blocks. -/
inductive Young where
  | tload (t : Fin 16) (addr : W32)
  | tpref (va : BitVec 57) (n : Fin 8)
deriving DecidableEq, Repr

/-- The executing pair of a room at an instruction: the room, and the younger coprocessor instructions that have reached EX, which
the instruction squashes where it faults at CO or is a branch whose prediction was wrong (R358). -/
structure Pipe where
  room  : RoomIx
  young : List Young
deriving DecidableEq, Repr

/-- The physical room of an executing pair. -/
def Pipe.val (p : Pipe) : Nat := p.room.val

/-- The fields of a coprocessor instruction word below MAJOR (R351). -/
structure CpWord where
  sub : BitVec 4
  gc  : GReg
  ga  : GReg
  gb  : GReg
  imm : BitVec 8
deriving DecidableEq, Repr

/-- What the comparator compares of one committed instruction (R366). -/
structure CommitRec where
  pc    : Nat
  gwr   : List (GReg × W32)
  store : Option (W32 × W64 × BitVec 8)
  cp    : Option W32
deriving DecidableEq, Repr

/-- A flit after FEC correction: header, 256 payload bytes, CRC, and the physical lanes on which FEC corrected
a byte (R455, R466). -/
structure Flit where
  hdr      : W64
  payload  : List Byte
  crc      : W32
  fecLanes : List (Fin 18)
deriving DecidableEq, Repr

/-- What a port learns in training (R472, R473): the partner's package number, ring, side (0 east, 1 west,
2 P), RING_SIZE and instance value, the lanes that pass, the lanes whose TS1 carries another lane's number,
and the partner's half of the wall handshake (R489). -/
structure TrainInfo where
  pkg       : Fin 64
  ring      : Fin 2
  side      : Fin 3
  ringSize  : Nat
  instVal   : W32
  lanes     : BitVec 18
  misLanes  : BitVec 18
  wallEn    : Bool
  keeperEff : Bool
  winCrc    : W32
  logSize   : Nat
deriving DecidableEq, Repr

/-- The PHY PLLs of R549. -/
inductive Pll where
  | lorlink (q : PortIx)
  | hbm (s : Fin 8)
  | pcie
  | cellar (p : Fin 2)
deriving DecidableEq, Repr

/-- The monitored rails of R554, in the order of SUPPLY_STATUS.WARN_RAIL. -/
inductive Rail where
  | vddCore | vddSram | vddIo | vddHbm | vddqHbm | vaux
deriving DecidableEq, Repr

/-- The causes of a cold reset that are not a supply reset, a clock loss or a thermal trip (R577). -/
inductive ResetPin where
  | resetN
  | pwrGood
deriving DecidableEq, Repr

/-- What a cellar port finds at start-up (R529, R531): a linked Type 3 device, or an error. -/
inductive CxlFound where
  | none
  | device (width : Fin 3) (speed : Fin 4) (size256MiB : Fin 8193)
  | error (code : Fin 4)
deriving DecidableEq, Repr

/-- A temperature sensor group with a trip level (R574). -/
inductive ThermSensor where
  | die (d : DieIx)
  | ioDie
  | hbm (s : Fin 8)
deriving DecidableEq, Repr

/-- The units that an SRAM test finds beyond repair (R583 step 4). -/
inductive SramFail where
  | engine (e : EngIx)
  | room (r : RoomIx)
  | floorCache (f : FloorIx)
deriving DecidableEq, Repr

/-- What start-up meets outside the device (R532 to R536, R581): new contents of the board's boot flash, where it was
programmed outside the device; whether the flash answers SFDP; what the loaded
firmware carries (version, routine image and whether its CRC passes); what the repair record says (its
format is not in the manual); the outcome of HBM training, SRAM test and cellar training; the SMB_ADDR straps;
whether RESET_N and PWR_GOOD are high and every rail is good. -/
structure StartEnv where
  flash        : Option (List Byte)
  flashOk      : Bool
  fwVersion    : W32 × W32
  repairOk     : Bool
  remaps       : List (RemapReg × W32)
  pcRemaps     : List (Fin 8 × W32)
  hbmFail      : BitVec 8
  sramFails    : List SramFail
  routineImage : List Byte
  imageCrcOk   : Bool
  cxl0         : CxlFound
  cxl1         : CxlFound
  straps       : Fin 4
  pinsOk       : Bool
deriving DecidableEq, Repr

/-- What a warm reset or an exit from RETAIN meets: the SRAM test's findings, and whether accepted stores
remain 10 µs after the drain begins (R428, R429, R583). -/
structure TestEnv where
  sramFails  : List SramFail
  drainFails : Bool
deriving DecidableEq, Repr

/-- The averages that a rate update sees (R571): input power in W, and the highest die or IO-die and HBM
temperatures in half degrees. -/
structure RateEnv where
  power  : Nat
  dieMax : Nat
  hbmMax : Nat
deriving DecidableEq, Repr

/-- The bus over which a management message arrives (R537). -/
inductive MBus where
  | pcieVdm
  | smbus
deriving DecidableEq, Repr

/-- A run of the array on a MATMUL: the command, and how far it works in it: to its `upto`-th K-step from now, or as far as it
can (R421). -/
structure ArrayRun where
  ref  : CmdRef
  upto : Option Nat
deriving DecidableEq, Repr

/-- A write of an arbiter register, with the fabric cycle in which it is accepted (R439, R443). -/
structure CycleWr where
  wr    : BusWr
  cycle : Nat
deriving DecidableEq, Repr

/-- A read response on a port: the port, and the beats of the block whose data carries the mark of R389. -/
structure ReadRsp where
  port   : PortIx
  poison : List (Fin 64)
deriving DecidableEq, Repr

/-- The commands of the block, one constructor for each row of the table, in the table's order. -/
inductive Instr where
  -- registers, lock, mailbox (R80 to R118)
  | registerWrite (t : RegTarget) (a : RegAcc)
  | lockKeyWrite (w : BusWr)
  | bStagedApply (b : Boundary)
  | pWriteTakesEffect (d : Domain)
  | mailboxSelWrite (w : BusWr)
  | mailboxFetchDone (r : Req)
  | mailboxLastWordRead (r : Req)
  -- remap, fence, failures (R61 to R76, R388)
  | remapWrite (t : RemapReg) (w : BusWr)
  | fenceRequestWrite (t : RemapReg) (w : BusWr)
  | fenceDrainEnd (u : PhysUnit)
  | unitFailureDetected (f : Failure)
  | sramUncorrectable (x : SramSite)
  -- seal and keystone (R119 to R142)
  | sealSweepSnapshot
  | sealSweepEnd
  | sealHoldExpiry
  | sealCommit (w : BusWr)
  | sealCommitEnd
  | keystoneSet (w : BusWr)
  -- queues and commands (R281 to R334)
  | dbTailWrite (p : DbPage) (w : BusWr)
  | dbDepthRead (p : DbPage)
  | compatHoldEnd (p : DbPage) (timeout : Bool)
  | descriptorDelivery
  | commandDispatch (c : CmdRef)
  | commandComplete (c : CmdRef)
  | commandFault (c : CmdRef)
  | sync (c : CmdRef)
  | matmul (c : ArrayRun)
  | load (c : CmdRef)
  | store (c : CmdRef)
  | gather (c : CmdRef)
  | scatter (c : CmdRef)
  | halo (c : CmdRef)
  | mortarOpen (c : CmdRef)
  | call (c : CmdRef)
  | latchValWrite (w : BusWr)
  | fwGo (r : RoomIx) (w : BusWr)
  | brkModeWrite (r : RoomIx) (w : BusWr)
  | brkResume (r : RoomIx) (w : BusWr)
  -- mortar tree (R268 to R279)
  | engineRecord (e : EngIx)
  | dieStageRecord (d : DieIx)
  | mortarForwardTimeout (st : MortarStage) (k : MergeKey)
  | packageStageRecord
  -- control cores (R335 to R364)
  | serviceEntry (r : RoomIx) (sq : List Young)
  | routineLimitExpiry (r : RoomIx)
  | iadd (r : Pipe) (rd ra : GReg) (b : Src2)
  | isub (r : Pipe) (rd ra : GReg) (b : Src2)
  | iand (r : Pipe) (rd ra : GReg) (b : Src2)
  | ior (r : Pipe) (rd ra : GReg) (b : Src2)
  | ixor (r : Pipe) (rd ra : GReg) (b : Src2)
  | inor (r : Pipe) (rd ra : GReg) (b : Src2)
  | shl (r : Pipe) (rd ra : GReg) (b : Src2)
  | shr (r : Pipe) (rd ra : GReg) (b : Src2)
  | shra (r : Pipe) (rd ra : GReg) (b : Src2)
  | cmplt (r : Pipe) (rd ra : GReg) (b : Src2)
  | cmpltu (r : Pipe) (rd ra : GReg) (b : Src2)
  | cmpeq (r : Pipe) (rd ra : GReg) (b : Src2)
  | imovh (r : Pipe) (rd : GReg) (imm : BitVec 16)
  | isel (r : Pipe) (rd ra rb rc : GReg)
  | clz (r : Pipe) (rd ra : GReg)
  | bitcnt (r : Pipe) (rd ra : GReg)
  | imul (r : Pipe) (rd ra rb : GReg)
  | ld8 (r : Pipe) (rd ra : GReg) (off : BitVec 16)
  | ld8u (r : Pipe) (rd ra : GReg) (off : BitVec 16)
  | ld16 (r : Pipe) (rd ra : GReg) (off : BitVec 16)
  | ld16u (r : Pipe) (rd ra : GReg) (off : BitVec 16)
  | ld32 (r : Pipe) (rd ra : GReg) (off : BitVec 16)
  | st8 (r : Pipe) (rs ra : GReg) (off : BitVec 16)
  | st16 (r : Pipe) (rs ra : GReg) (off : BitVec 16)
  | st32 (r : Pipe) (rs ra : GReg) (off : BitVec 16)
  | ld2w (r : Pipe) (rd ra : GReg) (off : BitVec 16)
  | st2w (r : Pipe) (rs ra : GReg) (off : BitVec 16)
  | brz (r : RoomIx) (ra : GReg) (tgt : BitVec 13) (sq : List Young)
  | brnz (r : RoomIx) (ra : GReg) (tgt : BitVec 13) (sq : List Young)
  | breq (r : RoomIx) (ra rb : GReg) (tgt : BitVec 13) (sq : List Young)
  | brne (r : RoomIx) (ra rb : GReg) (tgt : BitVec 13) (sq : List Young)
  | brlt (r : RoomIx) (ra rb : GReg) (tgt : BitVec 13) (sq : List Young)
  | brltu (r : RoomIx) (ra rb : GReg) (tgt : BitVec 13) (sq : List Young)
  | jmp (r : Pipe) (tgt : BitVec 13)
  | jmpr (r : Pipe) (ra : GReg)
  | rcall (r : Pipe) (rt : Fin 4096)
  | ret (r : Pipe)
  | dmbar (r : Pipe)
  | haltw (r : Pipe)
  | sysrd (r : Pipe) (rd : GReg) (n : BitVec 16)
  | syswr (r : Pipe) (ra : GReg) (n : BitVec 16)
  | trapret (r : Pipe)
  | esel (r : Pipe) (f : CpWord)
  | tload (r : Pipe) (f : CpWord)
  | tloadTransferEnd (r : RoomIx)
  | tpref (r : Pipe) (f : CpWord)
  | tstore (r : Pipe) (f : CpWord)
  | eissue (r : Pipe) (f : CpWord)
  | issuedDescriptorReadEnd (r : RoomIx)
  | ewait (r : Pipe) (f : CpWord)
  | lsig (r : Pipe) (f : CpWord)
  | lwait (r : Pipe) (f : CpWord)
  | lread (r : Pipe) (f : CpWord)
  -- lockstep and routine store (R365 to R382)
  | lockstepCompare (r : RoomIx) (main chk : CommitRec) (railsOk parityOk : Bool)
  | lockstepInjection (r : RoomIx) (passed : Bool)
  | swapReq (r : RoomIx) (w : BusWr)
  | swapCopyEnd (r : RoomIx)
  | routineStoreWindowWrite (r : RoomIx) (word : BitVec 13) (w : BusWr)
  | debugPathWrite (r : RoomIx) (word : BitVec 13) (val : W32)
  | swap (r : RoomIx) (w : BusWr)
  | swapCheckEnd (r : RoomIx)
  | drainingEnd (r : RoomIx)
  -- memory (R383 to R444)
  | streamBlockIssue (s : StreamRef)
  | streamBlockComplete (s : StreamRef) (k : Nat)
  | translationWalkEnd (s : StreamRef)
  | faultRingRecordWrite
  | xfResume (w : BusWr)
  | invGo (w : BusWr)
  | invDone
  | larderFillEnd (x : BitVec 16)
  | cellarBurstData (p : Fin 2) (seq : Nat) (n : Nat) (poison : List (BitVec 48))
  | cellarGapExpiry (p : Fin 2) (seq : Nat)
  | lateThreshExpiry (e : EngIx)
  | quantumExpiry (e : EngIx)
  | preempt (e : EngIx) (w : BusWr)
  | contextSwitch (e : EngIx)
  | drainTimeout
  | arbRequest (a : ArbIx) (q : ArbSource) (beats : Fin 9) (cycle : Nat)
  | arbDecision (a : ArbIx) (cycle : Nat) (withdrawn : List ArbSource)
  | arbStarve (a : ArbIx) (i : Fin 16) (cycle : Nat)
  | arbClassWrite (a : ArbIx) (w : BusWr) (cycle : Nat)
  | cntClr (a : ArbIx) (w : CycleWr)
  | memCtrlEn (w : BusWr)
  | hbmPcRemapWrite (s : Fin 8) (w : BusWr)
  -- Lorlink (R445 to R501)
  | messageEgress
  | flitReceive (q : PortIx) (f : Flit)
  | nak (q : PortIx) (hdr : W64)
  | nakTimeout (q : PortIx)
  | abort (q : PortIx) (hdr : W64)
  | llGapExpiry (q : PortIx) (vc : Fin 8)
  | llRespExpiry (s : StreamRef) (k : Nat)
  | rdReq (q : PortIx)
  | rdRsp (q : ReadRsp)
  | wr (q : PortIx)
  | wrAck (q : PortIx)
  | latch (q : PortIx)
  | mortar (q : PortIx)
  | heartbeat (q : PortIx)
  | epochData (q : PortIx)
  | epochEnd (q : PortIx)
  | epochAck (q : PortIx)
  | retrain (q : PortIx) (w : BusWr)
  | portEnable (q : PortIx) (w : BusWr)
  | trainingStageExit (q : PortIx) (i : TrainInfo)
  | trainingTimeout (q : PortIx) (fewLanes : Bool)
  | los (q : PortIx)
  | join (w : BusWr)
  | joinTimerExpiry (g : RingIx)
  | rtInv (w : BusWr)
  | rtInvDone
  | flush (w : BusWr)
  | epochTimer
  | close (w : BusWr)
  | resync (w : BusWr)
  | takeover (w : BusWr)
  | wallGraceExpiry
  -- host boundary (R502 to R531)
  | pcieLinkDown
  | pmD3hot (f : Func)
  | create (w : BusWr)
  | destroy (w : BusWr)
  | destroyEnd
  | functionLevelReset (f : Func)
  | vfAptWrite (v : Fin 256) (isSize : Bool) (w : BusWr)
  | flueConfigWrite (k : Fin 3) (w : BusWr)
  | msixIntervalEnd (f : Func) (vec : Nat)
  | cxlLinkLost (p : Fin 2)
  -- management endpoint (R537 to R542)
  | setEndpointId (b : MBus) (op : BitVec 2) (eid : Byte)
  | getEndpointId (b : MBus)
  | getEndpointUuid (b : MBus)
  | getMctpVersionSupport (b : MBus) (ty : Byte)
  | getMessageTypeSupport (b : MBus)
  | unsupportedMctpMessage (b : MBus) (ty : BitVec 7) (cmd : Byte)
  | settid (b : MBus) (tid : Byte)
  | gettid (b : MBus)
  | getpldmversion (b : MBus) (ty : Byte)
  | getpldmtypes (b : MBus)
  | getpldmcommands (b : MBus) (ty : Byte)
  | seteventreceiver (b : MBus) (enable : Byte) (eid : Byte)
  | getsensorreading (b : MBus) (sensor : BitVec 16) (measured : W32)
  | getstatesensorreadings (b : MBus) (sensor : BitVec 16)
  | setnumericsensorenable (b : MBus) (sensor : BitVec 16) (op : Byte)
  | getpdrrepositoryinfo (b : MBus)
  | getpdr (b : MBus) (handle : W32)
  | querydeviceidentifiers (b : MBus)
  | getfirmwareparameters (b : MBus)
  | requestupdate (b : MBus) (ncomp : BitVec 16)
  | passcomponenttable (b : MBus) (comp : BitVec 16)
  | updatecomponent (b : MBus) (comp : BitVec 16) (version : W32) (data : List Byte)
  | transfercomplete (b : MBus) (result : Byte)
  | verifycomplete (b : MBus) (result : Byte)
  | applycomplete (b : MBus) (result : Byte)
  | activatefirmware (b : MBus) (selfContained : Bool)
  | getstatus (b : MBus)
  | cancelupdatecomponent (b : MBus)
  | cancelupdate (b : MBus)
  | unsupportedPldmCommand (b : MBus) (ty : BitVec 6) (cmd : Byte)
  | stateSensorChange (sensor : BitVec 16)
  | eventMergeExpiry (sensor : BitVec 16)
  -- JTAG (R543 to R545)
  | extest
  | samplePreload (cells : W64)
  | idcode
  | highz
  | clamp
  | bypass (ir : Byte)
  | trstN
  -- clocks, supplies, resets, power (R547 to R596)
  | tsLoRead (r : Req)
  | refclkLoss
  | pllLoss (p : Pll)
  | vddCoreWarning
  | stretchEnd
  | supplyWarning (x : Rail)
  | supplyReset (x : Rail)
  | powerOnReset
  | coldReset (p : ResetPin)
  | coldResetRelease (env : StartEnv)
  | warm (w : BusWr) (env : TestEnv)
  | thermalTrip (x : ThermSensor)
  | rateUpdate (env : RateEnv)
  | active (w : BusWr)
  | idle (w : BusWr)
  | retain (w : BusWr)
  | idleEntryEnd
  | retainEntryEnd
  | retainExitEnd (env : TestEnv)
  | roomPwrWrite (f : FloorIx) (w : BusWr)
  | roomGateEnd (r : RoomIx)
  | roomUngateEnd (r : RoomIx)
  | pcieLinkUp
  | bar4Access (f : Func) (addr : BitVec 39) (wdata : Option (List Byte)) (n : Nat)
  | createEnd
  | idleExitEnd
  | wallHandshakeRetry
  | vfEnable (en : Bool) (numVfs : Fin 257)
deriving DecidableEq, Repr

end Sys2Proof
end

