-- ==== Sys2Proof/Decode.lean ====
section
/-! DEFINITION. The word decoders: that of the command table, whose rows have no bits, and that of the coprocessor instructions,
whose words R351 lays out. -/

namespace Sys2Proof

/-- The command that a word of `nbits` bits spells by the table's bits: none, since the table gives no row bits. -/
def decodeTableWord (_nbits _w : Nat) : Option Instr := none

/-- The fields of a coprocessor instruction word below MAJOR (R351). -/
def cpFields (w : W32) : CpWord :=
  { sub := BitVec.ofNat 4 (w.toNat / 2 ^ 23), gc := Fin.ofNat 32 (w.toNat / 2 ^ 18), ga := Fin.ofNat 32 (w.toNat / 2 ^ 13)
    gb := Fin.ofNat 32 (w.toNat / 2 ^ 8), imm := BitVec.ofNat 8 w.toNat }

/-- The coprocessor instruction that a word spells (R351, R352); none for another MAJOR. A reserved SUB goes to the first of them,
which finds that it is not its own. -/
def decodeCp (r : Pipe) (w : W32) : Option Instr :=
  if w.toNat / 2 ^ 27 ≠ 0b11101 then none
  else
    let f := cpFields w
    match f.sub.toNat with
    | 1 => some (.tload r f)
    | 2 => some (.tpref r f)
    | 3 => some (.tstore r f)
    | 4 => some (.eissue r f)
    | 5 => some (.ewait r f)
    | 6 => some (.lsig r f)
    | 7 => some (.lwait r f)
    | 8 => some (.lread r f)
    | _ => some (.esel r f)

/-- The word of a coprocessor instruction's fields (R351). -/
def encodeCp (f : CpWord) : W32 :=
  BitVec.ofNat 32 (0b11101 * 2 ^ 27 + f.sub.toNat * 2 ^ 23 + f.gc.val * 2 ^ 18 + f.ga.val * 2 ^ 13 + f.gb.val * 2 ^ 8 +
    f.imm.toNat)

end Sys2Proof
end

