-- ==== Sys2Proof/Machine/Tables.lean ====
section
/-! DEFINITION. The tables F of R229 and R235: RNE32 of the mathematical functions at the segment ends, as FP32
encodings. GELU is x times the standard normal distribution function (PRESUMED, assumption log 29). -/

namespace Sys2Proof.Machine

/-- GELU at −8 + i / 4, i = 0 to 64 (R229). -/
def tabGelu : List Nat :=
  [0xA7B34E96, 0xA9205DA6, 0xAA86B932, 0xABD4A034, 0xAD1D9A58, 0xAE5B73DC, 0xAF8F821F, 0xB0B049C0,
   0xB1CB64B3, 0xB2DC656C, 0xB3E049EC, 0xB4D659EF, 0xB5C05E5D, 0xB6A21B39, 0xB7804203, 0xB83E880C,
   0xB904D6BD, 0xB9ADD5E0, 0xBA557028, 0xBAF5CDAE, 0xBB84B34C, 0xBC064197, 0xBC7E590F, 0xBCE1524D,
   0xBD3A5E7C, 0xBD8F9270, 0xBDCD3B52, 0xBE073B51, 0xBE227686, 0xBE2E0CC0, 0xBE1DF8A2, 0xBDCD765D,
   0x00000000, 0x3E1944D1, 0x3EB103AF, 0x3F147CD0, 0x3F57625F, 0x3F8F1896, 0x3FB32C4B, 0x3FD706D9,
   0x3FFA2D0C, 0x400E3D5B, 0x401F01A7, 0x402F79BE, 0x403FBDA6, 0x404FE146, 0x405FF2A9, 0x406FFA91,
   0x407FFDED, 0x4087FFA1, 0x408FFFE0, 0x4097FFF6, 0x409FFFFD, 0x40A7FFFF, 0x40B00000, 0x40B80000,
   0x40C00000, 0x40C80000, 0x40D00000, 0x40D80000, 0x40E00000, 0x40E80000, 0x40F00000, 0x40F80000,
   0x41000000]

/-- SiLU at −8 + i / 4 (R229). -/
def tabSilu : List Nat :=
  [0xBB2FD1EF, 0xBB5AAE82, 0xBB87D9D3, 0xBBA89850, 0xBBD0F929, 0xBC0156A7, 0xBC1FDEB2, 0xBC454C31,
   0xBC731199, 0xBC957231, 0xBCB76256, 0xBCE081D6, 0xBD0911D0, 0xBD26E231, 0xBD4A82E6, 0xBD74D1D3,
   0xBD9357D1, 0xBDB07759, 0xBDD21C2E, 0xBDF872A1, 0xBE11B139, 0xBE29343A, 0xBE42326B, 0xBE5BAF67,
   0xBE7420A9, 0xBE84A679, 0xBE8C1A51, 0xBE8E8731, 0xBE89B2B1, 0xBE766409, 0xBE414D03, 0xBDE02A67,
   0x00000000, 0x3E0FEACD, 0x3E9F597F, 0x3F0266FE, 0x3F3B26A8, 0x3F78BC68, 0x3F9CF96C, 0x3FBED662,
   0x3FE17BEB, 0x4002450A, 0x4013DCD9, 0x40256CBC, 0x4036E4EC, 0x40483C6B, 0x40596F1F, 0x406A7C45,
   0x407B6541, 0x4086165C, 0x408E6AFA, 0x4096B23C, 0x409EEDDC, 0x40A71F7E, 0x40AF489E, 0x40B76A8E,
   0x40BF8677, 0x40C79D5A, 0x40CFB011, 0x40D7BF55, 0x40DFCBC2, 0x40E7D5DA, 0x40EFDE0A, 0x40F7E4AA,
   0x40FFEA06]

/-- Sigmoid at −8 + i / 4 (R229). -/
def tabSigmoid : List Nat :=
  [0x39AFD1EF, 0x39E1BC65, 0x3A10E859, 0x3A3A092D, 0x3A6ED39C, 0x3A994A41, 0x3AC4C351, 0x3AFC8A7D,
   0x3B220BBC, 0x3B4FECC9, 0x3B855ECA, 0x3BAB0D97, 0x3BDB4FB4, 0x3C0C8895, 0x3C340294, 0x3C666B21,
   0x3C9357D1, 0x3CBC3B0A, 0x3CF02034, 0x3D18E414, 0x3D4241A2, 0x3D761D6B, 0x3D9B5B89, 0x3DC34695,
   0x3DF420A9, 0x3E1799AF, 0x3E3ACDC2, 0x3E640B81, 0x3E89B2B1, 0x3EA442B1, 0x3EC14D03, 0x3EE02A67,
   0x3F000000, 0x3F0FEACD, 0x3F1F597F, 0x3F2DDEA8, 0x3F3B26A8, 0x3F46FD20, 0x3F514C90, 0x3F5A1994,
   0x3F617BEB, 0x3F67972D, 0x3F6C948F, 0x3F709E29, 0x3F73DBE6, 0x3F7671BF, 0x3F787EFE, 0x3F7A1E28,
   0x3F7B6541, 0x3F7C6653, 0x3F7D2FF6, 0x3F7DCDDE, 0x3F7E4961, 0x3F7EA9E5, 0x3F7EF542, 0x3F7F3013,
   0x3F7F5DF4, 0x3F7F81BB, 0x3F7F9D9E, 0x3F7FB35B, 0x3F7FC44B, 0x3F7FD17E, 0x3F7FDBC6, 0x3F7FE3C8,
   0x3F7FEA06]

/-- Tanh at −8 + i / 4 (R229). -/
def tabTanh : List Nat :=
  [0xBF7FFFFC, 0xBF7FFFFA, 0xBF7FFFF6, 0xBF7FFFEF, 0xBF7FFFE4, 0xBF7FFFD2, 0xBF7FFFB4, 0xBF7FFF83,
   0xBF7FFF32, 0xBF7FFEAC, 0xBF7FFDD0, 0xBF7FFC64, 0xBF7FFA0D, 0xBF7FF631, 0xBF7FEFD4, 0xBF7FE556,
   0xBF7FD40C, 0xBF7FB78C, 0xBF7F8896, 0xBF7F3B3D, 0xBF7EBBE9, 0xBF7DEA85, 0xBF7C92C1, 0xBF7A5FEB,
   0xBF76CA83, 0xBF70FDFD, 0xBF67B7CC, 0xBF59291E, 0xBF42F7D6, 0xBF22991F, 0xBEEC9A9F, 0xBE7ACBF5,
   0x00000000, 0x3E7ACBF5, 0x3EEC9A9F, 0x3F22991F, 0x3F42F7D6, 0x3F59291E, 0x3F67B7CC, 0x3F70FDFD,
   0x3F76CA83, 0x3F7A5FEB, 0x3F7C92C1, 0x3F7DEA85, 0x3F7EBBE9, 0x3F7F3B3D, 0x3F7F8896, 0x3F7FB78C,
   0x3F7FD40C, 0x3F7FE556, 0x3F7FEFD4, 0x3F7FF631, 0x3F7FFA0D, 0x3F7FFC64, 0x3F7FFDD0, 0x3F7FFEAC,
   0x3F7FFF32, 0x3F7FFF83, 0x3F7FFFB4, 0x3F7FFFD2, 0x3F7FFFE4, 0x3F7FFFEF, 0x3F7FFFF6, 0x3F7FFFFA,
   0x3F7FFFFC]

/-- exp at −16 + i / 16, i = 0 to 256 (R235) (part 0). -/
def tabExp0 : List Nat :=
  [0x33F1AADE, 0x3400A078, 0x3408EC2C, 0x3411C0D8, 0x341B2751, 0x342528FE, 0x342FCFE1, 0x343B26A4,
   0x3447389C, 0x345411DE, 0x3461BF43, 0x34704E7A, 0x347FCE14, 0x348826C9, 0x3490EEB9, 0x349A47A5,
   0x34A43AE5, 0x34AED26E, 0x34BA18D7, 0x34C61969, 0x34D2E025, 0x34E079D3, 0x34EEF40D, 0x34FE5D4F,
   0x35076282, 0x35101DCA, 0x3519693C, 0x35234E24, 0x352DD668, 0x35390C90, 0x3544FBD5, 0x3551B025,
   0x355F3638, 0x356D9B93, 0x357CEE9E, 0x35869F56, 0x358F4E08, 0x35988C13, 0x35A262B8, 0x35ACDBCD,
   0x35B801CC, 0x35C3DFDC, 0x35D081DC, 0x35DDF46F, 0x35EC450A, 0x35FB81FD, 0x3605DD44, 0x360E7F71,
   0x3617B02A, 0x3621789F, 0x362BE29B, 0x3636F888, 0x3642C57C, 0x364F5546, 0x365CB477, 0x366AF06E,
   0x367A176A, 0x36851C49, 0x368DB204, 0x3696D57D, 0x36A08FD8, 0x36AAEAD1, 0x36B5F0C2, 0x36C1ACB4,
   0x36CE2A62]

/-- exp at −16 + i / 16, i = 0 to 256 (R235) (part 1). -/
def tabExp1 : List Nat :=
  [0x36DB764C, 0x36E99DBE, 0x36F8AEE2, 0x37045C64, 0x370CE5BF, 0x3715FC0C, 0x371FA861, 0x3729F46C,
   0x3734EA79, 0x37409580, 0x374D012C, 0x375A39EB, 0x37684CF6, 0x37774861, 0x37839D95, 0x378C1AA1,
   0x379523D4, 0x379EC237, 0x37A8FF6A, 0x37B3E5AA, 0x37BF7FDF, 0x37CBD9A3, 0x37D8FF52, 0x37E6FE13,
   0x37F5E3E5, 0x3802DFD8, 0x380B50A8, 0x38144CD4, 0x381DDD59, 0x38280BC9, 0x3832E253, 0x383E6BCE,
   0x384AB3C4, 0x3857C67F, 0x3865B113, 0x3874816B, 0x3882232C, 0x388A87D1, 0x3893770A, 0x389CF9C5,
   0x38A71988, 0x38B1E071, 0x38BD594B, 0x38C98F8D, 0x38D68F6F, 0x38E465F3, 0x38F320F0, 0x39016791,
   0x3909C01D, 0x3912A274, 0x391C1779, 0x392628A3, 0x3930E004, 0x393C4853, 0x39486CFB, 0x39555A20,
   0x39631CB1, 0x3971C271, 0x3980AD04, 0x3988F988, 0x3991CF10, 0x399B3673, 0x39A5391A, 0x39AFE108,
   0x39BB38E6]

/-- exp at −16 + i / 16, i = 0 to 256 (R235) (part 2). -/
def tabExp2 : List Nat :=
  [0x39C74C0C, 0x39D4268E, 0x39E1D549, 0x39F065EC, 0x39FFE709, 0x3A083411, 0x3A10FCDD, 0x3A1A56B2,
   0x3A244AEB, 0x3A2EE37C, 0x3A3A2AFF, 0x3A462CBD, 0x3A52F4B8, 0x3A608FB9, 0x3A6F0B5D, 0x3A7E7620,
   0x3A876FB7, 0x3A902BD9, 0x3A997833, 0x3AA35E12, 0x3AADE75D, 0x3AB91E9E, 0x3AC50F0C, 0x3AD1C49A,
   0x3ADF4BFF, 0x3AEDB2C1, 0x3AFD074B, 0x3B06AC78, 0x3B0F5C03, 0x3B189AF5, 0x3B227290, 0x3B2CECAA,
   0x3B3813BF, 0x3B43F2F8, 0x3B509633, 0x3B5E0A17, 0x3B6C5C17, 0x3B7B9A86, 0x3B85EA53, 0x3B8E8D58,
   0x3B97BEF6, 0x3BA18860, 0x3BABF360, 0x3BB70A61, 0x3BC2D87D, 0x3BCF6980, 0x3BDCC9FF, 0x3BEB075A,
   0x3BFA2FD0, 0x3C052945, 0x3C0DBFD7, 0x3C16E434, 0x3C209F82, 0x3C2AFB7D, 0x3C360282, 0x3C41BF99,
   0x3C4E3E7F, 0x3C5B8BB5, 0x3C69B489, 0x3C78C724, 0x3C84694E, 0x3C8CF37E, 0x3C960AAE, 0x3C9FB7F4,
   0x3CAA0500]

/-- exp at −16 + i / 16, i = 0 to 256 (R235) (part 3). -/
def tabExp3 : List Nat :=
  [0x3CB4FC1F, 0x3CC0A84A, 0x3CCD152C, 0x3CDA4F35, 0x3CE8639F, 0x3CF76081, 0x3D03AA6C, 0x3D0C284C,
   0x3D153261, 0x3D1ED1B4, 0x3D290FE6, 0x3D33F737, 0x3D3F928D, 0x3D4BED86, 0x3D59147E, 0x3D67149C,
   0x3D75FBE2, 0x3D82EC9C, 0x3D8B5E3F, 0x3D945B4C, 0x3D9DECC0, 0x3DA81C2E, 0x3DB2F3C6, 0x3DBE7E61,
   0x3DCAC78B, 0x3DD7DB8C, 0x3DE5C77C, 0x3DF49946, 0x3E022FDF, 0x3E0A9555, 0x3E13856D, 0x3E1D0916,
   0x3E2729D5, 0x3E31F1CC, 0x3E3D6BC4, 0x3E49A337, 0x3E56A45E, 0x3E647C3C, 0x3E7338A8, 0x3E817431,
   0x3E89CD8D, 0x3E92B0C2, 0x3E9C26B4, 0x3EA638D9, 0x3EB0F145, 0x3EBC5AB2, 0x3EC88088, 0x3ED56EF0,
   0x3EE332D9, 0x3EF1DA07, 0x3F00B992, 0x3F0906E5, 0x3F11DD4A, 0x3F1B4598, 0x3F254939, 0x3F2FF231,
   0x3F3B4B29, 0x3F475F7D, 0x3F543B41, 0x3F61EB51, 0x3F707D60, 0x3F800000]

/-- exp at −16 + i / 16, i = 0 to 256 (R235). -/
def tabExp : List Nat := tabExp0 ++ tabExp1 ++ tabExp2 ++ tabExp3

end Sys2Proof.Machine
end

