-- ==== Sys2Proof/Machine/Numeric.lean ====
section
/-! DEFINITION. Exact numbers and number formats (R149 to R190): element decoding and encoding, block scales,
conversions, random draws (R215), the activations and EXP (R228 to R230, R235), split-FP32 (R185). -/

namespace Sys2Proof.Machine

/-! ### Exact values -/

/-- A value of the tensor engine: an exact finite number, a special value (R156), or a value that no rule states
(assumption log 30), named by the free number that stands for it. -/
inductive Num where
  | fin (q : Rat)
  | inf (neg : Bool)
  | nan
  | free (n : Nat)
deriving DecidableEq, Repr

/-- 2^e. -/
def pow2 (e : Int) : Rat := if 0 ≤ e then ((2 ^ e.toNat : Nat) : Rat) else mkRat 1 (2 ^ (-e).toNat)

/-- ⌊log2 |q|⌋ for a nonzero q. -/
def ilog2 (q : Rat) : Int :=
  let k : Int := (Nat.log2 q.num.natAbs : Int) - (Nat.log2 q.den : Int)
  if pow2 k ≤ (if q < 0 then -q else q) then k else k - 1

/-- |q|. -/
def rabs (q : Rat) : Rat := if q < 0 then -q else q

/-- Sum under R156. -/
def Num.add : Num → Num → Num
  | .free n, _ => .free n
  | _, .free n => .free n
  | .nan, _ => .nan
  | _, .nan => .nan
  | .inf a, .inf b => if a = b then .inf a else .nan
  | .inf a, .fin _ => .inf a
  | .fin _, .inf b => .inf b
  | .fin a, .fin b => .fin (a + b)

/-- Negation. -/
def Num.neg : Num → Num
  | .fin q => .fin (-q)
  | .inf s => .inf (!s)
  | .nan => .nan
  | .free n => .free n

/-- Product under R156. -/
def Num.mul : Num → Num → Num
  | .free n, _ => .free n
  | _, .free n => .free n
  | .nan, _ => .nan
  | _, .nan => .nan
  | .inf a, .inf b => .inf (a != b)
  | .inf a, .fin q => if q = 0 then .nan else .inf (a != decide (q < 0))
  | .fin q, .inf b => if q = 0 then .nan else .inf (b != decide (q < 0))
  | .fin a, .fin b => .fin (a * b)

/-- |x|. -/
def Num.abs : Num → Num
  | .fin q => .fin (rabs q)
  | .inf _ => .inf false
  | .nan => .nan
  | .free n => .free n

/-- Sum of a list. -/
def Num.sum (l : List Num) : Num := l.foldl Num.add (.fin 0)

/-- Whether x ranks strictly above y under R232: larger first, NaN below every other value. -/
def Num.above : Num → Num → Bool
  | .nan, _ => false
  | _, .nan => true
  | .inf a, .inf b => !a && b
  | .inf a, _ => !a
  | _, .inf b => b
  | .fin a, .fin b => decide (b < a)
  | _, _ => false

/-! ### Formats (R149, R589) -/

/-- A floating format: bits, exponent and mantissa widths, bias, encoding of the largest finite magnitude, whether it
has infinity, and its canonical NaN (R157). -/
structure Fmt where
  bits   : Nat
  ebits  : Nat
  mbits  : Nat
  bias   : Int
  maxEnc : Nat
  hasInf : Bool
  qnan   : Option Nat
deriving DecidableEq, Repr

/-- The float format of an element code; none for INT8 and reserved codes (R149, R157). -/
def fmtOf (code : Nat) : Option Fmt :=
  match code with
  | 1 => some ⟨8, 4, 3, 7, 0x7E, false, some 0x7F⟩
  | 2 => some ⟨8, 5, 2, 15, 0x7B, true, some 0x7F⟩
  | 3 => some ⟨6, 2, 3, 1, 0x1F, false, none⟩
  | 4 => some ⟨6, 3, 2, 3, 0x1F, false, none⟩
  | 5 => some ⟨4, 2, 1, 1, 0x7, false, none⟩
  | 6 => some ⟨16, 8, 7, 127, 0x7F7F, true, some 0x7FC0⟩
  | 7 => some ⟨16, 5, 10, 15, 0x7BFF, true, some 0x7E00⟩
  | 8 => some ⟨32, 8, 23, 127, 0x7F7FFFFF, true, some 0x7FC00000⟩
  | _ => none

/-- Bits per element of a code (R149). -/
def elemBits (code : Nat) : Nat :=
  match code with
  | 0 => 8
  | 1 => 8
  | 2 => 8
  | 3 => 6
  | 4 => 6
  | 5 => 4
  | 6 => 16
  | 7 => 16
  | 8 => 32
  | _ => 8

/-- An element as an integer times a power of two, or a special value: 0 finite, 1 +∞, 2 −∞, 3 NaN (the flags of
R214). -/
structure Elt where
  m  : Int
  e  : Int
  sp : Nat
deriving DecidableEq, Repr

/-- The zero element. -/
def Elt.zero : Elt := { m := 0, e := 0, sp := 0 }

/-- The NaN element. -/
def Elt.nan : Elt := { m := 0, e := 0, sp := 3 }

/-- The value of a float encoding (R149, R151). Codes 0x1 to 0x5 are whole multiples of 2^-16, and their `e` is −16, so
that a product of two weighs 2^-32 as in the exact register (R204). -/
def Fmt.decode (f : Fmt) (w : Nat) : Elt :=
  let neg := bitAt w (f.bits - 1)
  let mag := w % 2 ^ (f.bits - 1)
  let ef := mag / 2 ^ f.mbits
  let mf := mag % 2 ^ f.mbits
  if f.hasInf && ef == 2 ^ f.ebits - 1 then
    if mf = 0 then { m := 0, e := 0, sp := if neg then 2 else 1 } else Elt.nan
  else if f.qnan.isSome && !f.hasInf && mag == 2 ^ (f.bits - 1) - 1 then Elt.nan
  else
    let n := if ef = 0 then mf else mf + 2 ^ f.mbits
    let e : Int := (if ef = 0 then 1 else (ef : Int)) - f.bias - (f.mbits : Int)
    let s : Int := if neg then -(n : Int) else (n : Int)
    if f.bits ≤ 8 then { m := s * ((2 ^ (e + 16).toNat : Nat) : Int), e := -16, sp := 0 }
    else { m := s, e := e, sp := 0 }

/-- The value of an element before its block scale (R149, R154). -/
def decodeElt (code : Nat) (mx : Bool) (w : Nat) : Elt :=
  match fmtOf code with
  | some f => f.decode w
  | none =>
    let k := toSigned 8 w
    if mx then { m := k * 1024, e := -16, sp := 0 } else { m := k * 65536, e := -16, sp := 0 }

/-- The number an element stands for, times 2^s. -/
def Elt.toNum (x : Elt) (s : Int) : Num :=
  match x.sp with
  | 0 => .fin ((x.m : Rat) * pow2 (x.e + s))
  | 1 => .inf false
  | 2 => .inf true
  | _ => .nan

/-- The value of an element with an optional E8M0 scale byte (R153). -/
def elemNum (code : Nat) (scale : Option Nat) (w : Nat) : Num :=
  match scale with
  | none => (decodeElt code false w).toNum 0
  | some 255 => .nan
  | some b => (decodeElt code true w).toNum ((b : Int) - 127)

/-! ### Rounding and encoding (R177 to R180, R590) -/

/-- Rounds a nonnegative t to an integer: to nearest even without a draw, stochastically with one (R178, R179). -/
def roundMag (t : Rat) (q : Option Nat) : Nat :=
  let n := t.floor.toNat
  let r := t - (n : Rat)
  match q with
  | some d => if d < (r * 65536).floor.toNat then n + 1 else n
  | none =>
    if mkRat 1 2 < r then n + 1
    else if r = mkRat 1 2 then n + n % 2
    else n

/-- The magnitude encoding of a nonzero finite value before the overflow test. -/
def Fmt.roundEnc (f : Fmt) (x : Rat) (q : Option Nat) : Nat :=
  let a := rabs x
  let emin : Int := 1 - f.bias
  let ee := max (ilog2 a) emin
  let n := roundMag (a / pow2 (ee - (f.mbits : Int))) q
  (ee - emin).toNat * 2 ^ f.mbits + n

/-- Encodes a finite value in a float format (R177, R178); the sign of a nonzero value that rounds to zero is kept
(assumption log 31). -/
def Fmt.encodeFin (f : Fmt) (x : Rat) (q : Option Nat) (sat : Bool) : Nat :=
  if x = 0 then 0
  else
    let c := f.roundEnc x q
    let mag := if f.maxEnc < c then (if f.hasInf && !sat then (2 ^ f.ebits - 1) * 2 ^ f.mbits else f.maxEnc) else c
    (if x < 0 then 2 ^ (f.bits - 1) else 0) + mag

/-- Encodes a finite value in INT8 (R154, R178): the integer itself, or 64ths under MX32. -/
def encodeInt8 (x : Rat) (q : Option Nat) (mx : Bool) : Nat :=
  let n : Int := (roundMag (rabs (if mx then x * 64 else x)) q : Int)
  let v := if x < 0 then -n else n
  let c := if 127 < v then 127 else if v < -128 then -128 else v
  (c % 256).toNat

/-- The encoding of the finite extreme of a sign (R589). -/
def extremeEnc (code : Nat) (neg : Bool) : Nat :=
  match fmtOf code with
  | some f => (if neg then 2 ^ (f.bits - 1) else 0) + f.maxEnc
  | none => if neg then 0x80 else 0x7F

/-- Encodes a value under scale mode NONE (R157, R177, R178). -/
def encodeNum (code : Nat) (x : Num) (q : Option Nat) (sat : Bool) : Nat :=
  match x with
  | .fin v =>
    match fmtOf code with
    | some f => f.encodeFin v q sat
    | none => encodeInt8 v q false
  | .nan =>
    match fmtOf code with
    | some f => f.qnan.getD 0
    | none => 0
  | .inf neg =>
    match fmtOf code with
    | some f =>
      if f.hasInf then (if neg then 2 ^ (f.bits - 1) else 0) + (2 ^ f.ebits - 1) * 2 ^ f.mbits
      else extremeEnc code neg
    | none => extremeEnc code neg
  | .free n => n % 2 ^ elemBits code

/-- V of R180: the largest element magnitude that a block scale may leave. -/
def mxTop (code : Nat) : Rat :=
  match code with
  | 1 => 448
  | 2 => 57344
  | 3 => mkRat 15 2
  | 4 => 28
  | 5 => 6
  | _ => mkRat 127 64

/-- The scale exponent of a block whose largest magnitude is m (R180). -/
def mxExp (code : Nat) (m : Rat) : Int :=
  if m = 0 then -127
  else
    let k := ilog2 (m / mxTop code)
    let e := if m ≤ mxTop code * pow2 k then k else k + 1
    max (-127) (min 127 e)

/-- Encodes one element of a block with scale exponent e (R180). -/
def encodeMx (code : Nat) (x : Rat) (e : Int) (q : Option Nat) (sat : Bool) : Nat :=
  let y := x / pow2 e
  match fmtOf code with
  | some f => f.encodeFin y q sat
  | none => encodeInt8 y q true

/-- The largest magnitude of a block; none when it holds a NaN or an infinity. -/
def blockMax : List Num → Option Rat
  | [] => some 0
  | .fin v :: t => (blockMax t).map fun m => if m < rabs v then rabs v else m
  | .free _ :: t => blockMax t
  | _ :: _ => none

/-- A free value in a list, if any. -/
def anyFree : List Num → Option Nat
  | [] => none
  | .free n :: _ => some n
  | _ :: t => anyFree t

/-- Converts a run of values that share a scale: the element encodings and the scale byte (R180, R590). -/
def convertRun (code : Nat) (xs : List Num) (qs : List (Option Nat)) (sat : Bool) : List Nat × Nat :=
  match anyFree xs with
  | some n => ((List.range xs.length).map fun i => (n + i * n) % 2 ^ elemBits code, n % 256)
  | none =>
    match blockMax xs with
    | none => (xs.map fun _ => 0, 0xFF)
    | some m =>
      let e := mxExp code m
      ((xs.zip qs).map fun p =>
        match p.1 with
        | .fin v => encodeMx code v e p.2 sat
        | _ => 0, (e + 127).toNat)

/-- RNE in FP32, as an encoding (R229). -/
def rne32Enc (x : Num) : Nat := encodeNum 8 x none false

/-- RNE in FP32, as a value. -/
def rne32 (x : Num) : Num :=
  match x with
  | .free n => .free n
  | _ => elemNum 8 none (rne32Enc x)

/-- The conversion-control byte (R177): target, MX32, ROUND, SAT; the reserved bit. -/
structure Conv where
  target : Nat
  mx     : Bool
  rnd    : Bool
  sat    : Bool
  rsv    : Bool
deriving DecidableEq, Repr

/-- Reads a conversion-control byte. -/
def Conv.of (b : Nat) : Conv :=
  { target := b % 16, mx := bitAt b 4, rnd := bitAt b 5, sat := bitAt b 6, rsv := bitAt b 7 }

/-- A conversion-control byte without reserved or contradictory settings (R177). -/
def Conv.legal (c : Conv) : Bool := !c.rsv && decide (c.target ≤ 8) && (!c.mx || decide (c.target ≤ 5))

/-! ### Random draws (R215) -/

/-- The mixing function of R215, modulo 2^64. -/
def mix64 (z0 : Nat) : Nat :=
  let z1 := (z0 + 0x9E3779B97F4A7C15) % 2 ^ 64
  let z2 := (z1 ^^^ z1 / 2 ^ 30) * 0xBF58476D1CE4E5B9 % 2 ^ 64
  let z3 := (z2 ^^^ z2 / 2 ^ 27) * 0x94D049BB133111EB % 2 ^ 64
  z3 ^^^ z3 / 2 ^ 31

/-- The inputs of a draw that a command fixes (R216). -/
structure DrawIn where
  tag   : Nat
  ctx   : Nat
  batch : Nat
deriving DecidableEq, Repr

/-- The 16-bit random value Q (R215). -/
def DrawIn.q (d : DrawIn) (purpose step row col : Nat) : Nat :=
  let seed := mix64 ((d.tag % 2 ^ 32 * 2 ^ 32) ||| (d.ctx * 2 ^ 20) ||| (purpose * 2 ^ 16) ||| d.batch % 2 ^ 16)
  let key := (step % 2 ^ 24 * 2 ^ 40) ||| (row % 2 ^ 20 * 2 ^ 20) ||| col % 2 ^ 20
  mix64 (seed ^^^ key) / 2 ^ 48

/-! ### Activations (R228 to R230) and EXP (R235) -/

/-- The value of a table entry. -/
def tabNum (l : List Nat) (i : Nat) : Rat :=
  match elemNum 8 none (l.getD i 0) with
  | .fin q => q
  | _ => 0

/-- RNE32 of a rational, as a rational. -/
def rne32q (x : Rat) : Rat :=
  match rne32 (.fin x) with
  | .fin q => q
  | _ => 0

/-- The segment line of a table function at x: `per` segments to a unit, from `lo` (R229). -/
def tabLine (l : List Nat) (per : Nat) (lo : Rat) (x : Rat) : Rat :=
  let i := ((x - lo) * (per : Rat)).floor.toNat
  let x0 := lo + mkRat i per
  let a := rne32q ((per : Rat) * (tabNum l (i + 1) - tabNum l i))
  let c := rne32q (tabNum l i - a * x0)
  a * x + c

/-- A table activation on a finite x (R228, R229). -/
def tabAct (l : List Nat) (low : Rat) (high : Rat → Rat) (x : Rat) : Rat :=
  if x < -8 then low else if 8 ≤ x then high x else tabLine l 4 (-8) x

/-- An activation code's function with the leaky slope (R228, R230); codes above 0x6 are reserved and act as the
identity. -/
def activate (code : Nat) (alpha : Num) (x : Num) : Num :=
  match code with
  | 1 =>
    match x with
    | .fin q => if 0 < q then .fin q else .fin 0
    | .inf true => .fin 0
    | _ => x
  | 2 =>
    match x with
    | .fin q => if 0 ≤ q then .fin q else alpha.mul x
    | .inf true => alpha.mul x
    | _ => x
  | 3 =>
    match x with
    | .fin q => .fin (tabAct tabGelu 0 id q)
    | .inf true => .fin 0
    | _ => x
  | 4 =>
    match x with
    | .fin q => .fin (tabAct tabSilu 0 id q)
    | .inf true => .fin 0
    | _ => x
  | 5 =>
    match x with
    | .fin q => .fin (tabAct tabSigmoid 0 (fun _ => 1) q)
    | .inf true => .fin 0
    | .inf false => .fin 1
    | _ => x
  | 6 =>
    match x with
    | .fin q => .fin (tabAct tabTanh (-1) (fun _ => 1) q)
    | .inf true => .fin (-1)
    | .inf false => .fin 1
    | _ => x
  | _ => x

/-- EXP on a finite x ≤ 0 (R235). -/
def expTab (x : Rat) : Rat := if x < -16 then 0 else if 0 ≤ x then 1 else tabLine tabExp 16 (-16) x

/-! ### Reciprocal square root (R235) -/

/-- ⌊√n⌋ by bisection of the bits from 2^b down. -/
def isqrtFrom : Nat → Nat → Nat → Nat
  | 0, r, n => if (r + 1) * (r + 1) ≤ n then r + 1 else r
  | b + 1, r, n =>
    let t := r + 2 ^ (b + 1)
    isqrtFrom b (if t * t ≤ n then t else r) n

/-- ⌊√n⌋. -/
def isqrt (n : Nat) : Nat := isqrtFrom (Nat.log2 n / 2 + 1) 0 n

/-- RNE32(1 / √q) for q > 0: a rational below the root by less than 2^-64 of it, moved up by half that step when the
root is not exact, rounds as the root does. -/
def rsqrt32 (q : Rat) : Num :=
  let y := 1 / q
  let k : Int := 64 - ilog2 y / 2
  let n := (y * pow2 (2 * k)).floor.toNat
  let r := isqrt n
  let exact := ((r * r : Nat) : Rat) == y * pow2 (2 * k)
  rne32 (.fin ((if exact then (r : Rat) else (r : Rat) + mkRat 1 2) * pow2 (-k)))

/-! ### Split-FP32 (R185, R187) -/

/-- RNE to BF16 with an overflow held at the largest finite value. -/
def rneBf16 (x : Rat) : Rat :=
  match elemNum 6 none (encodeNum 6 (.fin x) none true) with
  | .fin q => q
  | _ => 0

/-- The three BF16 parts of a finite FP32 value (R185). -/
def splitFp32 (x : Rat) : Rat × Rat × Rat :=
  let hi := rneBf16 x
  let mid := rneBf16 (x - hi)
  let lo := rneBf16 (x - hi - mid)
  (hi, mid, lo)

/-- The six-product sum of two finite FP32 values (R187). -/
def splitMul (a b : Rat) : Rat :=
  let x := splitFp32 a
  let y := splitFp32 b
  x.1 * y.1 + x.1 * y.2.1 + x.2.1 * y.1 + x.1 * y.2.2 + x.2.2 * y.1 + x.2.1 * y.2.1

/-! ### Grout (R173 to R175) -/

/-- −∞ or the most negative finite value of a format (R175). -/
def negTop (code : Nat) : Nat :=
  match fmtOf code with
  | some f => if f.hasInf then 2 ^ (f.bits - 1) + (2 ^ f.ebits - 1) * 2 ^ f.mbits else 2 ^ (f.bits - 1) + f.maxEnc
  | none => 0x80

/-- The element encoding that a GROUT word gives (R173, R175). -/
def groutEnc (code word : Nat) : Nat :=
  match word % 4 with
  | 0 => 0
  | 1 => bitsAt word 8 8
  | 2 => negTop code
  | _ => bitsAt word 32 32 % 2 ^ elemBits code

/-- A GROUT word without reserved bits, and KIND 1 only for INT8 (R173). -/
def groutLegal (code word : Nat) : Bool :=
  bitsAt word 2 6 == 0 && bitsAt word 16 16 == 0 && (word % 4 != 1 || code == 0)

/-! ### Course-pack (R181 to R184) -/

/-- Packs 32 BF16 encodings into 32 E4M3 bytes and a scale byte (R181, R182). -/
def coursePack (xs : List Nat) : List Byte :=
  let p := convertRun 1 (xs.map fun w => elemNum 6 none w) (xs.map fun _ => none) false
  (p.1 ++ [p.2]).map (BitVec.ofNat 8)

/-- Decodes a 33-byte course-pack block to 64 bytes of BF16 (R184). The sign of a zero is the model's choice (assumption log
111): a BF16 −0 packs to 0x00, and an element byte 0x80 decodes to +0. -/
def courseUnpack (l : List Byte) : List Byte :=
  let sc := (l.getD 32 0).toNat
  (l.take 32).flatMap fun b =>
    let w := encodeNum 6 (elemNum 1 (some sc) b.toNat) none false
    [BitVec.ofNat 8 w, BitVec.ofNat 8 (w / 256)]

end Sys2Proof.Machine
end

