-- ==== Sys2Proof/Machine/FMap.lean ====
section
/-! DEFINITION. Sparse maps as plain data: a list of (key, value) pairs, keys strictly rising, no entry equal to
what an unlisted key reads as. Every memory, register file and table of the state is one of these, and every
write goes through `FMap.setRange`. -/

namespace Sys2Proof.Machine

/-- A sparse map: the listed entries; what an unlisted key reads as is the reader's argument. -/
abbrev FMap (α : Type) := List (Nat × α)

/-- The value at key `k`; `d k` where nothing is listed. -/
def FMap.get {α : Type} (d : Nat → α) : FMap α → Nat → α
  | [], k => d k
  | (j, v) :: t, k => if k = j then v else FMap.get d t k

/-- Writes `f i` at key `lo + i` for every `i < n`, keeping the canonical form. -/
def FMap.setRange {α : Type} [DecidableEq α] (d : Nat → α) (m : FMap α) (lo n : Nat) (f : Nat → α) : FMap α :=
  m.filter (fun e => decide (e.1 < lo)) ++
  ((List.range n).filterMap fun i => if f i = d (lo + i) then none else some (lo + i, f i)) ++
  m.filter (fun e => decide (lo + n ≤ e.1))

/-- Writes `v` at key `k`. -/
def FMap.set {α : Type} [DecidableEq α] (d : Nat → α) (m : FMap α) (k : Nat) (v : α) : FMap α :=
  FMap.setRange d m k 1 (fun _ => v)

/-- Applies `f` to every listed value, keeping the canonical form; `f` must keep the default of each key. -/
def FMap.mapV {α : Type} [DecidableEq α] (d : Nat → α) (m : FMap α) (f : α → α) : FMap α :=
  m.filterMap fun e => if f e.2 = d e.1 then none else some (e.1, f e.2)

/-- Canonical form: keys strictly rising and no entry equal to the default. -/
def FMap.wf {α : Type} [DecidableEq α] (d : Nat → α) (m : FMap α) : Bool :=
  decide (m.Pairwise fun a b => a.1 < b.1) && m.all fun e => !decide (e.2 = d e.1)

/-- What an unlisted byte of every memory reads as: zero (assumption log 4). -/
def zeroByte : Nat → Byte := fun _ => 0

/-- The byte of memory `m` at address `a`. -/
def Mem.byte (m : FMap Byte) (a : Nat) : Byte := m.get zeroByte a

/-- `n` bytes of memory `m` from address `a`. -/
def Mem.bytes (m : FMap Byte) (a n : Nat) : List Byte := (List.range n).map fun i => Mem.byte m (a + i)

/-- The little-endian value of `n` bytes from address `a` (R23). -/
def Mem.leNat (m : FMap Byte) (a : Nat) : Nat → Nat
  | 0 => 0
  | n + 1 => (Mem.byte m a).toNat + 256 * Mem.leNat m (a + 1) n

/-- Writes the bytes `f 0, …, f (n − 1)` from address `a`. -/
def Mem.writeFn (m : FMap Byte) (a n : Nat) (f : Nat → Byte) : FMap Byte := m.setRange zeroByte a n f

/-- Byte `i` of the little-endian value `v` (R23). -/
def leByte (v i : Nat) : Byte := BitVec.ofNat 8 (v / 256 ^ i)

/-- Writes the `n`-byte little-endian value `v` at address `a` (R23). -/
def Mem.writeLe (m : FMap Byte) (a n v : Nat) : FMap Byte := Mem.writeFn m a n (leByte v)

/-- Byte `i` of a list; zero past its end. -/
def listByte (l : List Byte) (i : Nat) : Byte := l.getD i 0

/-- Writes a list of bytes from address `a`. -/
def Mem.writeList (m : FMap Byte) (a : Nat) (l : List Byte) : FMap Byte := Mem.writeFn m a l.length (listByte l)

/-- The bit of memory `m` at bit address `b`, bit 0 of a byte first (R150). -/
def Mem.bit (m : FMap Byte) (b : Nat) : Bool := (Mem.byte m (b / 8)).getLsbD (b % 8)

/-- The `w`-bit value at bit address `b` (R150: sub-byte elements from bit 0 in ascending order). -/
def Mem.bitsNat (m : FMap Byte) (b : Nat) : Nat → Nat
  | 0 => 0
  | w + 1 => b2n (Mem.bit m b) + 2 * Mem.bitsNat m (b + 1) w

/-- Writes `n` bits from bit address `b`, bit `i` being `f i`; every other bit of the bytes concerned stays
(R591). -/
def Mem.writeBits (m : FMap Byte) (b n : Nat) (f : Nat → Bool) : FMap Byte :=
  let lo := b / 8
  let cnt := if n = 0 then 0 else (b + n - 1) / 8 + 1 - lo
  Mem.writeFn m lo cnt fun i =>
    let old := Mem.byte m (lo + i)
    BitVec.ofNat 8 ((List.range 8).foldl (fun acc j =>
      let p := (lo + i) * 8 + j
      let v := if b ≤ p && decide (p < b + n) then f (p - b) else old.getLsbD j
      acc + b2n v * 2 ^ j) 0)

/-- The memory's canonical form (its addresses strictly rising, no zero byte listed). -/
def Mem.wf (m : FMap Byte) : Bool := m.wf zeroByte

/-- The value of a list of bytes, little-endian (R23). -/
def leOfList : List Byte → Nat
  | [] => 0
  | b :: t => b.toNat + 256 * leOfList t

/-- The `n` bytes of the little-endian value `v`. -/
def leList (v n : Nat) : List Byte := (List.range n).map (leByte v)

end Sys2Proof.Machine
end

