-- ==== Sys2Proof/Machine/RegMap.lean ====
section
/-! DEFINITION. The register map of BAR0: one row for each register of R66 to R584, with its offset, the
repetition of the offset, whether the configuration seal covers it (R119), and its fields with access type
(R85), reset value and reserved encodings (R14). `RegMap.resetOf` is what the map says of a register after cold
reset. `own` marks a field whose write has a row of its own in the command table. -/

namespace Sys2Proof.Machine

/-- The access types of R85. -/
inductive Access where
  | rw | ro | w1c | wm | k | b | p | mb
deriving DecidableEq, Repr

/-- A field of a register: NAME[lsb + width − 1 : lsb], access type, reset value, the reserved encodings as
closed ranges (R14), and whether its write has a row of its own. -/
structure FieldDef where
  name  : String
  lsb   : Nat
  width : Nat
  ty    : Access
  rst   : Nat
  rsv   : List (Nat × Nat)
  own   : Bool
deriving DecidableEq, Repr

/-- A register or a family of registers at `base` plus multiples of the strides of `dims` (stride, count),
largest stride first. -/
structure RegDef where
  name   : String
  base   : Nat
  dims   : List (Nat × Nat)
  isSeal : Bool
  fields : List FieldDef
deriving DecidableEq, Repr

/-- Whether the distance `d` from the base is a sum of in-range multiples of the strides. -/
def RegDef.hitDims : List (Nat × Nat) → Nat → Bool
  | [], d => d == 0
  | (st, n) :: t, d => decide (d / st < n) && RegDef.hitDims t (d % st)

/-- Whether the row describes the register at BAR0 offset `off`. -/
def RegDef.hit (r : RegDef) (off : Nat) : Bool := decide (r.base ≤ off) && RegDef.hitDims r.dims (off - r.base)

/-- The offsets a row covers, in ascending order. -/
def RegDef.offsets (r : RegDef) : List Nat :=
  r.dims.foldl (fun acc d => acc.flatMap fun o => (List.range d.2).map fun i => o + i * d.1) [r.base]

/-- The register's value made of its fields' reset values. -/
def RegDef.resetVal (r : RegDef) : W32 :=
  BitVec.ofNat 32 (r.fields.foldl (fun acc f => acc + f.rst % 2 ^ f.width * 2 ^ f.lsb) 0)

/-- A field value that R14 calls reserved. -/
def FieldDef.isRsv (f : FieldDef) (v : Nat) : Bool := f.rsv.any fun p => decide (p.1 ≤ v) && decide (v ≤ p.2)

/-- The register rows Id, part 0, from R111, R112, R113, R133, R144, R145, R146, R98, R99. -/
def RegMap.regsId0 : List RegDef :=
  [⟨"IDENTITY", 0x0, [], false,
    [⟨"PART", 0, 16, .ro, 0x9400, [], false⟩,
     ⟨"STEPPING", 16, 8, .ro, 0xB0, [], false⟩]⟩,
   ⟨"ID_SEL", 0x10, [], false,
    [⟨"SEL", 0, 8, .rw, 0, [], true⟩]⟩,
   ⟨"ID_STATUS", 0x14, [], false,
    [⟨"VALID", 0, 1, .ro, 0, [], false⟩,
     ⟨"SEL_ERR", 1, 1, .ro, 0, [], false⟩,
     ⟨"WORDS", 8, 4, .ro, 0, [], false⟩]⟩,
   ⟨"ID_DATA", 0x18, [(0x4, 8)], false,
    [⟨"DATA", 0, 32, .mb, 0, [], false⟩]⟩,
   ⟨"DOMAIN_BUSY", 0x80, [], false,
    [⟨"HK", 0, 1, .ro, 0, [], false⟩,
     ⟨"TS", 1, 1, .ro, 0, [], false⟩,
     ⟨"AON", 2, 1, .ro, 0, [], false⟩,
     ⟨"LORLINK_PHY", 3, 1, .ro, 0, [], false⟩,
     ⟨"HBM_PHY", 4, 1, .ro, 0, [], false⟩,
     ⟨"HOST_PHY", 5, 1, .ro, 0, [], false⟩]⟩,
   ⟨"DOMAIN_DROP", 0x84, [], false,
    [⟨"HK", 0, 1, .w1c, 0, [], false⟩,
     ⟨"TS", 1, 1, .w1c, 0, [], false⟩,
     ⟨"AON", 2, 1, .w1c, 0, [], false⟩,
     ⟨"LORLINK_PHY", 3, 1, .w1c, 0, [], false⟩,
     ⟨"HBM_PHY", 4, 1, .w1c, 0, [], false⟩,
     ⟨"HOST_PHY", 5, 1, .w1c, 0, [], false⟩]⟩,
   ⟨"ACCESS_ERR", 0x88, [], false,
    [⟨"PARTIAL", 0, 1, .w1c, 0, [], false⟩]⟩,
   ⟨"LOCK_KEY", 0x100, [], false,
    [⟨"KEY", 0, 16, .rw, 0, [], true⟩]⟩,
   ⟨"LOCK_STATUS", 0x104, [], false,
    [⟨"OPEN", 0, 1, .ro, 0, [], false⟩,
     ⟨"OPENER", 1, 1, .ro, 0, [], false⟩,
     ⟨"MISS_SEEN", 2, 1, .w1c, 0, [], false⟩,
     ⟨"BAD_KEY_SEEN", 3, 1, .w1c, 0, [], false⟩,
     ⟨"KEY_MISS", 8, 8, .ro, 0, [], false⟩]⟩,
   ⟨"SEAL_CTRL", 0x200, [], false,
    [⟨"HOLD", 0, 1, .k, 0, [], false⟩,
     ⟨"COMMIT", 1, 1, .k, 0, [], true⟩,
     ⟨"FAULT_ACTION", 2, 1, .k, 1, [], false⟩,
     ⟨"ARMED", 3, 1, .ro, 0, [], false⟩]⟩,
   ⟨"SEAL_REF", 0x204, [], false,
    [⟨"REF", 0, 32, .k, 0, [], false⟩]⟩,
   ⟨"SEAL_CURRENT", 0x208, [], false,
    [⟨"CURRENT", 0, 32, .ro, 0, [], false⟩]⟩]

/-- The register rows Id, part 1, from R133, R142, R66, R67. -/
def RegMap.regsId1 : List RegDef :=
  [⟨"SEAL_STATUS", 0x20C, [], false,
    [⟨"FAULT", 0, 1, .w1c, 0, [], false⟩,
     ⟨"HOLD_EXPIRED", 1, 1, .w1c, 0, [], false⟩,
     ⟨"SEAL_COUNT", 16, 16, .ro, 0, [], false⟩]⟩,
   ⟨"KEYSTONE_CTRL", 0x1000, [], true,
    [⟨"SET", 0, 1, .k, 0, [], true⟩,
     ⟨"ERR", 4, 4, .ro, 0, [], false⟩]⟩,
   ⟨"CTX_ROOT_LO", 0x1010, [], true,
    [⟨"ADDR_LO", 12, 20, .k, 0, [], false⟩]⟩,
   ⟨"CTX_ROOT_HI", 0x1014, [], true,
    [⟨"ADDR_HI", 0, 16, .k, 0, [], false⟩]⟩,
   ⟨"PW_ROLE", 0x1040, [], true,
    [⟨"KEEPER", 0, 1, .k, 0, [], false⟩,
     ⟨"WALL_EN", 1, 1, .k, 0, [], false⟩]⟩,
   ⟨"ARB_PRIV", 0x1050, [], true,
    [⟨"MGMT_IN", 0, 2, .k, 3, [], false⟩,
     ⟨"MIRROR_IN", 2, 2, .k, 1, [], false⟩,
     ⟨"FAULT_IN", 4, 2, .k, 2, [], false⟩,
     ⟨"FLUE_IN", 6, 2, .k, 0, [], false⟩]⟩,
   ⟨"PART_CTX", 0x1100, [(0x8, 16)], true,
    [⟨"FIRST", 0, 11, .k, 0, [], false⟩,
     ⟨"LAST", 16, 11, .k, 0, [], false⟩,
     ⟨"EN", 31, 1, .k, 0, [], false⟩]⟩,
   ⟨"PART_ROOMS", 0x1104, [(0x8, 16)], true,
    [⟨"ROOM_MASK", 0, 24, .k, 0, [], false⟩,
     ⟨"MAX_INBOXES", 24, 7, .k, 0, [], false⟩]⟩,
   ⟨"PW_BASE", 0x1200, [(0x8, 8)], true,
    [⟨"BASE", 0, 27, .k, 0, [], false⟩]⟩,
   ⟨"PW_SIZE", 0x1204, [(0x8, 8)], true,
    [⟨"SIZE", 0, 18, .k, 0, [], false⟩]⟩,
   ⟨"FLOOR_REMAP", 0x4000, [(0x10, 6)], true,
    [⟨"ROOM0_PHYS", 0, 3, .k, 0, [(5, 7)], true⟩,
     ⟨"ROOM1_PHYS", 3, 3, .k, 1, [(5, 7)], true⟩,
     ⟨"ROOM2_PHYS", 6, 3, .k, 2, [(5, 7)], true⟩,
     ⟨"ROOM3_PHYS", 9, 3, .k, 3, [(5, 7)], true⟩,
     ⟨"SPARE_PHYS", 12, 3, .ro, 4, [], false⟩,
     ⟨"REMAP_REFUSED", 15, 1, .ro, 0, [], false⟩,
     ⟨"FENCED", 16, 5, .ro, 0, [], false⟩]⟩,
   ⟨"ROOM_FENCE", 0x4004, [(0x10, 6)], false,
    [⟨"FENCE_REQ", 0, 5, .k, 0, [], true⟩,
     ⟨"HW_FENCE", 8, 5, .ro, 0, [], false⟩]⟩]

/-- The register rows Id, part 2, from R76. -/
def RegMap.regsId2 : List RegDef :=
  [⟨"PKG_CAPACITY", 0x4080, [], false,
    [⟨"ENGINES", 0, 8, .ro, 0x60, [], false⟩,
     ⟨"ROOMS", 8, 5, .ro, 0x18, [], false⟩,
     ⟨"DIE0_UP", 13, 1, .ro, 1, [], false⟩,
     ⟨"DIE1_UP", 14, 1, .ro, 1, [], false⟩]⟩]

/-- The register rows Power, part 0, from R584. -/
def RegMap.regsPower0 : List RegDef :=
  [⟨"CLK_STATUS", 0x100000, [], false,
    [⟨"ROOT_LOCK", 0, 1, .ro, 0, [], false⟩,
     ⟨"LORLINK_LOCK", 1, 5, .ro, 0, [], false⟩,
     ⟨"HBM_LOCK", 6, 8, .ro, 0, [], false⟩,
     ⟨"PCIE_LOCK", 14, 1, .ro, 0, [], false⟩,
     ⟨"CXL_LOCK", 15, 2, .ro, 0, [], false⟩,
     ⟨"RATE", 17, 5, .ro, 0x10, [], false⟩,
     ⟨"STRETCH", 22, 1, .ro, 0, [], false⟩]⟩,
   ⟨"TS_LO", 0x100008, [], false,
    [⟨"TS", 0, 32, .ro, 0, [], false⟩]⟩,
   ⟨"TS_HI", 0x10000C, [], false,
    [⟨"TS", 0, 32, .ro, 0, [], false⟩]⟩,
   ⟨"PWR_CMD", 0x100010, [], false,
    [⟨"TARGET", 0, 2, .k, 0, [(3, 3)], true⟩]⟩,
   ⟨"PWR_STATUS", 0x100014, [], false,
    [⟨"STATE", 0, 2, .ro, 0, [], false⟩,
     ⟨"BUSY", 2, 1, .ro, 0, [], false⟩,
     ⟨"REFUSED", 4, 2, .ro, 0, [], false⟩,
     ⟨"DONE", 8, 1, .w1c, 0, [], false⟩,
     ⟨"DROP", 9, 1, .w1c, 0, [], false⟩]⟩,
   ⟨"PWR_CAP", 0x100018, [], false,
    [⟨"CAP", 0, 11, .b, 0x5DC, [(0, 599), (1501, 2047)], false⟩]⟩,
   ⟨"HBM_TRAIN", 0x10001C, [], false,
    [⟨"DONE", 0, 8, .ro, 0, [], false⟩,
     ⟨"FAIL", 8, 8, .ro, 0, [], false⟩]⟩,
   ⟨"SUPPLY_STATUS", 0x100020, [], false,
    [⟨"WARN_SEEN", 0, 1, .w1c, 0, [], false⟩,
     ⟨"WARN_RAIL", 1, 6, .w1c, 0, [], false⟩,
     ⟨"WARN_COUNT", 16, 16, .ro, 0, [], false⟩]⟩,
   ⟨"THERM_STATUS", 0x100024, [], false,
    [⟨"THROTTLE", 0, 1, .ro, 0, [], false⟩,
     ⟨"THROTTLE_SEEN", 1, 1, .w1c, 0, [], false⟩,
     ⟨"CAP_UNMET", 2, 1, .w1c, 0, [], false⟩,
     ⟨"PLL_LOSS", 3, 1, .w1c, 0, [], false⟩,
     ⟨"RATE_CAP", 4, 5, .ro, 0x10, [], false⟩,
     ⟨"RATE_THERM", 9, 5, .ro, 0x10, [], false⟩]⟩,
   ⟨"ROOM_PWR", 0x100040, [(0x4, 6)], false,
    [⟨"GATE", 0, 5, .wm, 0x10, [], true⟩,
     ⟨"GATED", 8, 5, .ro, 0x10, [], false⟩,
     ⟨"REFUSED", 13, 1, .ro, 0, [], false⟩]⟩,
   ⟨"RST_CTRL", 0x100080, [], false,
    [⟨"WARM", 0, 1, .k, 0, [], true⟩]⟩,
   ⟨"RST_CAUSE", 0x100084, [], false,
    [⟨"POR", 0, 1, .ro, 1, [], false⟩,
     ⟨"PIN", 1, 1, .ro, 0, [], false⟩,
     ⟨"PWR_GOOD", 2, 1, .ro, 0, [], false⟩,
     ⟨"SUPPLY", 3, 1, .ro, 0, [], false⟩,
     ⟨"CLOCK", 4, 1, .ro, 0, [], false⟩,
     ⟨"THERMTRIP", 5, 1, .ro, 0, [], false⟩,
     ⟨"WARM", 6, 1, .ro, 0, [], false⟩,
     ⟨"RAIL", 8, 3, .ro, 0, [], false⟩]⟩]

/-- The register rows Power, part 1, from R584. -/
def RegMap.regsPower1 : List RegDef :=
  [⟨"RST_CAUSE_CLR", 0x100088, [], false,
    [⟨"CLEAR", 0, 7, .p, 0, [], false⟩]⟩]

/-- The register rows Link, part 0, from R499, R500. -/
def RegMap.regsLink0 : List RegDef :=
  [⟨"PORT_CTRL", 0x200000, [(0x1000, 5)], false,
    [⟨"ENABLE", 0, 1, .rw, 1, [], true⟩,
     ⟨"RETRAIN", 1, 1, .rw, 0, [], true⟩,
     ⟨"CP_EN", 2, 1, .b, 0, [], false⟩,
     ⟨"LANE_ERR_MAX", 8, 8, .rw, 0x40, [], false⟩,
     ⟨"LOCK_ERR_MAX", 16, 8, .rw, 0x10, [], false⟩]⟩,
   ⟨"PORT_STATE", 0x200004, [(0x1000, 5)], false,
    [⟨"STATE", 0, 3, .ro, 0, [], false⟩,
     ⟨"LAST_ERR", 4, 4, .ro, 0, [], false⟩,
     ⟨"NBR", 8, 6, .ro, 0, [], false⟩,
     ⟨"BYPASSED", 14, 2, .ro, 0, [], false⟩,
     ⟨"LIVE_COUNT", 16, 16, .ro, 0, [], false⟩]⟩,
   ⟨"PORT_LANES", 0x200008, [(0x1000, 5)], false,
    [⟨"IN_SERVICE", 0, 18, .ro, 0xFFFF, [], false⟩]⟩,
   ⟨"PORT_CNT0", 0x20000C, [(0x1000, 5)], false,
    [⟨"NAKS", 0, 16, .ro, 0, [], false⟩,
     ⟨"RETRAINS", 16, 16, .ro, 0, [], false⟩]⟩,
   ⟨"PORT_CNT1", 0x200010, [(0x1000, 5)], false,
    [⟨"FEC_CORR", 0, 32, .ro, 0, [], false⟩]⟩,
   ⟨"PORT_CNT2", 0x200014, [(0x1000, 5)], false,
    [⟨"ABANDON", 0, 16, .ro, 0, [], false⟩,
     ⟨"ORPHAN", 16, 16, .ro, 0, [], false⟩]⟩,
   ⟨"ABANDON_TAG", 0x200018, [(0x1000, 5)], false,
    [⟨"STAG", 0, 32, .ro, 0, [], false⟩]⟩,
   ⟨"PORT_CNT3", 0x20001C, [(0x1000, 5)], false,
    [⟨"MISROUTE", 0, 16, .ro, 0, [], false⟩,
     ⟨"PROTO_ERR", 16, 16, .ro, 0, [], false⟩]⟩,
   ⟨"RING_CFG", 0x208000, [], true,
    [⟨"RING_SIZE", 0, 7, .k, 2, [(0, 0), (1, 1), (3, 3), (5, 5), (7, 7), (9, 9), (11, 11), (13, 13), (15, 15), (17, 17), (19, 19), (21, 21), (23, 23), (25, 25), (27, 27), (29, 29), (31, 31), (33, 33), (35, 35), (37, 37), (39, 39), (41, 41), (43, 43), (45, 45), (47, 47), (49, 49), (51, 51), (53, 53), (55, 55), (57, 57), (59, 59), (61, 61), (63, 63), (65, 127)], false⟩,
     ⟨"PKG", 8, 6, .k, 0, [], false⟩]⟩,
   ⟨"RING_CTRL", 0x208004, [], false,
    [⟨"JOIN_A", 0, 1, .rw, 0, [], true⟩,
     ⟨"JOIN_B", 1, 1, .rw, 0, [], true⟩]⟩,
   ⟨"RING_STATUS", 0x208008, [], false,
    [⟨"STATE_A", 0, 3, .ro, 0, [], false⟩,
     ⟨"STATE_B", 3, 3, .ro, 0, [], false⟩,
     ⟨"BIAS_A", 6, 1, .ro, 0, [], false⟩,
     ⟨"BIAS_B", 7, 1, .ro, 0, [], false⟩,
     ⟨"ISO_SEEN", 8, 1, .w1c, 0, [], false⟩,
     ⟨"JOIN_FAIL", 9, 1, .w1c, 0, [], false⟩]⟩,
   ⟨"JOIN_TIMEOUT", 0x20800C, [], false,
    [⟨"MS", 0, 14, .rw, 0x64, [(0, 29), (10001, 16383)], false⟩]⟩]

/-- The register rows Link, part 1, from R500, R501. -/
def RegMap.regsLink1 : List RegDef :=
  [⟨"LL_GAP", 0x208010, [], false,
    [⟨"LIMIT", 0, 14, .rw, 0x64, [(0, 0), (10001, 16383)], false⟩]⟩,
   ⟨"LL_RESP", 0x208014, [], false,
    [⟨"LIMIT", 0, 10, .rw, 1, [(0, 0), (1001, 1023)], false⟩]⟩,
   ⟨"RT_CTRL", 0x208018, [], false,
    [⟨"INV", 0, 1, .rw, 0, [], true⟩,
     ⟨"FLUSH", 1, 1, .rw, 0, [], true⟩,
     ⟨"FLUSH_DST", 8, 6, .rw, 0, [], false⟩]⟩,
   ⟨"LL_COUNTS", 0x20801C, [], false,
    [⟨"FLUSHED", 0, 16, .ro, 0, [], false⟩,
     ⟨"LATCH_DROP", 16, 16, .ro, 0, [], false⟩]⟩,
   ⟨"LATCH_IN", 0x208020, [], true,
    [⟨"FIRST", 0, 14, .rw, 0, [], false⟩,
     ⟨"LAST", 16, 14, .rw, 0, [], false⟩]⟩,
   ⟨"CP_BASE", 0x208040, [(0x8, 8)], true,
    [⟨"BASE", 0, 19, .rw, 0, [], false⟩]⟩,
   ⟨"CP_SIZE", 0x208044, [(0x8, 8)], true,
    [⟨"SIZE", 0, 19, .rw, 0, [], false⟩]⟩,
   ⟨"ROUTE", 0x209000, [(0x4, 64)], false,
    [⟨"VALID", 0, 1, .rw, 0, [], false⟩,
     ⟨"RING", 1, 1, .rw, 0, [], false⟩,
     ⟨"DIR", 2, 1, .rw, 0, [], false⟩]⟩,
   ⟨"LATCH_PROXY", 0x20A000, [(0x4, 1024)], false,
    [⟨"REMOTE", 0, 14, .rw, 0, [], false⟩,
     ⟨"PKG", 16, 6, .rw, 0, [], false⟩,
     ⟨"EN", 31, 1, .rw, 0, [], false⟩]⟩,
   ⟨"PW_CTRL", 0x20C000, [], false,
    [⟨"MODE", 0, 1, .rw, 0, [], false⟩,
     ⟨"CLOSE", 1, 1, .rw, 0, [], true⟩,
     ⟨"RESYNC", 2, 1, .rw, 0, [], true⟩,
     ⟨"TAKEOVER", 3, 1, .k, 0, [], true⟩,
     ⟨"PW_LATCH", 4, 14, .rw, 0, [], false⟩]⟩,
   ⟨"PW_STATUS", 0x20C004, [], false,
    [⟨"STATE", 0, 3, .ro, 0, [], false⟩,
     ⟨"CAUSE", 3, 2, .ro, 0, [], false⟩,
     ⟨"WALL_BREACH", 5, 1, .w1c, 0, [], false⟩,
     ⟨"KEEPER_EFF", 6, 1, .ro, 0, [], false⟩]⟩,
   ⟨"PW_EPOCH_US", 0x20C008, [], false,
    [⟨"US", 0, 17, .rw, 0x64, [(0, 9), (100001, 131071)], false⟩]⟩]

/-- The register rows Link, part 2, from R501. -/
def RegMap.regsLink2 : List RegDef :=
  [⟨"PW_GRACE", 0x20C00C, [], false,
    [⟨"MS", 0, 14, .rw, 0x32, [(0, 0), (10001, 16383)], false⟩]⟩,
   ⟨"PW_LOG_BASE_LO", 0x20C010, [], true,
    [⟨"ADDR_LO", 21, 11, .k, 0, [], false⟩]⟩,
   ⟨"PW_LOG_BASE_HI", 0x20C014, [], true,
    [⟨"ADDR_HI", 0, 16, .k, 0, [], false⟩]⟩,
   ⟨"PW_LOG_SIZE", 0x20C018, [], true,
    [⟨"SIZE", 0, 12, .k, 0, [(2049, 4095)], false⟩]⟩,
   ⟨"PW_OUT_EPOCH", 0x20C01C, [], false,
    [⟨"EPOCH", 0, 32, .ro, 1, [], false⟩]⟩,
   ⟨"PW_ACKED", 0x20C020, [], false,
    [⟨"EPOCH", 0, 32, .ro, 0, [], false⟩]⟩,
   ⟨"PW_IN_APPLIED", 0x20C024, [], false,
    [⟨"EPOCH", 0, 32, .ro, 0, [], false⟩]⟩,
   ⟨"PW_COUNTS", 0x20C028, [], false,
    [⟨"FORCED", 0, 16, .ro, 0, [], false⟩,
     ⟨"BLOCKED", 16, 16, .ro, 0, [], false⟩]⟩]

/-- The register rows Mem, part 0, from R441, R442. -/
def RegMap.regsMem0 : List RegDef :=
  [⟨"HBM_PC_REMAP", 0x400000, [(0x1000, 8)], false,
    [⟨"SP0_FOR", 0, 6, .k, 0, [], true⟩,
     ⟨"SP0_EN", 6, 1, .k, 0, [], true⟩,
     ⟨"SP1_FOR", 8, 6, .k, 0, [], true⟩,
     ⟨"SP1_EN", 14, 1, .k, 0, [], true⟩,
     ⟨"REFUSED", 15, 1, .ro, 0, [], false⟩]⟩,
   ⟨"MEM_CTRL", 0x410000, [], true,
    [⟨"EN", 0, 1, .k, 0, [], true⟩,
     ⟨"LEDGER_EN", 1, 1, .k, 0, [], false⟩,
     ⟨"FLUE_SWITCH", 2, 1, .rw, 0, [], false⟩,
     ⟨"LATE_THRESH", 4, 10, .rw, 0x40, [(0, 15)], false⟩]⟩,
   ⟨"SAVE_BASE_LO", 0x410008, [], true,
    [⟨"ADDR_LO", 21, 11, .k, 0, [], false⟩]⟩,
   ⟨"SAVE_BASE_HI", 0x41000C, [], true,
    [⟨"ADDR_HI", 0, 16, .k, 0, [], false⟩]⟩,
   ⟨"LEDGER_BASE_LO", 0x410010, [], true,
    [⟨"ADDR_LO", 21, 11, .k, 0, [], false⟩]⟩,
   ⟨"LEDGER_BASE_HI", 0x410014, [], true,
    [⟨"ADDR_HI", 0, 16, .k, 0, [], false⟩]⟩,
   ⟨"XF_BASE_LO", 0x410020, [], true,
    [⟨"ADDR_LO", 12, 20, .rw, 0, [], false⟩]⟩,
   ⟨"XF_BASE_HI", 0x410024, [], true,
    [⟨"ADDR_HI", 0, 16, .rw, 0, [], false⟩]⟩,
   ⟨"XF_SIZE", 0x410028, [], true,
    [⟨"LOG2", 0, 4, .rw, 6, [(0, 5), (13, 15)], false⟩]⟩,
   ⟨"XF_HEAD", 0x41002C, [], false,
    [⟨"HEAD", 0, 12, .rw, 0, [], false⟩]⟩,
   ⟨"XF_TAIL", 0x410030, [], false,
    [⟨"TAIL", 0, 12, .ro, 0, [], false⟩]⟩,
   ⟨"XF_RESUME", 0x410034, [], false,
    [⟨"TICKET", 0, 10, .rw, 0, [], true⟩]⟩]

/-- The register rows Mem, part 1, from R442, R443. -/
def RegMap.regsMem1 : List RegDef :=
  [⟨"XF_STATUS", 0x410038, [], false,
    [⟨"NEW", 0, 1, .w1c, 0, [], false⟩,
     ⟨"FULL", 1, 1, .ro, 0, [], false⟩,
     ⟨"BAD_RESUME", 2, 1, .w1c, 0, [], false⟩,
     ⟨"NO_TICKET", 3, 1, .ro, 0, [], false⟩,
     ⟨"PARKED", 16, 11, .ro, 0, [], false⟩]⟩,
   ⟨"INV_CTRL", 0x410040, [], false,
    [⟨"SCOPE", 0, 2, .rw, 0, [], false⟩,
     ⟨"GO", 2, 1, .rw, 0, [], true⟩,
     ⟨"CTX", 4, 11, .rw, 0, [], false⟩]⟩,
   ⟨"INV_VA_LO", 0x410044, [], false,
    [⟨"VA_LO", 0, 32, .rw, 0, [], false⟩]⟩,
   ⟨"INV_VA_HI", 0x410048, [], false,
    [⟨"VA_HI", 0, 25, .rw, 0, [], false⟩]⟩,
   ⟨"INV_COUNT", 0x41004C, [], false,
    [⟨"COUNT", 0, 32, .rw, 1, [], false⟩]⟩,
   ⟨"MEM_STATUS", 0x410050, [], false,
    [⟨"CFG_ERR", 0, 1, .w1c, 0, [], false⟩,
     ⟨"UNBACKED", 1, 1, .w1c, 0, [], false⟩,
     ⟨"WARM_LOST", 2, 1, .w1c, 0, [], false⟩,
     ⟨"INV_WR_DROP", 3, 1, .w1c, 0, [], false⟩,
     ⟨"POISON", 4, 1, .w1c, 0, [], false⟩]⟩,
   ⟨"POISON_COUNT", 0x410054, [], false,
    [⟨"COUNT", 0, 32, .ro, 0, [], false⟩]⟩,
   ⟨"FILL_COUNTS", 0x410058, [], false,
    [⟨"FILL_DROP", 0, 16, .ro, 0, [], false⟩,
     ⟨"FILL_FAIL", 16, 16, .ro, 0, [], false⟩]⟩,
   ⟨"ARB_CLASS", 0x420000, [(0x1000, 16)], false,
    [⟨"CLASS_0", 0, 2, .rw, 1, [], true⟩,
     ⟨"CLASS_1", 2, 2, .rw, 1, [], true⟩,
     ⟨"CLASS_2", 4, 2, .rw, 1, [], true⟩,
     ⟨"CLASS_3", 6, 2, .rw, 1, [], true⟩,
     ⟨"CLASS_4", 8, 2, .rw, 1, [], true⟩,
     ⟨"CLASS_5", 10, 2, .rw, 1, [], true⟩,
     ⟨"CLASS_6", 12, 2, .rw, 1, [], true⟩,
     ⟨"CLASS_7", 14, 2, .rw, 1, [], true⟩,
     ⟨"CLASS_8", 16, 2, .rw, 1, [], true⟩,
     ⟨"CLASS_9", 18, 2, .rw, 1, [], true⟩,
     ⟨"CLASS_10", 20, 2, .rw, 1, [], true⟩,
     ⟨"CLASS_11", 22, 2, .rw, 1, [], true⟩]⟩,
   ⟨"ARB_LIMIT", 0x420004, [(0x1000, 16)], false,
    [⟨"LIMIT", 0, 16, .rw, 0x400, [(0, 0)], false⟩]⟩,
   ⟨"ARB_STARVE", 0x420008, [(0x1000, 16)], false,
    [⟨"STARVE", 0, 16, .w1c, 0, [], false⟩]⟩,
   ⟨"ARB_STARVE_IE", 0x42000C, [(0x1000, 16)], false,
    [⟨"STARVE_IE", 0, 16, .rw, 0, [], false⟩]⟩]

/-- The register rows Mem, part 2, from R443. -/
def RegMap.regsMem2 : List RegDef :=
  [⟨"ARB_CNT_CLR", 0x420010, [(0x1000, 16)], false,
    [⟨"CNT_CLR", 0, 16, .rw, 0, [], true⟩]⟩,
   ⟨"ARB_EMPTY", 0x420014, [(0x1000, 16)], false,
    [⟨"EMPTY", 0, 32, .ro, 0, [], false⟩]⟩,
   ⟨"ARB_GRANTS", 0x420100, [(0x1000, 16), (0x10, 16)], false,
    [⟨"GRANTS", 0, 32, .ro, 0, [], false⟩]⟩,
   ⟨"ARB_WAITS", 0x420104, [(0x1000, 16), (0x10, 16)], false,
    [⟨"WAITS", 0, 32, .ro, 0, [], false⟩]⟩,
   ⟨"ARB_MAX_WAIT", 0x420108, [(0x1000, 16), (0x10, 16)], false,
    [⟨"MAX_WAIT", 0, 32, .ro, 0, [], false⟩]⟩]

/-- The register rows Host, part 0, from R528. -/
def RegMap.regsHost0 : List RegDef :=
  [⟨"CTX_CMD", 0x430000, [], false,
    [⟨"CTX", 0, 11, .rw, 0, [], true⟩,
     ⟨"OP", 12, 2, .rw, 0, [(3, 3)], true⟩]⟩,
   ⟨"CTX_STATUS", 0x430004, [], false,
    [⟨"BUSY", 0, 1, .ro, 0, [], false⟩,
     ⟨"DROP", 1, 1, .w1c, 0, [], false⟩,
     ⟨"CFG_REFUSED", 2, 1, .w1c, 0, [], false⟩,
     ⟨"RESULT", 4, 4, .ro, 0, [], false⟩,
     ⟨"CTX", 8, 11, .ro, 0, [], false⟩]⟩,
   ⟨"PKG_IRQ_STATUS", 0x430010, [], false,
    [⟨"EVENTS", 0, 8, .w1c, 0, [], false⟩]⟩,
   ⟨"PKG_IRQ_EN", 0x430014, [], false,
    [⟨"EN", 0, 8, .rw, 0, [], false⟩]⟩,
   ⟨"ALERT_EN", 0x430018, [], false,
    [⟨"EN", 0, 8, .rw, 0x11, [], false⟩]⟩,
   ⟨"FLUE_BASE_LO", 0x430020, [], true,
    [⟨"ADDR_LO", 12, 20, .rw, 0, [], true⟩]⟩,
   ⟨"FLUE_BASE_HI", 0x430024, [], true,
    [⟨"ADDR_HI", 0, 16, .rw, 0, [], true⟩]⟩,
   ⟨"FLUE_SIZE", 0x430028, [], true,
    [⟨"LOG2", 0, 5, .rw, 8, [(0, 7), (21, 31)], true⟩]⟩,
   ⟨"FLUE_HEAD", 0x43002C, [], false,
    [⟨"HEAD", 0, 20, .rw, 0, [], false⟩]⟩,
   ⟨"FLUE_TAIL", 0x430030, [], false,
    [⟨"TAIL", 0, 20, .ro, 0, [], false⟩]⟩,
   ⟨"FLUE_LOST", 0x430034, [], false,
    [⟨"COUNT", 0, 32, .ro, 0, [], false⟩]⟩,
   ⟨"BOOT_STATUS", 0x430040, [], false,
    [⟨"STAGE", 0, 4, .ro, 0, [], false⟩,
     ⟨"FALLBACK", 4, 1, .ro, 0, [], false⟩,
     ⟨"DIR_FALLBACK", 5, 1, .ro, 0, [], false⟩,
     ⟨"ERR", 8, 4, .ro, 0, [], false⟩]⟩]

/-- The register rows Host, part 1, from R513, R528. -/
def RegMap.regsHost1 : List RegDef :=
  [⟨"LATCH_SEL", 0x430050, [], false,
    [⟨"LATCH", 0, 14, .rw, 0, [], false⟩]⟩,
   ⟨"LATCH_VAL", 0x430054, [], false,
    [⟨"VALUE", 0, 32, .rw, 0, [], true⟩]⟩,
   ⟨"VF_APT_BASE", 0x431000, [(0x8, 256)], true,
    [⟨"BASE", 0, 27, .k, 0, [], true⟩]⟩,
   ⟨"VF_APT_SIZE", 0x431004, [(0x8, 256)], true,
    [⟨"SIZE", 0, 12, .k, 0, [(2049, 4095)], true⟩]⟩,
   ⟨"MSIX_ADDR_LO", 0x440000, [(0x10, 2048)], false,
    [⟨"ADDR", 2, 30, .rw, 0, [], false⟩]⟩,
   ⟨"MSIX_ADDR_HI", 0x440004, [(0x10, 2048)], false,
    [⟨"ADDR", 0, 32, .rw, 0, [], false⟩]⟩,
   ⟨"MSIX_DATA", 0x440008, [(0x10, 2048)], false,
    [⟨"DATA", 0, 32, .rw, 0, [], false⟩]⟩,
   ⟨"MSIX_CTRL", 0x44000C, [(0x10, 2048)], false,
    [⟨"MASK", 0, 1, .rw, 1, [], false⟩]⟩,
   ⟨"MSIX_PBA", 0x450000, [(0x4, 64)], false,
    [⟨"PENDING", 0, 32, .ro, 0, [], false⟩]⟩]

/-- The register rows Cellar, part 0, from R442, R531. -/
def RegMap.regsCellar0 : List RegDef :=
  [⟨"CELLAR_GAP", 0x800000, [], false,
    [⟨"LIMIT", 0, 14, .rw, 0x64, [(0, 0), (10001, 16383)], false⟩]⟩,
   ⟨"CELLAR_EVENTS", 0x800004, [], false,
    [⟨"ABANDON", 0, 16, .ro, 0, [], false⟩,
     ⟨"ORPHAN", 16, 16, .ro, 0, [], false⟩]⟩,
   ⟨"CXL_CTRL", 0x810000, [(0x1000, 2)], false,
    [⟨"ENABLE", 0, 1, .rw, 1, [], false⟩]⟩,
   ⟨"CXL_STATUS", 0x810004, [(0x1000, 2)], false,
    [⟨"LINK_UP", 0, 1, .ro, 0, [], false⟩,
     ⟨"WIDTH", 1, 2, .ro, 0, [], false⟩,
     ⟨"SPEED", 3, 2, .ro, 0, [], false⟩,
     ⟨"DEV_OK", 5, 1, .ro, 0, [], false⟩,
     ⟨"ERR", 8, 4, .ro, 0, [], false⟩]⟩,
   ⟨"CXL_SIZE", 0x810008, [(0x1000, 2)], false,
    [⟨"SIZE", 0, 14, .ro, 0, [], false⟩]⟩,
   ⟨"CXL_ERR", 0x81000C, [(0x1000, 2)], false,
    [⟨"POISON", 0, 16, .ro, 0, [], false⟩,
     ⟨"UNCORR", 16, 16, .ro, 0, [], false⟩]⟩]

/-- The register rows Room, part 0, from R225, R252, R267, R331, R68. -/
def RegMap.regsRoom0 : List RegDef :=
  [⟨"ENGINE_REMAP", 0x1000040, [(0x4000000, 2), (0x1000000, 3), (0x200000, 5)], true,
    [⟨"ENG0_PHYS", 0, 3, .k, 0, [(5, 7)], true⟩,
     ⟨"ENG1_PHYS", 3, 3, .k, 1, [(5, 7)], true⟩,
     ⟨"ENG2_PHYS", 6, 3, .k, 2, [(5, 7)], true⟩,
     ⟨"ENG3_PHYS", 9, 3, .k, 3, [(5, 7)], true⟩,
     ⟨"SPARE_PHYS", 12, 3, .ro, 4, [], false⟩,
     ⟨"REMAP_REFUSED", 15, 1, .ro, 0, [], false⟩,
     ⟨"FENCED", 16, 5, .ro, 0, [], false⟩]⟩,
   ⟨"ENGINE_FENCE", 0x1000044, [(0x4000000, 2), (0x1000000, 3), (0x200000, 5)], false,
    [⟨"FENCE_REQ", 0, 5, .k, 0, [], true⟩,
     ⟨"HW_FENCE", 8, 5, .ro, 0, [], false⟩]⟩,
   ⟨"ACC_SLOT", 0x1010000, [(0x4000000, 2), (0x1000000, 3), (0x200000, 5), (0x100, 5), (0x4, 4)], false,
    [⟨"OWNER", 0, 11, .ro, 0, [], false⟩,
     ⟨"STATE", 12, 2, .ro, 0, [], false⟩,
     ⟨"ANCHOR", 16, 10, .ro, 0x2D4, [], false⟩,
     ⟨"RAISES", 26, 4, .ro, 0, [], false⟩]⟩,
   ⟨"MASON_DROP", 0x1012000, [(0x4000000, 2), (0x1000000, 3), (0x200000, 5), (0x20, 5), (0x4, 4)], false,
    [⟨"CTX", 0, 11, .ro, 0, [], false⟩,
     ⟨"COUNT", 12, 20, .ro, 0, [], false⟩]⟩,
   ⟨"MASON_PMISS", 0x1012010, [(0x4000000, 2), (0x1000000, 3), (0x200000, 5), (0x20, 5)], false,
    [⟨"COUNT", 0, 32, .ro, 0, [], false⟩]⟩,
   ⟨"MASON_DROP_FW", 0x1012014, [(0x4000000, 2), (0x1000000, 3), (0x200000, 5), (0x20, 5)], false,
    [⟨"CTX", 0, 11, .ro, 0, [], false⟩,
     ⟨"FWCTX", 11, 1, .ro, 0, [], false⟩,
     ⟨"COUNT", 12, 20, .ro, 0, [], false⟩]⟩,
   ⟨"PRED_THRESH", 0x1012100, [(0x4000000, 2), (0x1000000, 3), (0x200000, 5)], false,
    [⟨"THRESH", 0, 32, .rw, 0x3C23D70A, [], false⟩]⟩,
   ⟨"PRED_MISS", 0x1012110, [(0x4000000, 2), (0x1000000, 3), (0x200000, 5), (0x4, 5)], false,
    [⟨"COUNT", 0, 32, .ro, 0, [], false⟩]⟩,
   ⟨"PRED_ROWS", 0x1012130, [(0x4000000, 2), (0x1000000, 3), (0x200000, 5), (0x4, 5)], false,
    [⟨"COUNT", 0, 32, .ro, 0, [], false⟩]⟩,
   ⟨"BRK_CTRL", 0x1013000, [(0x4000000, 2), (0x1000000, 3), (0x200000, 5)], false,
    [⟨"MODE", 0, 2, .rw, 0, [], true⟩,
     ⟨"RESUME", 2, 1, .rw, 0, [], true⟩]⟩,
   ⟨"BRK_COUNT", 0x1013004, [(0x4000000, 2), (0x1000000, 3), (0x200000, 5)], false,
    [⟨"COUNT", 0, 32, .rw, 0, [], false⟩]⟩,
   ⟨"BRK_TAG", 0x1013008, [(0x4000000, 2), (0x1000000, 3), (0x200000, 5)], false,
    [⟨"TAG", 0, 32, .rw, 0, [], false⟩]⟩]

/-- The register rows Room, part 1, from R331, R332, R333, R381. -/
def RegMap.regsRoom1 : List RegDef :=
  [⟨"BRK_STATUS", 0x101300C, [(0x4000000, 2), (0x1000000, 3), (0x200000, 5)], false,
    [⟨"HIT", 0, 1, .w1c, 0, [], false⟩,
     ⟨"HALTED", 1, 1, .ro, 0, [], false⟩,
     ⟨"DISPATCHED", 8, 24, .ro, 0, [], false⟩]⟩,
   ⟨"INBOX", 0x1013100, [(0x4000000, 2), (0x1000000, 3), (0x200000, 5), (0x4, 4)], false,
    [⟨"CTX", 0, 11, .ro, 0, [], false⟩,
     ⟨"BOUND", 11, 1, .ro, 0, [], false⟩,
     ⟨"DEPTH", 12, 7, .ro, 0, [], false⟩]⟩,
   ⟨"FW_DESC", 0x1013200, [(0x4000000, 2), (0x1000000, 3), (0x200000, 5), (0x4, 64)], false,
    [⟨"DATA", 0, 32, .rw, 0, [], false⟩]⟩,
   ⟨"FW_CTRL", 0x1013300, [(0x4000000, 2), (0x1000000, 3), (0x200000, 5)], false,
    [⟨"GO", 0, 1, .rw, 0, [], true⟩,
     ⟨"CTX_EN", 1, 1, .rw, 0, [], false⟩,
     ⟨"CTX", 4, 11, .rw, 0, [], false⟩]⟩,
   ⟨"FW_STATUS", 0x1013304, [(0x4000000, 2), (0x1000000, 3), (0x200000, 5)], false,
    [⟨"FULL", 0, 1, .ro, 0, [], false⟩,
     ⟨"DROP", 1, 1, .w1c, 0, [], false⟩,
     ⟨"REFUSED", 2, 1, .w1c, 0, [], false⟩,
     ⟨"FAULTED", 3, 1, .w1c, 0, [], false⟩,
     ⟨"DEPTH", 8, 5, .ro, 0, [], false⟩]⟩,
   ⟨"FW_FAULT", 0x1013340, [(0x4000000, 2), (0x1000000, 3), (0x200000, 5), (0x4, 16)], false,
    [⟨"DATA", 0, 32, .ro, 0, [], false⟩]⟩,
   ⟨"CC_ROLE", 0x1014000, [(0x4000000, 2), (0x1000000, 3), (0x200000, 5)], false,
    [⟨"MAIN", 0, 2, .ro, 0, [], false⟩,
     ⟨"CHECK", 2, 2, .ro, 1, [], false⟩,
     ⟨"SPARE", 4, 2, .ro, 2, [], false⟩,
     ⟨"UNVERIFIED", 8, 1, .ro, 0, [], false⟩,
     ⟨"JOINING", 9, 1, .ro, 0, [], false⟩]⟩,
   ⟨"LS_STATUS", 0x1014004, [(0x4000000, 2), (0x1000000, 3), (0x200000, 5)], false,
    [⟨"MISMATCH", 0, 1, .w1c, 0, [], false⟩,
     ⟨"RAIL_FAULT", 1, 1, .w1c, 0, [], false⟩,
     ⟨"DREG_PARITY", 2, 1, .w1c, 0, [], false⟩,
     ⟨"INJECT_FAIL", 3, 1, .w1c, 0, [], false⟩,
     ⟨"SWAP_REFUSED", 4, 1, .w1c, 0, [], false⟩,
     ⟨"SWAP_DONE", 5, 1, .w1c, 0, [], false⟩]⟩,
   ⟨"LS_CTRL", 0x1014008, [(0x4000000, 2), (0x1000000, 3), (0x200000, 5)], false,
    [⟨"SWAP_REQ", 0, 1, .k, 0, [], true⟩,
     ⟨"SWAP_OUT", 1, 1, .k, 0, [], true⟩]⟩,
   ⟨"LS_UNVER_LO", 0x101400C, [(0x4000000, 2), (0x1000000, 3), (0x200000, 5)], false,
    [⟨"TS", 0, 32, .ro, 0, [], false⟩]⟩,
   ⟨"LS_UNVER_HI", 0x1014010, [(0x4000000, 2), (0x1000000, 3), (0x200000, 5)], false,
    [⟨"TS", 0, 32, .ro, 0, [], false⟩]⟩,
   ⟨"LS_INJECT_LAST", 0x1014014, [(0x4000000, 2), (0x1000000, 3), (0x200000, 5)], false,
    [⟨"TS", 0, 32, .ro, 0, [], false⟩]⟩]

/-- The register rows Room, part 2, from R381, R444. -/
def RegMap.regsRoom2 : List RegDef :=
  [⟨"LS_UNVER_DISPATCH", 0x1014018, [(0x4000000, 2), (0x1000000, 3), (0x200000, 5)], false,
    [⟨"COUNT", 0, 32, .ro, 0, [], false⟩]⟩,
   ⟨"RS_CTRL", 0x1014020, [(0x4000000, 2), (0x1000000, 3), (0x200000, 5)], false,
    [⟨"ACTIVE", 0, 1, .ro, 0, [], false⟩,
     ⟨"SWAP", 1, 1, .rw, 0, [], true⟩,
     ⟨"DRAINING", 2, 1, .ro, 0, [], false⟩,
     ⟨"CRC_ERR", 3, 1, .w1c, 0, [], false⟩,
     ⟨"SWAP_REFUSED", 4, 1, .w1c, 0, [], false⟩,
     ⟨"WRITE_DROP", 5, 1, .w1c, 0, [], false⟩]⟩,
   ⟨"RS_CRC", 0x1014024, [(0x4000000, 2), (0x1000000, 3), (0x200000, 5)], false,
    [⟨"CRC", 0, 32, .rw, 0, [], false⟩]⟩,
   ⟨"ROUTINE_LIMIT", 0x1014028, [(0x4000000, 2), (0x1000000, 3), (0x200000, 5)], false,
    [⟨"LIMIT", 0, 24, .rw, 0, [], false⟩]⟩,
   ⟨"WRONG_PATH_BYTES", 0x1014030, [(0x4000000, 2), (0x1000000, 3), (0x200000, 5)], false,
    [⟨"COUNT", 0, 32, .ro, 0, [], false⟩]⟩,
   ⟨"ENG_SCHED", 0x1015000, [(0x4000000, 2), (0x1000000, 3), (0x200000, 5), (0x10, 5)], false,
    [⟨"PREEMPT", 0, 1, .rw, 0, [], true⟩,
     ⟨"QUANTUM", 4, 12, .rw, 0x64, [], false⟩,
     ⟨"ACTIVE_CTX", 16, 11, .ro, 0, [], false⟩,
     ⟨"ACTIVE_VALID", 27, 1, .ro, 0, [], false⟩]⟩,
   ⟨"TASK_SLOT", 0x1015100, [(0x4000000, 2), (0x1000000, 3), (0x200000, 5), (0x10, 5), (0x4, 4)], false,
    [⟨"CTX", 0, 11, .ro, 0, [], false⟩,
     ⟨"STATE", 12, 3, .ro, 0, [], false⟩,
     ⟨"SAVED", 15, 1, .ro, 0, [], false⟩]⟩]

/-- Every register row of BAR0 (R143). -/
def RegMap.rows : List RegDef :=
  RegMap.regsId0 ++ RegMap.regsId1 ++ RegMap.regsId2 ++ RegMap.regsPower0 ++ RegMap.regsPower1 ++ RegMap.regsLink0 ++ RegMap.regsLink1 ++ RegMap.regsLink2 ++ RegMap.regsMem0 ++ RegMap.regsMem1 ++ RegMap.regsMem2 ++ RegMap.regsHost0 ++ RegMap.regsHost1 ++ RegMap.regsCellar0 ++ RegMap.regsRoom0 ++ RegMap.regsRoom1 ++ RegMap.regsRoom2

/-- The row of the register at BAR0 offset `off`; none for a reserved offset (R15, R143). -/
def RegMap.find (off : Nat) : Option RegDef := RegMap.rows.find? (·.hit off)

/-- Registers that exist once for each requester hold the management core's copy at this distance (R118, R301). -/
def bankStride : Nat := 2 ^ 32

/-- The reset value of the register at a key: a BAR0 offset, or an offset plus `bankStride`. -/
def RegMap.resetOf (key : Nat) : W32 :=
  match RegMap.find (key % bankStride) with
  | some r => r.resetVal
  | none => 0

/-- A named field: register key, least significant bit, width. -/
structure Fld where
  off   : Nat
  lsb   : Nat
  width : Nat
deriving DecidableEq, Repr

/-- BAR0 offset of the window of physical room r = die × 15 + floor × 5 + room (R143, R65). -/
def roomBase (r : Nat) : Nat := 0x1000000 + r / 15 * 0x4000000 + r % 15 / 5 * 0x1000000 + r % 5 * 0x200000

/-- Offset of IDENTITY (R145). -/
def Off.IDENTITY : Nat := 0x0
/-- IDENTITY.PART[15:0] (R145). -/
def F.IDENTITY.PART : Fld := ⟨Off.IDENTITY, 0, 16⟩
/-- IDENTITY.STEPPING[23:16] (R145). -/
def F.IDENTITY.STEPPING : Fld := ⟨Off.IDENTITY, 16, 8⟩
/-- Offset of ID_SEL (R146). -/
def Off.ID_SEL : Nat := 0x10
/-- ID_SEL.SEL[7:0] (R146). -/
def F.ID_SEL.SEL : Fld := ⟨Off.ID_SEL, 0, 8⟩
/-- Offset of ID_STATUS (R146). -/
def Off.ID_STATUS : Nat := 0x14
/-- ID_STATUS.VALID[0:0] (R146). -/
def F.ID_STATUS.VALID : Fld := ⟨Off.ID_STATUS, 0, 1⟩
/-- ID_STATUS.SEL_ERR[1:1] (R146). -/
def F.ID_STATUS.SEL_ERR : Fld := ⟨Off.ID_STATUS, 1, 1⟩
/-- ID_STATUS.WORDS[11:8] (R146). -/
def F.ID_STATUS.WORDS : Fld := ⟨Off.ID_STATUS, 8, 4⟩
/-- Offset of ID_DATA (R144). -/
def Off.ID_DATA (i : Nat) : Nat := 0x18 + i * 0x4
/-- ID_DATA.DATA[31:0] (R144). -/
def F.ID_DATA.DATA (i : Nat) : Fld := ⟨Off.ID_DATA i, 0, 32⟩
/-- Offset of DOMAIN_BUSY (R111). -/
def Off.DOMAIN_BUSY : Nat := 0x80
/-- DOMAIN_BUSY.HK[0:0] (R111). -/
def F.DOMAIN_BUSY.HK : Fld := ⟨Off.DOMAIN_BUSY, 0, 1⟩
/-- DOMAIN_BUSY.TS[1:1] (R111). -/
def F.DOMAIN_BUSY.TS : Fld := ⟨Off.DOMAIN_BUSY, 1, 1⟩
/-- DOMAIN_BUSY.AON[2:2] (R111). -/
def F.DOMAIN_BUSY.AON : Fld := ⟨Off.DOMAIN_BUSY, 2, 1⟩
/-- DOMAIN_BUSY.LORLINK_PHY[3:3] (R111). -/
def F.DOMAIN_BUSY.LORLINK_PHY : Fld := ⟨Off.DOMAIN_BUSY, 3, 1⟩
/-- DOMAIN_BUSY.HBM_PHY[4:4] (R111). -/
def F.DOMAIN_BUSY.HBM_PHY : Fld := ⟨Off.DOMAIN_BUSY, 4, 1⟩
/-- DOMAIN_BUSY.HOST_PHY[5:5] (R111). -/
def F.DOMAIN_BUSY.HOST_PHY : Fld := ⟨Off.DOMAIN_BUSY, 5, 1⟩
/-- Offset of DOMAIN_DROP (R112). -/
def Off.DOMAIN_DROP : Nat := 0x84
/-- DOMAIN_DROP.HK[0:0] (R112). -/
def F.DOMAIN_DROP.HK : Fld := ⟨Off.DOMAIN_DROP, 0, 1⟩
/-- DOMAIN_DROP.TS[1:1] (R112). -/
def F.DOMAIN_DROP.TS : Fld := ⟨Off.DOMAIN_DROP, 1, 1⟩
/-- DOMAIN_DROP.AON[2:2] (R112). -/
def F.DOMAIN_DROP.AON : Fld := ⟨Off.DOMAIN_DROP, 2, 1⟩
/-- DOMAIN_DROP.LORLINK_PHY[3:3] (R112). -/
def F.DOMAIN_DROP.LORLINK_PHY : Fld := ⟨Off.DOMAIN_DROP, 3, 1⟩
/-- DOMAIN_DROP.HBM_PHY[4:4] (R112). -/
def F.DOMAIN_DROP.HBM_PHY : Fld := ⟨Off.DOMAIN_DROP, 4, 1⟩
/-- DOMAIN_DROP.HOST_PHY[5:5] (R112). -/
def F.DOMAIN_DROP.HOST_PHY : Fld := ⟨Off.DOMAIN_DROP, 5, 1⟩
/-- Offset of ACCESS_ERR (R113). -/
def Off.ACCESS_ERR : Nat := 0x88
/-- ACCESS_ERR.PARTIAL[0:0] (R113). -/
def F.ACCESS_ERR.PARTIAL : Fld := ⟨Off.ACCESS_ERR, 0, 1⟩
/-- Offset of LOCK_KEY (R98). -/
def Off.LOCK_KEY : Nat := 0x100
/-- LOCK_KEY.KEY[15:0] (R98). -/
def F.LOCK_KEY.KEY : Fld := ⟨Off.LOCK_KEY, 0, 16⟩
/-- Offset of LOCK_STATUS (R99). -/
def Off.LOCK_STATUS : Nat := 0x104
/-- LOCK_STATUS.OPEN[0:0] (R99). -/
def F.LOCK_STATUS.OPEN : Fld := ⟨Off.LOCK_STATUS, 0, 1⟩
/-- LOCK_STATUS.OPENER[1:1] (R99). -/
def F.LOCK_STATUS.OPENER : Fld := ⟨Off.LOCK_STATUS, 1, 1⟩
/-- LOCK_STATUS.MISS_SEEN[2:2] (R99). -/
def F.LOCK_STATUS.MISS_SEEN : Fld := ⟨Off.LOCK_STATUS, 2, 1⟩
/-- LOCK_STATUS.BAD_KEY_SEEN[3:3] (R99). -/
def F.LOCK_STATUS.BAD_KEY_SEEN : Fld := ⟨Off.LOCK_STATUS, 3, 1⟩
/-- LOCK_STATUS.KEY_MISS[15:8] (R99). -/
def F.LOCK_STATUS.KEY_MISS : Fld := ⟨Off.LOCK_STATUS, 8, 8⟩
/-- Offset of SEAL_CTRL (R133). -/
def Off.SEAL_CTRL : Nat := 0x200
/-- SEAL_CTRL.HOLD[0:0] (R133). -/
def F.SEAL_CTRL.HOLD : Fld := ⟨Off.SEAL_CTRL, 0, 1⟩
/-- SEAL_CTRL.COMMIT[1:1] (R133). -/
def F.SEAL_CTRL.COMMIT : Fld := ⟨Off.SEAL_CTRL, 1, 1⟩
/-- SEAL_CTRL.FAULT_ACTION[2:2] (R133). -/
def F.SEAL_CTRL.FAULT_ACTION : Fld := ⟨Off.SEAL_CTRL, 2, 1⟩
/-- SEAL_CTRL.ARMED[3:3] (R133). -/
def F.SEAL_CTRL.ARMED : Fld := ⟨Off.SEAL_CTRL, 3, 1⟩
/-- Offset of SEAL_REF (R133). -/
def Off.SEAL_REF : Nat := 0x204
/-- SEAL_REF.REF[31:0] (R133). -/
def F.SEAL_REF.REF : Fld := ⟨Off.SEAL_REF, 0, 32⟩
/-- Offset of SEAL_CURRENT (R133). -/
def Off.SEAL_CURRENT : Nat := 0x208
/-- SEAL_CURRENT.CURRENT[31:0] (R133). -/
def F.SEAL_CURRENT.CURRENT : Fld := ⟨Off.SEAL_CURRENT, 0, 32⟩
/-- Offset of SEAL_STATUS (R133). -/
def Off.SEAL_STATUS : Nat := 0x20C
/-- SEAL_STATUS.FAULT[0:0] (R133). -/
def F.SEAL_STATUS.FAULT : Fld := ⟨Off.SEAL_STATUS, 0, 1⟩
/-- SEAL_STATUS.HOLD_EXPIRED[1:1] (R133). -/
def F.SEAL_STATUS.HOLD_EXPIRED : Fld := ⟨Off.SEAL_STATUS, 1, 1⟩
/-- SEAL_STATUS.SEAL_COUNT[31:16] (R133). -/
def F.SEAL_STATUS.SEAL_COUNT : Fld := ⟨Off.SEAL_STATUS, 16, 16⟩
/-- Offset of KEYSTONE_CTRL (R142). -/
def Off.KEYSTONE_CTRL : Nat := 0x1000
/-- KEYSTONE_CTRL.SET[0:0] (R142). -/
def F.KEYSTONE_CTRL.SET : Fld := ⟨Off.KEYSTONE_CTRL, 0, 1⟩
/-- KEYSTONE_CTRL.ERR[7:4] (R142). -/
def F.KEYSTONE_CTRL.ERR : Fld := ⟨Off.KEYSTONE_CTRL, 4, 4⟩
/-- Offset of CTX_ROOT_LO (R142). -/
def Off.CTX_ROOT_LO : Nat := 0x1010
/-- CTX_ROOT_LO.ADDR_LO[31:12] (R142). -/
def F.CTX_ROOT_LO.ADDR_LO : Fld := ⟨Off.CTX_ROOT_LO, 12, 20⟩
/-- Offset of CTX_ROOT_HI (R142). -/
def Off.CTX_ROOT_HI : Nat := 0x1014
/-- CTX_ROOT_HI.ADDR_HI[15:0] (R142). -/
def F.CTX_ROOT_HI.ADDR_HI : Fld := ⟨Off.CTX_ROOT_HI, 0, 16⟩
/-- Offset of PW_ROLE (R142). -/
def Off.PW_ROLE : Nat := 0x1040
/-- PW_ROLE.KEEPER[0:0] (R142). -/
def F.PW_ROLE.KEEPER : Fld := ⟨Off.PW_ROLE, 0, 1⟩
/-- PW_ROLE.WALL_EN[1:1] (R142). -/
def F.PW_ROLE.WALL_EN : Fld := ⟨Off.PW_ROLE, 1, 1⟩
/-- Offset of ARB_PRIV (R142). -/
def Off.ARB_PRIV : Nat := 0x1050
/-- ARB_PRIV.MGMT_IN[1:0] (R142). -/
def F.ARB_PRIV.MGMT_IN : Fld := ⟨Off.ARB_PRIV, 0, 2⟩
/-- ARB_PRIV.MIRROR_IN[3:2] (R142). -/
def F.ARB_PRIV.MIRROR_IN : Fld := ⟨Off.ARB_PRIV, 2, 2⟩
/-- ARB_PRIV.FAULT_IN[5:4] (R142). -/
def F.ARB_PRIV.FAULT_IN : Fld := ⟨Off.ARB_PRIV, 4, 2⟩
/-- ARB_PRIV.FLUE_IN[7:6] (R142). -/
def F.ARB_PRIV.FLUE_IN : Fld := ⟨Off.ARB_PRIV, 6, 2⟩
/-- Offset of PART_CTX (R142). -/
def Off.PART_CTX (i : Nat) : Nat := 0x1100 + i * 0x8
/-- PART_CTX.FIRST[10:0] (R142). -/
def F.PART_CTX.FIRST (i : Nat) : Fld := ⟨Off.PART_CTX i, 0, 11⟩
/-- PART_CTX.LAST[26:16] (R142). -/
def F.PART_CTX.LAST (i : Nat) : Fld := ⟨Off.PART_CTX i, 16, 11⟩
/-- PART_CTX.EN[31:31] (R142). -/
def F.PART_CTX.EN (i : Nat) : Fld := ⟨Off.PART_CTX i, 31, 1⟩
/-- Offset of PART_ROOMS (R142). -/
def Off.PART_ROOMS (i : Nat) : Nat := 0x1104 + i * 0x8
/-- PART_ROOMS.ROOM_MASK[23:0] (R142). -/
def F.PART_ROOMS.ROOM_MASK (i : Nat) : Fld := ⟨Off.PART_ROOMS i, 0, 24⟩
/-- PART_ROOMS.MAX_INBOXES[30:24] (R142). -/
def F.PART_ROOMS.MAX_INBOXES (i : Nat) : Fld := ⟨Off.PART_ROOMS i, 24, 7⟩
/-- Offset of PW_BASE (R142). -/
def Off.PW_BASE (i : Nat) : Nat := 0x1200 + i * 0x8
/-- PW_BASE.BASE[26:0] (R142). -/
def F.PW_BASE.BASE (i : Nat) : Fld := ⟨Off.PW_BASE i, 0, 27⟩
/-- Offset of PW_SIZE (R142). -/
def Off.PW_SIZE (i : Nat) : Nat := 0x1204 + i * 0x8
/-- PW_SIZE.SIZE[17:0] (R142). -/
def F.PW_SIZE.SIZE (i : Nat) : Fld := ⟨Off.PW_SIZE i, 0, 18⟩
/-- Offset of FLOOR_REMAP (R66). -/
def Off.FLOOR_REMAP (i : Nat) : Nat := 0x4000 + i * 0x10
/-- FLOOR_REMAP.ROOM0_PHYS[2:0] (R66). -/
def F.FLOOR_REMAP.ROOM0_PHYS (i : Nat) : Fld := ⟨Off.FLOOR_REMAP i, 0, 3⟩
/-- FLOOR_REMAP.ROOM1_PHYS[5:3] (R66). -/
def F.FLOOR_REMAP.ROOM1_PHYS (i : Nat) : Fld := ⟨Off.FLOOR_REMAP i, 3, 3⟩
/-- FLOOR_REMAP.ROOM2_PHYS[8:6] (R66). -/
def F.FLOOR_REMAP.ROOM2_PHYS (i : Nat) : Fld := ⟨Off.FLOOR_REMAP i, 6, 3⟩
/-- FLOOR_REMAP.ROOM3_PHYS[11:9] (R66). -/
def F.FLOOR_REMAP.ROOM3_PHYS (i : Nat) : Fld := ⟨Off.FLOOR_REMAP i, 9, 3⟩
/-- FLOOR_REMAP.SPARE_PHYS[14:12] (R66). -/
def F.FLOOR_REMAP.SPARE_PHYS (i : Nat) : Fld := ⟨Off.FLOOR_REMAP i, 12, 3⟩
/-- FLOOR_REMAP.REMAP_REFUSED[15:15] (R66). -/
def F.FLOOR_REMAP.REMAP_REFUSED (i : Nat) : Fld := ⟨Off.FLOOR_REMAP i, 15, 1⟩
/-- FLOOR_REMAP.FENCED[20:16] (R66). -/
def F.FLOOR_REMAP.FENCED (i : Nat) : Fld := ⟨Off.FLOOR_REMAP i, 16, 5⟩
/-- Offset of ROOM_FENCE (R67). -/
def Off.ROOM_FENCE (i : Nat) : Nat := 0x4004 + i * 0x10
/-- ROOM_FENCE.FENCE_REQ[4:0] (R67). -/
def F.ROOM_FENCE.FENCE_REQ (i : Nat) : Fld := ⟨Off.ROOM_FENCE i, 0, 5⟩
/-- ROOM_FENCE.HW_FENCE[12:8] (R67). -/
def F.ROOM_FENCE.HW_FENCE (i : Nat) : Fld := ⟨Off.ROOM_FENCE i, 8, 5⟩
/-- Offset of PKG_CAPACITY (R76). -/
def Off.PKG_CAPACITY : Nat := 0x4080
/-- PKG_CAPACITY.ENGINES[7:0] (R76). -/
def F.PKG_CAPACITY.ENGINES : Fld := ⟨Off.PKG_CAPACITY, 0, 8⟩
/-- PKG_CAPACITY.ROOMS[12:8] (R76). -/
def F.PKG_CAPACITY.ROOMS : Fld := ⟨Off.PKG_CAPACITY, 8, 5⟩
/-- PKG_CAPACITY.DIE0_UP[13:13] (R76). -/
def F.PKG_CAPACITY.DIE0_UP : Fld := ⟨Off.PKG_CAPACITY, 13, 1⟩
/-- PKG_CAPACITY.DIE1_UP[14:14] (R76). -/
def F.PKG_CAPACITY.DIE1_UP : Fld := ⟨Off.PKG_CAPACITY, 14, 1⟩
/-- Offset of CLK_STATUS (R584). -/
def Off.CLK_STATUS : Nat := 0x100000
/-- CLK_STATUS.ROOT_LOCK[0:0] (R584). -/
def F.CLK_STATUS.ROOT_LOCK : Fld := ⟨Off.CLK_STATUS, 0, 1⟩
/-- CLK_STATUS.LORLINK_LOCK[5:1] (R584). -/
def F.CLK_STATUS.LORLINK_LOCK : Fld := ⟨Off.CLK_STATUS, 1, 5⟩
/-- CLK_STATUS.HBM_LOCK[13:6] (R584). -/
def F.CLK_STATUS.HBM_LOCK : Fld := ⟨Off.CLK_STATUS, 6, 8⟩
/-- CLK_STATUS.PCIE_LOCK[14:14] (R584). -/
def F.CLK_STATUS.PCIE_LOCK : Fld := ⟨Off.CLK_STATUS, 14, 1⟩
/-- CLK_STATUS.CXL_LOCK[16:15] (R584). -/
def F.CLK_STATUS.CXL_LOCK : Fld := ⟨Off.CLK_STATUS, 15, 2⟩
/-- CLK_STATUS.RATE[21:17] (R584). -/
def F.CLK_STATUS.RATE : Fld := ⟨Off.CLK_STATUS, 17, 5⟩
/-- CLK_STATUS.STRETCH[22:22] (R584). -/
def F.CLK_STATUS.STRETCH : Fld := ⟨Off.CLK_STATUS, 22, 1⟩
/-- Offset of TS_LO (R584). -/
def Off.TS_LO : Nat := 0x100008
/-- TS_LO.TS[31:0] (R584). -/
def F.TS_LO.TS : Fld := ⟨Off.TS_LO, 0, 32⟩
/-- Offset of TS_HI (R584). -/
def Off.TS_HI : Nat := 0x10000C
/-- TS_HI.TS[31:0] (R584). -/
def F.TS_HI.TS : Fld := ⟨Off.TS_HI, 0, 32⟩
/-- Offset of PWR_CMD (R584). -/
def Off.PWR_CMD : Nat := 0x100010
/-- PWR_CMD.TARGET[1:0] (R584). -/
def F.PWR_CMD.TARGET : Fld := ⟨Off.PWR_CMD, 0, 2⟩
/-- Offset of PWR_STATUS (R584). -/
def Off.PWR_STATUS : Nat := 0x100014
/-- PWR_STATUS.STATE[1:0] (R584). -/
def F.PWR_STATUS.STATE : Fld := ⟨Off.PWR_STATUS, 0, 2⟩
/-- PWR_STATUS.BUSY[2:2] (R584). -/
def F.PWR_STATUS.BUSY : Fld := ⟨Off.PWR_STATUS, 2, 1⟩
/-- PWR_STATUS.REFUSED[5:4] (R584). -/
def F.PWR_STATUS.REFUSED : Fld := ⟨Off.PWR_STATUS, 4, 2⟩
/-- PWR_STATUS.DONE[8:8] (R584). -/
def F.PWR_STATUS.DONE : Fld := ⟨Off.PWR_STATUS, 8, 1⟩
/-- PWR_STATUS.DROP[9:9] (R584). -/
def F.PWR_STATUS.DROP : Fld := ⟨Off.PWR_STATUS, 9, 1⟩
/-- Offset of PWR_CAP (R584). -/
def Off.PWR_CAP : Nat := 0x100018
/-- PWR_CAP.CAP[10:0] (R584). -/
def F.PWR_CAP.CAP : Fld := ⟨Off.PWR_CAP, 0, 11⟩
/-- Offset of HBM_TRAIN (R584). -/
def Off.HBM_TRAIN : Nat := 0x10001C
/-- HBM_TRAIN.DONE[7:0] (R584). -/
def F.HBM_TRAIN.DONE : Fld := ⟨Off.HBM_TRAIN, 0, 8⟩
/-- HBM_TRAIN.FAIL[15:8] (R584). -/
def F.HBM_TRAIN.FAIL : Fld := ⟨Off.HBM_TRAIN, 8, 8⟩
/-- Offset of SUPPLY_STATUS (R584). -/
def Off.SUPPLY_STATUS : Nat := 0x100020
/-- SUPPLY_STATUS.WARN_SEEN[0:0] (R584). -/
def F.SUPPLY_STATUS.WARN_SEEN : Fld := ⟨Off.SUPPLY_STATUS, 0, 1⟩
/-- SUPPLY_STATUS.WARN_RAIL[6:1] (R584). -/
def F.SUPPLY_STATUS.WARN_RAIL : Fld := ⟨Off.SUPPLY_STATUS, 1, 6⟩
/-- SUPPLY_STATUS.WARN_COUNT[31:16] (R584). -/
def F.SUPPLY_STATUS.WARN_COUNT : Fld := ⟨Off.SUPPLY_STATUS, 16, 16⟩
/-- Offset of THERM_STATUS (R584). -/
def Off.THERM_STATUS : Nat := 0x100024
/-- THERM_STATUS.THROTTLE[0:0] (R584). -/
def F.THERM_STATUS.THROTTLE : Fld := ⟨Off.THERM_STATUS, 0, 1⟩
/-- THERM_STATUS.THROTTLE_SEEN[1:1] (R584). -/
def F.THERM_STATUS.THROTTLE_SEEN : Fld := ⟨Off.THERM_STATUS, 1, 1⟩
/-- THERM_STATUS.CAP_UNMET[2:2] (R584). -/
def F.THERM_STATUS.CAP_UNMET : Fld := ⟨Off.THERM_STATUS, 2, 1⟩
/-- THERM_STATUS.PLL_LOSS[3:3] (R584). -/
def F.THERM_STATUS.PLL_LOSS : Fld := ⟨Off.THERM_STATUS, 3, 1⟩
/-- THERM_STATUS.RATE_CAP[8:4] (R584). -/
def F.THERM_STATUS.RATE_CAP : Fld := ⟨Off.THERM_STATUS, 4, 5⟩
/-- THERM_STATUS.RATE_THERM[13:9] (R584). -/
def F.THERM_STATUS.RATE_THERM : Fld := ⟨Off.THERM_STATUS, 9, 5⟩
/-- Offset of ROOM_PWR (R584). -/
def Off.ROOM_PWR (i : Nat) : Nat := 0x100040 + i * 0x4
/-- ROOM_PWR.GATE[4:0] (R584). -/
def F.ROOM_PWR.GATE (i : Nat) : Fld := ⟨Off.ROOM_PWR i, 0, 5⟩
/-- ROOM_PWR.GATED[12:8] (R584). -/
def F.ROOM_PWR.GATED (i : Nat) : Fld := ⟨Off.ROOM_PWR i, 8, 5⟩
/-- ROOM_PWR.REFUSED[13:13] (R584). -/
def F.ROOM_PWR.REFUSED (i : Nat) : Fld := ⟨Off.ROOM_PWR i, 13, 1⟩
/-- Offset of RST_CTRL (R584). -/
def Off.RST_CTRL : Nat := 0x100080
/-- RST_CTRL.WARM[0:0] (R584). -/
def F.RST_CTRL.WARM : Fld := ⟨Off.RST_CTRL, 0, 1⟩
/-- Offset of RST_CAUSE (R584). -/
def Off.RST_CAUSE : Nat := 0x100084
/-- RST_CAUSE.POR[0:0] (R584). -/
def F.RST_CAUSE.POR : Fld := ⟨Off.RST_CAUSE, 0, 1⟩
/-- RST_CAUSE.PIN[1:1] (R584). -/
def F.RST_CAUSE.PIN : Fld := ⟨Off.RST_CAUSE, 1, 1⟩
/-- RST_CAUSE.PWR_GOOD[2:2] (R584). -/
def F.RST_CAUSE.PWR_GOOD : Fld := ⟨Off.RST_CAUSE, 2, 1⟩
/-- RST_CAUSE.SUPPLY[3:3] (R584). -/
def F.RST_CAUSE.SUPPLY : Fld := ⟨Off.RST_CAUSE, 3, 1⟩
/-- RST_CAUSE.CLOCK[4:4] (R584). -/
def F.RST_CAUSE.CLOCK : Fld := ⟨Off.RST_CAUSE, 4, 1⟩
/-- RST_CAUSE.THERMTRIP[5:5] (R584). -/
def F.RST_CAUSE.THERMTRIP : Fld := ⟨Off.RST_CAUSE, 5, 1⟩
/-- RST_CAUSE.WARM[6:6] (R584). -/
def F.RST_CAUSE.WARM : Fld := ⟨Off.RST_CAUSE, 6, 1⟩
/-- RST_CAUSE.RAIL[10:8] (R584). -/
def F.RST_CAUSE.RAIL : Fld := ⟨Off.RST_CAUSE, 8, 3⟩
/-- Offset of RST_CAUSE_CLR (R584). -/
def Off.RST_CAUSE_CLR : Nat := 0x100088
/-- RST_CAUSE_CLR.CLEAR[6:0] (R584). -/
def F.RST_CAUSE_CLR.CLEAR : Fld := ⟨Off.RST_CAUSE_CLR, 0, 7⟩
/-- Offset of PORT_CTRL (R499). -/
def Off.PORT_CTRL (i : Nat) : Nat := 0x200000 + i * 0x1000
/-- PORT_CTRL.ENABLE[0:0] (R499). -/
def F.PORT_CTRL.ENABLE (i : Nat) : Fld := ⟨Off.PORT_CTRL i, 0, 1⟩
/-- PORT_CTRL.RETRAIN[1:1] (R499). -/
def F.PORT_CTRL.RETRAIN (i : Nat) : Fld := ⟨Off.PORT_CTRL i, 1, 1⟩
/-- PORT_CTRL.CP_EN[2:2] (R499). -/
def F.PORT_CTRL.CP_EN (i : Nat) : Fld := ⟨Off.PORT_CTRL i, 2, 1⟩
/-- PORT_CTRL.LANE_ERR_MAX[15:8] (R499). -/
def F.PORT_CTRL.LANE_ERR_MAX (i : Nat) : Fld := ⟨Off.PORT_CTRL i, 8, 8⟩
/-- PORT_CTRL.LOCK_ERR_MAX[23:16] (R499). -/
def F.PORT_CTRL.LOCK_ERR_MAX (i : Nat) : Fld := ⟨Off.PORT_CTRL i, 16, 8⟩
/-- Offset of PORT_STATE (R499). -/
def Off.PORT_STATE (i : Nat) : Nat := 0x200004 + i * 0x1000
/-- PORT_STATE.STATE[2:0] (R499). -/
def F.PORT_STATE.STATE (i : Nat) : Fld := ⟨Off.PORT_STATE i, 0, 3⟩
/-- PORT_STATE.LAST_ERR[7:4] (R499). -/
def F.PORT_STATE.LAST_ERR (i : Nat) : Fld := ⟨Off.PORT_STATE i, 4, 4⟩
/-- PORT_STATE.NBR[13:8] (R499). -/
def F.PORT_STATE.NBR (i : Nat) : Fld := ⟨Off.PORT_STATE i, 8, 6⟩
/-- PORT_STATE.BYPASSED[15:14] (R499). -/
def F.PORT_STATE.BYPASSED (i : Nat) : Fld := ⟨Off.PORT_STATE i, 14, 2⟩
/-- PORT_STATE.LIVE_COUNT[31:16] (R499). -/
def F.PORT_STATE.LIVE_COUNT (i : Nat) : Fld := ⟨Off.PORT_STATE i, 16, 16⟩
/-- Offset of PORT_LANES (R499). -/
def Off.PORT_LANES (i : Nat) : Nat := 0x200008 + i * 0x1000
/-- PORT_LANES.IN_SERVICE[17:0] (R499). -/
def F.PORT_LANES.IN_SERVICE (i : Nat) : Fld := ⟨Off.PORT_LANES i, 0, 18⟩
/-- Offset of PORT_CNT0 (R499). -/
def Off.PORT_CNT0 (i : Nat) : Nat := 0x20000C + i * 0x1000
/-- PORT_CNT0.NAKS[15:0] (R499). -/
def F.PORT_CNT0.NAKS (i : Nat) : Fld := ⟨Off.PORT_CNT0 i, 0, 16⟩
/-- PORT_CNT0.RETRAINS[31:16] (R499). -/
def F.PORT_CNT0.RETRAINS (i : Nat) : Fld := ⟨Off.PORT_CNT0 i, 16, 16⟩
/-- Offset of PORT_CNT1 (R499). -/
def Off.PORT_CNT1 (i : Nat) : Nat := 0x200010 + i * 0x1000
/-- PORT_CNT1.FEC_CORR[31:0] (R499). -/
def F.PORT_CNT1.FEC_CORR (i : Nat) : Fld := ⟨Off.PORT_CNT1 i, 0, 32⟩
/-- Offset of PORT_CNT2 (R499). -/
def Off.PORT_CNT2 (i : Nat) : Nat := 0x200014 + i * 0x1000
/-- PORT_CNT2.ABANDON[15:0] (R499). -/
def F.PORT_CNT2.ABANDON (i : Nat) : Fld := ⟨Off.PORT_CNT2 i, 0, 16⟩
/-- PORT_CNT2.ORPHAN[31:16] (R499). -/
def F.PORT_CNT2.ORPHAN (i : Nat) : Fld := ⟨Off.PORT_CNT2 i, 16, 16⟩
/-- Offset of ABANDON_TAG (R499). -/
def Off.ABANDON_TAG (i : Nat) : Nat := 0x200018 + i * 0x1000
/-- ABANDON_TAG.STAG[31:0] (R499). -/
def F.ABANDON_TAG.STAG (i : Nat) : Fld := ⟨Off.ABANDON_TAG i, 0, 32⟩
/-- Offset of PORT_CNT3 (R499). -/
def Off.PORT_CNT3 (i : Nat) : Nat := 0x20001C + i * 0x1000
/-- PORT_CNT3.MISROUTE[15:0] (R499). -/
def F.PORT_CNT3.MISROUTE (i : Nat) : Fld := ⟨Off.PORT_CNT3 i, 0, 16⟩
/-- PORT_CNT3.PROTO_ERR[31:16] (R499). -/
def F.PORT_CNT3.PROTO_ERR (i : Nat) : Fld := ⟨Off.PORT_CNT3 i, 16, 16⟩
/-- Offset of RING_CFG (R500). -/
def Off.RING_CFG : Nat := 0x208000
/-- RING_CFG.RING_SIZE[6:0] (R500). -/
def F.RING_CFG.RING_SIZE : Fld := ⟨Off.RING_CFG, 0, 7⟩
/-- RING_CFG.PKG[13:8] (R500). -/
def F.RING_CFG.PKG : Fld := ⟨Off.RING_CFG, 8, 6⟩
/-- Offset of RING_CTRL (R500). -/
def Off.RING_CTRL : Nat := 0x208004
/-- RING_CTRL.JOIN_A[0:0] (R500). -/
def F.RING_CTRL.JOIN_A : Fld := ⟨Off.RING_CTRL, 0, 1⟩
/-- RING_CTRL.JOIN_B[1:1] (R500). -/
def F.RING_CTRL.JOIN_B : Fld := ⟨Off.RING_CTRL, 1, 1⟩
/-- Offset of RING_STATUS (R500). -/
def Off.RING_STATUS : Nat := 0x208008
/-- RING_STATUS.STATE_A[2:0] (R500). -/
def F.RING_STATUS.STATE_A : Fld := ⟨Off.RING_STATUS, 0, 3⟩
/-- RING_STATUS.STATE_B[5:3] (R500). -/
def F.RING_STATUS.STATE_B : Fld := ⟨Off.RING_STATUS, 3, 3⟩
/-- RING_STATUS.BIAS_A[6:6] (R500). -/
def F.RING_STATUS.BIAS_A : Fld := ⟨Off.RING_STATUS, 6, 1⟩
/-- RING_STATUS.BIAS_B[7:7] (R500). -/
def F.RING_STATUS.BIAS_B : Fld := ⟨Off.RING_STATUS, 7, 1⟩
/-- RING_STATUS.ISO_SEEN[8:8] (R500). -/
def F.RING_STATUS.ISO_SEEN : Fld := ⟨Off.RING_STATUS, 8, 1⟩
/-- RING_STATUS.JOIN_FAIL[9:9] (R500). -/
def F.RING_STATUS.JOIN_FAIL : Fld := ⟨Off.RING_STATUS, 9, 1⟩
/-- Offset of JOIN_TIMEOUT (R500). -/
def Off.JOIN_TIMEOUT : Nat := 0x20800C
/-- JOIN_TIMEOUT.MS[13:0] (R500). -/
def F.JOIN_TIMEOUT.MS : Fld := ⟨Off.JOIN_TIMEOUT, 0, 14⟩
/-- Offset of LL_GAP (R500). -/
def Off.LL_GAP : Nat := 0x208010
/-- LL_GAP.LIMIT[13:0] (R500). -/
def F.LL_GAP.LIMIT : Fld := ⟨Off.LL_GAP, 0, 14⟩
/-- Offset of LL_RESP (R500). -/
def Off.LL_RESP : Nat := 0x208014
/-- LL_RESP.LIMIT[9:0] (R500). -/
def F.LL_RESP.LIMIT : Fld := ⟨Off.LL_RESP, 0, 10⟩
/-- Offset of RT_CTRL (R500). -/
def Off.RT_CTRL : Nat := 0x208018
/-- RT_CTRL.INV[0:0] (R500). -/
def F.RT_CTRL.INV : Fld := ⟨Off.RT_CTRL, 0, 1⟩
/-- RT_CTRL.FLUSH[1:1] (R500). -/
def F.RT_CTRL.FLUSH : Fld := ⟨Off.RT_CTRL, 1, 1⟩
/-- RT_CTRL.FLUSH_DST[13:8] (R500). -/
def F.RT_CTRL.FLUSH_DST : Fld := ⟨Off.RT_CTRL, 8, 6⟩
/-- Offset of LL_COUNTS (R500). -/
def Off.LL_COUNTS : Nat := 0x20801C
/-- LL_COUNTS.FLUSHED[15:0] (R500). -/
def F.LL_COUNTS.FLUSHED : Fld := ⟨Off.LL_COUNTS, 0, 16⟩
/-- LL_COUNTS.LATCH_DROP[31:16] (R500). -/
def F.LL_COUNTS.LATCH_DROP : Fld := ⟨Off.LL_COUNTS, 16, 16⟩
/-- Offset of LATCH_IN (R500). -/
def Off.LATCH_IN : Nat := 0x208020
/-- LATCH_IN.FIRST[13:0] (R500). -/
def F.LATCH_IN.FIRST : Fld := ⟨Off.LATCH_IN, 0, 14⟩
/-- LATCH_IN.LAST[29:16] (R500). -/
def F.LATCH_IN.LAST : Fld := ⟨Off.LATCH_IN, 16, 14⟩
/-- Offset of CP_BASE (R500). -/
def Off.CP_BASE (i : Nat) : Nat := 0x208040 + i * 0x8
/-- CP_BASE.BASE[18:0] (R500). -/
def F.CP_BASE.BASE (i : Nat) : Fld := ⟨Off.CP_BASE i, 0, 19⟩
/-- Offset of CP_SIZE (R500). -/
def Off.CP_SIZE (i : Nat) : Nat := 0x208044 + i * 0x8
/-- CP_SIZE.SIZE[18:0] (R500). -/
def F.CP_SIZE.SIZE (i : Nat) : Fld := ⟨Off.CP_SIZE i, 0, 19⟩
/-- Offset of ROUTE (R500). -/
def Off.ROUTE (i : Nat) : Nat := 0x209000 + i * 0x4
/-- ROUTE.VALID[0:0] (R500). -/
def F.ROUTE.VALID (i : Nat) : Fld := ⟨Off.ROUTE i, 0, 1⟩
/-- ROUTE.RING[1:1] (R500). -/
def F.ROUTE.RING (i : Nat) : Fld := ⟨Off.ROUTE i, 1, 1⟩
/-- ROUTE.DIR[2:2] (R500). -/
def F.ROUTE.DIR (i : Nat) : Fld := ⟨Off.ROUTE i, 2, 1⟩
/-- Offset of LATCH_PROXY (R500). -/
def Off.LATCH_PROXY (i : Nat) : Nat := 0x20A000 + i * 0x4
/-- LATCH_PROXY.REMOTE[13:0] (R500). -/
def F.LATCH_PROXY.REMOTE (i : Nat) : Fld := ⟨Off.LATCH_PROXY i, 0, 14⟩
/-- LATCH_PROXY.PKG[21:16] (R500). -/
def F.LATCH_PROXY.PKG (i : Nat) : Fld := ⟨Off.LATCH_PROXY i, 16, 6⟩
/-- LATCH_PROXY.EN[31:31] (R500). -/
def F.LATCH_PROXY.EN (i : Nat) : Fld := ⟨Off.LATCH_PROXY i, 31, 1⟩
/-- Offset of PW_CTRL (R501). -/
def Off.PW_CTRL : Nat := 0x20C000
/-- PW_CTRL.MODE[0:0] (R501). -/
def F.PW_CTRL.MODE : Fld := ⟨Off.PW_CTRL, 0, 1⟩
/-- PW_CTRL.CLOSE[1:1] (R501). -/
def F.PW_CTRL.CLOSE : Fld := ⟨Off.PW_CTRL, 1, 1⟩
/-- PW_CTRL.RESYNC[2:2] (R501). -/
def F.PW_CTRL.RESYNC : Fld := ⟨Off.PW_CTRL, 2, 1⟩
/-- PW_CTRL.TAKEOVER[3:3] (R501). -/
def F.PW_CTRL.TAKEOVER : Fld := ⟨Off.PW_CTRL, 3, 1⟩
/-- PW_CTRL.PW_LATCH[17:4] (R501). -/
def F.PW_CTRL.PW_LATCH : Fld := ⟨Off.PW_CTRL, 4, 14⟩
/-- Offset of PW_STATUS (R501). -/
def Off.PW_STATUS : Nat := 0x20C004
/-- PW_STATUS.STATE[2:0] (R501). -/
def F.PW_STATUS.STATE : Fld := ⟨Off.PW_STATUS, 0, 3⟩
/-- PW_STATUS.CAUSE[4:3] (R501). -/
def F.PW_STATUS.CAUSE : Fld := ⟨Off.PW_STATUS, 3, 2⟩
/-- PW_STATUS.WALL_BREACH[5:5] (R501). -/
def F.PW_STATUS.WALL_BREACH : Fld := ⟨Off.PW_STATUS, 5, 1⟩
/-- PW_STATUS.KEEPER_EFF[6:6] (R501). -/
def F.PW_STATUS.KEEPER_EFF : Fld := ⟨Off.PW_STATUS, 6, 1⟩
/-- Offset of PW_EPOCH_US (R501). -/
def Off.PW_EPOCH_US : Nat := 0x20C008
/-- PW_EPOCH_US.US[16:0] (R501). -/
def F.PW_EPOCH_US.US : Fld := ⟨Off.PW_EPOCH_US, 0, 17⟩
/-- Offset of PW_GRACE (R501). -/
def Off.PW_GRACE : Nat := 0x20C00C
/-- PW_GRACE.MS[13:0] (R501). -/
def F.PW_GRACE.MS : Fld := ⟨Off.PW_GRACE, 0, 14⟩
/-- Offset of PW_LOG_BASE_LO (R501). -/
def Off.PW_LOG_BASE_LO : Nat := 0x20C010
/-- PW_LOG_BASE_LO.ADDR_LO[31:21] (R501). -/
def F.PW_LOG_BASE_LO.ADDR_LO : Fld := ⟨Off.PW_LOG_BASE_LO, 21, 11⟩
/-- Offset of PW_LOG_BASE_HI (R501). -/
def Off.PW_LOG_BASE_HI : Nat := 0x20C014
/-- PW_LOG_BASE_HI.ADDR_HI[15:0] (R501). -/
def F.PW_LOG_BASE_HI.ADDR_HI : Fld := ⟨Off.PW_LOG_BASE_HI, 0, 16⟩
/-- Offset of PW_LOG_SIZE (R501). -/
def Off.PW_LOG_SIZE : Nat := 0x20C018
/-- PW_LOG_SIZE.SIZE[11:0] (R501). -/
def F.PW_LOG_SIZE.SIZE : Fld := ⟨Off.PW_LOG_SIZE, 0, 12⟩
/-- Offset of PW_OUT_EPOCH (R501). -/
def Off.PW_OUT_EPOCH : Nat := 0x20C01C
/-- PW_OUT_EPOCH.EPOCH[31:0] (R501). -/
def F.PW_OUT_EPOCH.EPOCH : Fld := ⟨Off.PW_OUT_EPOCH, 0, 32⟩
/-- Offset of PW_ACKED (R501). -/
def Off.PW_ACKED : Nat := 0x20C020
/-- PW_ACKED.EPOCH[31:0] (R501). -/
def F.PW_ACKED.EPOCH : Fld := ⟨Off.PW_ACKED, 0, 32⟩
/-- Offset of PW_IN_APPLIED (R501). -/
def Off.PW_IN_APPLIED : Nat := 0x20C024
/-- PW_IN_APPLIED.EPOCH[31:0] (R501). -/
def F.PW_IN_APPLIED.EPOCH : Fld := ⟨Off.PW_IN_APPLIED, 0, 32⟩
/-- Offset of PW_COUNTS (R501). -/
def Off.PW_COUNTS : Nat := 0x20C028
/-- PW_COUNTS.FORCED[15:0] (R501). -/
def F.PW_COUNTS.FORCED : Fld := ⟨Off.PW_COUNTS, 0, 16⟩
/-- PW_COUNTS.BLOCKED[31:16] (R501). -/
def F.PW_COUNTS.BLOCKED : Fld := ⟨Off.PW_COUNTS, 16, 16⟩
/-- Offset of HBM_PC_REMAP (R441). -/
def Off.HBM_PC_REMAP (i : Nat) : Nat := 0x400000 + i * 0x1000
/-- HBM_PC_REMAP.SP0_FOR[5:0] (R441). -/
def F.HBM_PC_REMAP.SP0_FOR (i : Nat) : Fld := ⟨Off.HBM_PC_REMAP i, 0, 6⟩
/-- HBM_PC_REMAP.SP0_EN[6:6] (R441). -/
def F.HBM_PC_REMAP.SP0_EN (i : Nat) : Fld := ⟨Off.HBM_PC_REMAP i, 6, 1⟩
/-- HBM_PC_REMAP.SP1_FOR[13:8] (R441). -/
def F.HBM_PC_REMAP.SP1_FOR (i : Nat) : Fld := ⟨Off.HBM_PC_REMAP i, 8, 6⟩
/-- HBM_PC_REMAP.SP1_EN[14:14] (R441). -/
def F.HBM_PC_REMAP.SP1_EN (i : Nat) : Fld := ⟨Off.HBM_PC_REMAP i, 14, 1⟩
/-- HBM_PC_REMAP.REFUSED[15:15] (R441). -/
def F.HBM_PC_REMAP.REFUSED (i : Nat) : Fld := ⟨Off.HBM_PC_REMAP i, 15, 1⟩
/-- Offset of MEM_CTRL (R442). -/
def Off.MEM_CTRL : Nat := 0x410000
/-- MEM_CTRL.EN[0:0] (R442). -/
def F.MEM_CTRL.EN : Fld := ⟨Off.MEM_CTRL, 0, 1⟩
/-- MEM_CTRL.LEDGER_EN[1:1] (R442). -/
def F.MEM_CTRL.LEDGER_EN : Fld := ⟨Off.MEM_CTRL, 1, 1⟩
/-- MEM_CTRL.FLUE_SWITCH[2:2] (R442). -/
def F.MEM_CTRL.FLUE_SWITCH : Fld := ⟨Off.MEM_CTRL, 2, 1⟩
/-- MEM_CTRL.LATE_THRESH[13:4] (R442). -/
def F.MEM_CTRL.LATE_THRESH : Fld := ⟨Off.MEM_CTRL, 4, 10⟩
/-- Offset of SAVE_BASE_LO (R442). -/
def Off.SAVE_BASE_LO : Nat := 0x410008
/-- SAVE_BASE_LO.ADDR_LO[31:21] (R442). -/
def F.SAVE_BASE_LO.ADDR_LO : Fld := ⟨Off.SAVE_BASE_LO, 21, 11⟩
/-- Offset of SAVE_BASE_HI (R442). -/
def Off.SAVE_BASE_HI : Nat := 0x41000C
/-- SAVE_BASE_HI.ADDR_HI[15:0] (R442). -/
def F.SAVE_BASE_HI.ADDR_HI : Fld := ⟨Off.SAVE_BASE_HI, 0, 16⟩
/-- Offset of LEDGER_BASE_LO (R442). -/
def Off.LEDGER_BASE_LO : Nat := 0x410010
/-- LEDGER_BASE_LO.ADDR_LO[31:21] (R442). -/
def F.LEDGER_BASE_LO.ADDR_LO : Fld := ⟨Off.LEDGER_BASE_LO, 21, 11⟩
/-- Offset of LEDGER_BASE_HI (R442). -/
def Off.LEDGER_BASE_HI : Nat := 0x410014
/-- LEDGER_BASE_HI.ADDR_HI[15:0] (R442). -/
def F.LEDGER_BASE_HI.ADDR_HI : Fld := ⟨Off.LEDGER_BASE_HI, 0, 16⟩
/-- Offset of XF_BASE_LO (R442). -/
def Off.XF_BASE_LO : Nat := 0x410020
/-- XF_BASE_LO.ADDR_LO[31:12] (R442). -/
def F.XF_BASE_LO.ADDR_LO : Fld := ⟨Off.XF_BASE_LO, 12, 20⟩
/-- Offset of XF_BASE_HI (R442). -/
def Off.XF_BASE_HI : Nat := 0x410024
/-- XF_BASE_HI.ADDR_HI[15:0] (R442). -/
def F.XF_BASE_HI.ADDR_HI : Fld := ⟨Off.XF_BASE_HI, 0, 16⟩
/-- Offset of XF_SIZE (R442). -/
def Off.XF_SIZE : Nat := 0x410028
/-- XF_SIZE.LOG2[3:0] (R442). -/
def F.XF_SIZE.LOG2 : Fld := ⟨Off.XF_SIZE, 0, 4⟩
/-- Offset of XF_HEAD (R442). -/
def Off.XF_HEAD : Nat := 0x41002C
/-- XF_HEAD.HEAD[11:0] (R442). -/
def F.XF_HEAD.HEAD : Fld := ⟨Off.XF_HEAD, 0, 12⟩
/-- Offset of XF_TAIL (R442). -/
def Off.XF_TAIL : Nat := 0x410030
/-- XF_TAIL.TAIL[11:0] (R442). -/
def F.XF_TAIL.TAIL : Fld := ⟨Off.XF_TAIL, 0, 12⟩
/-- Offset of XF_RESUME (R442). -/
def Off.XF_RESUME : Nat := 0x410034
/-- XF_RESUME.TICKET[9:0] (R442). -/
def F.XF_RESUME.TICKET : Fld := ⟨Off.XF_RESUME, 0, 10⟩
/-- Offset of XF_STATUS (R442). -/
def Off.XF_STATUS : Nat := 0x410038
/-- XF_STATUS.NEW[0:0] (R442). -/
def F.XF_STATUS.NEW : Fld := ⟨Off.XF_STATUS, 0, 1⟩
/-- XF_STATUS.FULL[1:1] (R442). -/
def F.XF_STATUS.FULL : Fld := ⟨Off.XF_STATUS, 1, 1⟩
/-- XF_STATUS.BAD_RESUME[2:2] (R442). -/
def F.XF_STATUS.BAD_RESUME : Fld := ⟨Off.XF_STATUS, 2, 1⟩
/-- XF_STATUS.NO_TICKET[3:3] (R442). -/
def F.XF_STATUS.NO_TICKET : Fld := ⟨Off.XF_STATUS, 3, 1⟩
/-- XF_STATUS.PARKED[26:16] (R442). -/
def F.XF_STATUS.PARKED : Fld := ⟨Off.XF_STATUS, 16, 11⟩
/-- Offset of INV_CTRL (R442). -/
def Off.INV_CTRL : Nat := 0x410040
/-- INV_CTRL.SCOPE[1:0] (R442). -/
def F.INV_CTRL.SCOPE : Fld := ⟨Off.INV_CTRL, 0, 2⟩
/-- INV_CTRL.GO[2:2] (R442). -/
def F.INV_CTRL.GO : Fld := ⟨Off.INV_CTRL, 2, 1⟩
/-- INV_CTRL.CTX[14:4] (R442). -/
def F.INV_CTRL.CTX : Fld := ⟨Off.INV_CTRL, 4, 11⟩
/-- Offset of INV_VA_LO (R442). -/
def Off.INV_VA_LO : Nat := 0x410044
/-- INV_VA_LO.VA_LO[31:0] (R442). -/
def F.INV_VA_LO.VA_LO : Fld := ⟨Off.INV_VA_LO, 0, 32⟩
/-- Offset of INV_VA_HI (R442). -/
def Off.INV_VA_HI : Nat := 0x410048
/-- INV_VA_HI.VA_HI[24:0] (R442). -/
def F.INV_VA_HI.VA_HI : Fld := ⟨Off.INV_VA_HI, 0, 25⟩
/-- Offset of INV_COUNT (R442). -/
def Off.INV_COUNT : Nat := 0x41004C
/-- INV_COUNT.COUNT[31:0] (R442). -/
def F.INV_COUNT.COUNT : Fld := ⟨Off.INV_COUNT, 0, 32⟩
/-- Offset of MEM_STATUS (R442). -/
def Off.MEM_STATUS : Nat := 0x410050
/-- MEM_STATUS.CFG_ERR[0:0] (R442). -/
def F.MEM_STATUS.CFG_ERR : Fld := ⟨Off.MEM_STATUS, 0, 1⟩
/-- MEM_STATUS.UNBACKED[1:1] (R442). -/
def F.MEM_STATUS.UNBACKED : Fld := ⟨Off.MEM_STATUS, 1, 1⟩
/-- MEM_STATUS.WARM_LOST[2:2] (R442). -/
def F.MEM_STATUS.WARM_LOST : Fld := ⟨Off.MEM_STATUS, 2, 1⟩
/-- MEM_STATUS.INV_WR_DROP[3:3] (R442). -/
def F.MEM_STATUS.INV_WR_DROP : Fld := ⟨Off.MEM_STATUS, 3, 1⟩
/-- MEM_STATUS.POISON[4:4] (R442). -/
def F.MEM_STATUS.POISON : Fld := ⟨Off.MEM_STATUS, 4, 1⟩
/-- Offset of POISON_COUNT (R442). -/
def Off.POISON_COUNT : Nat := 0x410054
/-- POISON_COUNT.COUNT[31:0] (R442). -/
def F.POISON_COUNT.COUNT : Fld := ⟨Off.POISON_COUNT, 0, 32⟩
/-- Offset of FILL_COUNTS (R442). -/
def Off.FILL_COUNTS : Nat := 0x410058
/-- FILL_COUNTS.FILL_DROP[15:0] (R442). -/
def F.FILL_COUNTS.FILL_DROP : Fld := ⟨Off.FILL_COUNTS, 0, 16⟩
/-- FILL_COUNTS.FILL_FAIL[31:16] (R442). -/
def F.FILL_COUNTS.FILL_FAIL : Fld := ⟨Off.FILL_COUNTS, 16, 16⟩
/-- Offset of ARB_CLASS (R443). -/
def Off.ARB_CLASS (i : Nat) : Nat := 0x420000 + i * 0x1000
/-- ARB_CLASS.CLASS_0[1:0] (R443). -/
def F.ARB_CLASS.CLASS_0 (i : Nat) : Fld := ⟨Off.ARB_CLASS i, 0, 2⟩
/-- ARB_CLASS.CLASS_1[3:2] (R443). -/
def F.ARB_CLASS.CLASS_1 (i : Nat) : Fld := ⟨Off.ARB_CLASS i, 2, 2⟩
/-- ARB_CLASS.CLASS_2[5:4] (R443). -/
def F.ARB_CLASS.CLASS_2 (i : Nat) : Fld := ⟨Off.ARB_CLASS i, 4, 2⟩
/-- ARB_CLASS.CLASS_3[7:6] (R443). -/
def F.ARB_CLASS.CLASS_3 (i : Nat) : Fld := ⟨Off.ARB_CLASS i, 6, 2⟩
/-- ARB_CLASS.CLASS_4[9:8] (R443). -/
def F.ARB_CLASS.CLASS_4 (i : Nat) : Fld := ⟨Off.ARB_CLASS i, 8, 2⟩
/-- ARB_CLASS.CLASS_5[11:10] (R443). -/
def F.ARB_CLASS.CLASS_5 (i : Nat) : Fld := ⟨Off.ARB_CLASS i, 10, 2⟩
/-- ARB_CLASS.CLASS_6[13:12] (R443). -/
def F.ARB_CLASS.CLASS_6 (i : Nat) : Fld := ⟨Off.ARB_CLASS i, 12, 2⟩
/-- ARB_CLASS.CLASS_7[15:14] (R443). -/
def F.ARB_CLASS.CLASS_7 (i : Nat) : Fld := ⟨Off.ARB_CLASS i, 14, 2⟩
/-- ARB_CLASS.CLASS_8[17:16] (R443). -/
def F.ARB_CLASS.CLASS_8 (i : Nat) : Fld := ⟨Off.ARB_CLASS i, 16, 2⟩
/-- ARB_CLASS.CLASS_9[19:18] (R443). -/
def F.ARB_CLASS.CLASS_9 (i : Nat) : Fld := ⟨Off.ARB_CLASS i, 18, 2⟩
/-- ARB_CLASS.CLASS_10[21:20] (R443). -/
def F.ARB_CLASS.CLASS_10 (i : Nat) : Fld := ⟨Off.ARB_CLASS i, 20, 2⟩
/-- ARB_CLASS.CLASS_11[23:22] (R443). -/
def F.ARB_CLASS.CLASS_11 (i : Nat) : Fld := ⟨Off.ARB_CLASS i, 22, 2⟩
/-- Offset of ARB_LIMIT (R443). -/
def Off.ARB_LIMIT (i : Nat) : Nat := 0x420004 + i * 0x1000
/-- ARB_LIMIT.LIMIT[15:0] (R443). -/
def F.ARB_LIMIT.LIMIT (i : Nat) : Fld := ⟨Off.ARB_LIMIT i, 0, 16⟩
/-- Offset of ARB_STARVE (R443). -/
def Off.ARB_STARVE (i : Nat) : Nat := 0x420008 + i * 0x1000
/-- ARB_STARVE.STARVE[15:0] (R443). -/
def F.ARB_STARVE.STARVE (i : Nat) : Fld := ⟨Off.ARB_STARVE i, 0, 16⟩
/-- Offset of ARB_STARVE_IE (R443). -/
def Off.ARB_STARVE_IE (i : Nat) : Nat := 0x42000C + i * 0x1000
/-- ARB_STARVE_IE.STARVE_IE[15:0] (R443). -/
def F.ARB_STARVE_IE.STARVE_IE (i : Nat) : Fld := ⟨Off.ARB_STARVE_IE i, 0, 16⟩
/-- Offset of ARB_CNT_CLR (R443). -/
def Off.ARB_CNT_CLR (i : Nat) : Nat := 0x420010 + i * 0x1000
/-- ARB_CNT_CLR.CNT_CLR[15:0] (R443). -/
def F.ARB_CNT_CLR.CNT_CLR (i : Nat) : Fld := ⟨Off.ARB_CNT_CLR i, 0, 16⟩
/-- Offset of ARB_EMPTY (R443). -/
def Off.ARB_EMPTY (i : Nat) : Nat := 0x420014 + i * 0x1000
/-- ARB_EMPTY.EMPTY[31:0] (R443). -/
def F.ARB_EMPTY.EMPTY (i : Nat) : Fld := ⟨Off.ARB_EMPTY i, 0, 32⟩
/-- Offset of ARB_GRANTS (R443). -/
def Off.ARB_GRANTS (i : Nat) (j : Nat) : Nat := 0x420100 + i * 0x1000 + j * 0x10
/-- ARB_GRANTS.GRANTS[31:0] (R443). -/
def F.ARB_GRANTS.GRANTS (i : Nat) (j : Nat) : Fld := ⟨Off.ARB_GRANTS i j, 0, 32⟩
/-- Offset of ARB_WAITS (R443). -/
def Off.ARB_WAITS (i : Nat) (j : Nat) : Nat := 0x420104 + i * 0x1000 + j * 0x10
/-- ARB_WAITS.WAITS[31:0] (R443). -/
def F.ARB_WAITS.WAITS (i : Nat) (j : Nat) : Fld := ⟨Off.ARB_WAITS i j, 0, 32⟩
/-- Offset of ARB_MAX_WAIT (R443). -/
def Off.ARB_MAX_WAIT (i : Nat) (j : Nat) : Nat := 0x420108 + i * 0x1000 + j * 0x10
/-- ARB_MAX_WAIT.MAX_WAIT[31:0] (R443). -/
def F.ARB_MAX_WAIT.MAX_WAIT (i : Nat) (j : Nat) : Fld := ⟨Off.ARB_MAX_WAIT i j, 0, 32⟩
/-- Offset of CTX_CMD (R528). -/
def Off.CTX_CMD : Nat := 0x430000
/-- CTX_CMD.CTX[10:0] (R528). -/
def F.CTX_CMD.CTX : Fld := ⟨Off.CTX_CMD, 0, 11⟩
/-- CTX_CMD.OP[13:12] (R528). -/
def F.CTX_CMD.OP : Fld := ⟨Off.CTX_CMD, 12, 2⟩
/-- Offset of CTX_STATUS (R528). -/
def Off.CTX_STATUS : Nat := 0x430004
/-- CTX_STATUS.BUSY[0:0] (R528). -/
def F.CTX_STATUS.BUSY : Fld := ⟨Off.CTX_STATUS, 0, 1⟩
/-- CTX_STATUS.DROP[1:1] (R528). -/
def F.CTX_STATUS.DROP : Fld := ⟨Off.CTX_STATUS, 1, 1⟩
/-- CTX_STATUS.CFG_REFUSED[2:2] (R528). -/
def F.CTX_STATUS.CFG_REFUSED : Fld := ⟨Off.CTX_STATUS, 2, 1⟩
/-- CTX_STATUS.RESULT[7:4] (R528). -/
def F.CTX_STATUS.RESULT : Fld := ⟨Off.CTX_STATUS, 4, 4⟩
/-- CTX_STATUS.CTX[18:8] (R528). -/
def F.CTX_STATUS.CTX : Fld := ⟨Off.CTX_STATUS, 8, 11⟩
/-- Offset of PKG_IRQ_STATUS (R528). -/
def Off.PKG_IRQ_STATUS : Nat := 0x430010
/-- PKG_IRQ_STATUS.EVENTS[7:0] (R528). -/
def F.PKG_IRQ_STATUS.EVENTS : Fld := ⟨Off.PKG_IRQ_STATUS, 0, 8⟩
/-- Offset of PKG_IRQ_EN (R528). -/
def Off.PKG_IRQ_EN : Nat := 0x430014
/-- PKG_IRQ_EN.EN[7:0] (R528). -/
def F.PKG_IRQ_EN.EN : Fld := ⟨Off.PKG_IRQ_EN, 0, 8⟩
/-- Offset of ALERT_EN (R528). -/
def Off.ALERT_EN : Nat := 0x430018
/-- ALERT_EN.EN[7:0] (R528). -/
def F.ALERT_EN.EN : Fld := ⟨Off.ALERT_EN, 0, 8⟩
/-- Offset of FLUE_BASE_LO (R528). -/
def Off.FLUE_BASE_LO : Nat := 0x430020
/-- FLUE_BASE_LO.ADDR_LO[31:12] (R528). -/
def F.FLUE_BASE_LO.ADDR_LO : Fld := ⟨Off.FLUE_BASE_LO, 12, 20⟩
/-- Offset of FLUE_BASE_HI (R528). -/
def Off.FLUE_BASE_HI : Nat := 0x430024
/-- FLUE_BASE_HI.ADDR_HI[15:0] (R528). -/
def F.FLUE_BASE_HI.ADDR_HI : Fld := ⟨Off.FLUE_BASE_HI, 0, 16⟩
/-- Offset of FLUE_SIZE (R528). -/
def Off.FLUE_SIZE : Nat := 0x430028
/-- FLUE_SIZE.LOG2[4:0] (R528). -/
def F.FLUE_SIZE.LOG2 : Fld := ⟨Off.FLUE_SIZE, 0, 5⟩
/-- Offset of FLUE_HEAD (R528). -/
def Off.FLUE_HEAD : Nat := 0x43002C
/-- FLUE_HEAD.HEAD[19:0] (R528). -/
def F.FLUE_HEAD.HEAD : Fld := ⟨Off.FLUE_HEAD, 0, 20⟩
/-- Offset of FLUE_TAIL (R528). -/
def Off.FLUE_TAIL : Nat := 0x430030
/-- FLUE_TAIL.TAIL[19:0] (R528). -/
def F.FLUE_TAIL.TAIL : Fld := ⟨Off.FLUE_TAIL, 0, 20⟩
/-- Offset of FLUE_LOST (R528). -/
def Off.FLUE_LOST : Nat := 0x430034
/-- FLUE_LOST.COUNT[31:0] (R528). -/
def F.FLUE_LOST.COUNT : Fld := ⟨Off.FLUE_LOST, 0, 32⟩
/-- Offset of BOOT_STATUS (R528). -/
def Off.BOOT_STATUS : Nat := 0x430040
/-- BOOT_STATUS.STAGE[3:0] (R528). -/
def F.BOOT_STATUS.STAGE : Fld := ⟨Off.BOOT_STATUS, 0, 4⟩
/-- BOOT_STATUS.FALLBACK[4:4] (R528). -/
def F.BOOT_STATUS.FALLBACK : Fld := ⟨Off.BOOT_STATUS, 4, 1⟩
/-- BOOT_STATUS.DIR_FALLBACK[5:5] (R528). -/
def F.BOOT_STATUS.DIR_FALLBACK : Fld := ⟨Off.BOOT_STATUS, 5, 1⟩
/-- BOOT_STATUS.ERR[11:8] (R528). -/
def F.BOOT_STATUS.ERR : Fld := ⟨Off.BOOT_STATUS, 8, 4⟩
/-- Offset of LATCH_SEL (R528). -/
def Off.LATCH_SEL : Nat := 0x430050
/-- LATCH_SEL.LATCH[13:0] (R528). -/
def F.LATCH_SEL.LATCH : Fld := ⟨Off.LATCH_SEL, 0, 14⟩
/-- Offset of LATCH_VAL (R528). -/
def Off.LATCH_VAL : Nat := 0x430054
/-- LATCH_VAL.VALUE[31:0] (R528). -/
def F.LATCH_VAL.VALUE : Fld := ⟨Off.LATCH_VAL, 0, 32⟩
/-- Offset of VF_APT_BASE (R528). -/
def Off.VF_APT_BASE (i : Nat) : Nat := 0x431000 + i * 0x8
/-- VF_APT_BASE.BASE[26:0] (R528). -/
def F.VF_APT_BASE.BASE (i : Nat) : Fld := ⟨Off.VF_APT_BASE i, 0, 27⟩
/-- Offset of VF_APT_SIZE (R528). -/
def Off.VF_APT_SIZE (i : Nat) : Nat := 0x431004 + i * 0x8
/-- VF_APT_SIZE.SIZE[11:0] (R528). -/
def F.VF_APT_SIZE.SIZE (i : Nat) : Fld := ⟨Off.VF_APT_SIZE i, 0, 12⟩
/-- Offset of MSIX_ADDR_LO (R513). -/
def Off.MSIX_ADDR_LO (i : Nat) : Nat := 0x440000 + i * 0x10
/-- MSIX_ADDR_LO.ADDR[31:2] (R513). -/
def F.MSIX_ADDR_LO.ADDR (i : Nat) : Fld := ⟨Off.MSIX_ADDR_LO i, 2, 30⟩
/-- Offset of MSIX_ADDR_HI (R513). -/
def Off.MSIX_ADDR_HI (i : Nat) : Nat := 0x440004 + i * 0x10
/-- MSIX_ADDR_HI.ADDR[31:0] (R513). -/
def F.MSIX_ADDR_HI.ADDR (i : Nat) : Fld := ⟨Off.MSIX_ADDR_HI i, 0, 32⟩
/-- Offset of MSIX_DATA (R513). -/
def Off.MSIX_DATA (i : Nat) : Nat := 0x440008 + i * 0x10
/-- MSIX_DATA.DATA[31:0] (R513). -/
def F.MSIX_DATA.DATA (i : Nat) : Fld := ⟨Off.MSIX_DATA i, 0, 32⟩
/-- Offset of MSIX_CTRL (R513). -/
def Off.MSIX_CTRL (i : Nat) : Nat := 0x44000C + i * 0x10
/-- MSIX_CTRL.MASK[0:0] (R513). -/
def F.MSIX_CTRL.MASK (i : Nat) : Fld := ⟨Off.MSIX_CTRL i, 0, 1⟩
/-- Offset of MSIX_PBA (R513). -/
def Off.MSIX_PBA (i : Nat) : Nat := 0x450000 + i * 0x4
/-- MSIX_PBA.PENDING[31:0] (R513). -/
def F.MSIX_PBA.PENDING (i : Nat) : Fld := ⟨Off.MSIX_PBA i, 0, 32⟩
/-- Offset of CELLAR_GAP (R442). -/
def Off.CELLAR_GAP : Nat := 0x800000
/-- CELLAR_GAP.LIMIT[13:0] (R442). -/
def F.CELLAR_GAP.LIMIT : Fld := ⟨Off.CELLAR_GAP, 0, 14⟩
/-- Offset of CELLAR_EVENTS (R442). -/
def Off.CELLAR_EVENTS : Nat := 0x800004
/-- CELLAR_EVENTS.ABANDON[15:0] (R442). -/
def F.CELLAR_EVENTS.ABANDON : Fld := ⟨Off.CELLAR_EVENTS, 0, 16⟩
/-- CELLAR_EVENTS.ORPHAN[31:16] (R442). -/
def F.CELLAR_EVENTS.ORPHAN : Fld := ⟨Off.CELLAR_EVENTS, 16, 16⟩
/-- Offset of CXL_CTRL (R531). -/
def Off.CXL_CTRL (i : Nat) : Nat := 0x810000 + i * 0x1000
/-- CXL_CTRL.ENABLE[0:0] (R531). -/
def F.CXL_CTRL.ENABLE (i : Nat) : Fld := ⟨Off.CXL_CTRL i, 0, 1⟩
/-- Offset of CXL_STATUS (R531). -/
def Off.CXL_STATUS (i : Nat) : Nat := 0x810004 + i * 0x1000
/-- CXL_STATUS.LINK_UP[0:0] (R531). -/
def F.CXL_STATUS.LINK_UP (i : Nat) : Fld := ⟨Off.CXL_STATUS i, 0, 1⟩
/-- CXL_STATUS.WIDTH[2:1] (R531). -/
def F.CXL_STATUS.WIDTH (i : Nat) : Fld := ⟨Off.CXL_STATUS i, 1, 2⟩
/-- CXL_STATUS.SPEED[4:3] (R531). -/
def F.CXL_STATUS.SPEED (i : Nat) : Fld := ⟨Off.CXL_STATUS i, 3, 2⟩
/-- CXL_STATUS.DEV_OK[5:5] (R531). -/
def F.CXL_STATUS.DEV_OK (i : Nat) : Fld := ⟨Off.CXL_STATUS i, 5, 1⟩
/-- CXL_STATUS.ERR[11:8] (R531). -/
def F.CXL_STATUS.ERR (i : Nat) : Fld := ⟨Off.CXL_STATUS i, 8, 4⟩
/-- Offset of CXL_SIZE (R531). -/
def Off.CXL_SIZE (i : Nat) : Nat := 0x810008 + i * 0x1000
/-- CXL_SIZE.SIZE[13:0] (R531). -/
def F.CXL_SIZE.SIZE (i : Nat) : Fld := ⟨Off.CXL_SIZE i, 0, 14⟩
/-- Offset of CXL_ERR (R531). -/
def Off.CXL_ERR (i : Nat) : Nat := 0x81000C + i * 0x1000
/-- CXL_ERR.POISON[15:0] (R531). -/
def F.CXL_ERR.POISON (i : Nat) : Fld := ⟨Off.CXL_ERR i, 0, 16⟩
/-- CXL_ERR.UNCORR[31:16] (R531). -/
def F.CXL_ERR.UNCORR (i : Nat) : Fld := ⟨Off.CXL_ERR i, 16, 16⟩
/-- Offset of ENGINE_REMAP (R68). -/
def Off.ENGINE_REMAP (r : Nat) : Nat := roomBase r + 0x40
/-- ENGINE_REMAP.ENG0_PHYS[2:0] (R68). -/
def F.ENGINE_REMAP.ENG0_PHYS (r : Nat) : Fld := ⟨Off.ENGINE_REMAP r, 0, 3⟩
/-- ENGINE_REMAP.ENG1_PHYS[5:3] (R68). -/
def F.ENGINE_REMAP.ENG1_PHYS (r : Nat) : Fld := ⟨Off.ENGINE_REMAP r, 3, 3⟩
/-- ENGINE_REMAP.ENG2_PHYS[8:6] (R68). -/
def F.ENGINE_REMAP.ENG2_PHYS (r : Nat) : Fld := ⟨Off.ENGINE_REMAP r, 6, 3⟩
/-- ENGINE_REMAP.ENG3_PHYS[11:9] (R68). -/
def F.ENGINE_REMAP.ENG3_PHYS (r : Nat) : Fld := ⟨Off.ENGINE_REMAP r, 9, 3⟩
/-- ENGINE_REMAP.SPARE_PHYS[14:12] (R68). -/
def F.ENGINE_REMAP.SPARE_PHYS (r : Nat) : Fld := ⟨Off.ENGINE_REMAP r, 12, 3⟩
/-- ENGINE_REMAP.REMAP_REFUSED[15:15] (R68). -/
def F.ENGINE_REMAP.REMAP_REFUSED (r : Nat) : Fld := ⟨Off.ENGINE_REMAP r, 15, 1⟩
/-- ENGINE_REMAP.FENCED[20:16] (R68). -/
def F.ENGINE_REMAP.FENCED (r : Nat) : Fld := ⟨Off.ENGINE_REMAP r, 16, 5⟩
/-- Offset of ENGINE_FENCE (R68). -/
def Off.ENGINE_FENCE (r : Nat) : Nat := roomBase r + 0x44
/-- ENGINE_FENCE.FENCE_REQ[4:0] (R68). -/
def F.ENGINE_FENCE.FENCE_REQ (r : Nat) : Fld := ⟨Off.ENGINE_FENCE r, 0, 5⟩
/-- ENGINE_FENCE.HW_FENCE[12:8] (R68). -/
def F.ENGINE_FENCE.HW_FENCE (r : Nat) : Fld := ⟨Off.ENGINE_FENCE r, 8, 5⟩
/-- Offset of ACC_SLOT (R225). -/
def Off.ACC_SLOT (r : Nat) (i : Nat) (j : Nat) : Nat := roomBase r + 0x10000 + i * 0x100 + j * 0x4
/-- ACC_SLOT.OWNER[10:0] (R225). -/
def F.ACC_SLOT.OWNER (r : Nat) (i : Nat) (j : Nat) : Fld := ⟨Off.ACC_SLOT r i j, 0, 11⟩
/-- ACC_SLOT.STATE[13:12] (R225). -/
def F.ACC_SLOT.STATE (r : Nat) (i : Nat) (j : Nat) : Fld := ⟨Off.ACC_SLOT r i j, 12, 2⟩
/-- ACC_SLOT.ANCHOR[25:16] (R225). -/
def F.ACC_SLOT.ANCHOR (r : Nat) (i : Nat) (j : Nat) : Fld := ⟨Off.ACC_SLOT r i j, 16, 10⟩
/-- ACC_SLOT.RAISES[29:26] (R225). -/
def F.ACC_SLOT.RAISES (r : Nat) (i : Nat) (j : Nat) : Fld := ⟨Off.ACC_SLOT r i j, 26, 4⟩
/-- Offset of MASON_DROP (R252). -/
def Off.MASON_DROP (r : Nat) (i : Nat) (j : Nat) : Nat := roomBase r + 0x12000 + i * 0x20 + j * 0x4
/-- MASON_DROP.CTX[10:0] (R252). -/
def F.MASON_DROP.CTX (r : Nat) (i : Nat) (j : Nat) : Fld := ⟨Off.MASON_DROP r i j, 0, 11⟩
/-- MASON_DROP.COUNT[31:12] (R252). -/
def F.MASON_DROP.COUNT (r : Nat) (i : Nat) (j : Nat) : Fld := ⟨Off.MASON_DROP r i j, 12, 20⟩
/-- Offset of MASON_PMISS (R252). -/
def Off.MASON_PMISS (r : Nat) (i : Nat) : Nat := roomBase r + 0x12010 + i * 0x20
/-- MASON_PMISS.COUNT[31:0] (R252). -/
def F.MASON_PMISS.COUNT (r : Nat) (i : Nat) : Fld := ⟨Off.MASON_PMISS r i, 0, 32⟩
/-- Offset of MASON_DROP_FW (R252). -/
def Off.MASON_DROP_FW (r : Nat) (i : Nat) : Nat := roomBase r + 0x12014 + i * 0x20
/-- MASON_DROP_FW.CTX[10:0] (R252). -/
def F.MASON_DROP_FW.CTX (r : Nat) (i : Nat) : Fld := ⟨Off.MASON_DROP_FW r i, 0, 11⟩
/-- MASON_DROP_FW.FWCTX[11:11] (R252). -/
def F.MASON_DROP_FW.FWCTX (r : Nat) (i : Nat) : Fld := ⟨Off.MASON_DROP_FW r i, 11, 1⟩
/-- MASON_DROP_FW.COUNT[31:12] (R252). -/
def F.MASON_DROP_FW.COUNT (r : Nat) (i : Nat) : Fld := ⟨Off.MASON_DROP_FW r i, 12, 20⟩
/-- Offset of PRED_THRESH (R267). -/
def Off.PRED_THRESH (r : Nat) : Nat := roomBase r + 0x12100
/-- PRED_THRESH.THRESH[31:0] (R267). -/
def F.PRED_THRESH.THRESH (r : Nat) : Fld := ⟨Off.PRED_THRESH r, 0, 32⟩
/-- Offset of PRED_MISS (R267). -/
def Off.PRED_MISS (r : Nat) (i : Nat) : Nat := roomBase r + 0x12110 + i * 0x4
/-- PRED_MISS.COUNT[31:0] (R267). -/
def F.PRED_MISS.COUNT (r : Nat) (i : Nat) : Fld := ⟨Off.PRED_MISS r i, 0, 32⟩
/-- Offset of PRED_ROWS (R267). -/
def Off.PRED_ROWS (r : Nat) (i : Nat) : Nat := roomBase r + 0x12130 + i * 0x4
/-- PRED_ROWS.COUNT[31:0] (R267). -/
def F.PRED_ROWS.COUNT (r : Nat) (i : Nat) : Fld := ⟨Off.PRED_ROWS r i, 0, 32⟩
/-- Offset of BRK_CTRL (R331). -/
def Off.BRK_CTRL (r : Nat) : Nat := roomBase r + 0x13000
/-- BRK_CTRL.MODE[1:0] (R331). -/
def F.BRK_CTRL.MODE (r : Nat) : Fld := ⟨Off.BRK_CTRL r, 0, 2⟩
/-- BRK_CTRL.RESUME[2:2] (R331). -/
def F.BRK_CTRL.RESUME (r : Nat) : Fld := ⟨Off.BRK_CTRL r, 2, 1⟩
/-- Offset of BRK_COUNT (R331). -/
def Off.BRK_COUNT (r : Nat) : Nat := roomBase r + 0x13004
/-- BRK_COUNT.COUNT[31:0] (R331). -/
def F.BRK_COUNT.COUNT (r : Nat) : Fld := ⟨Off.BRK_COUNT r, 0, 32⟩
/-- Offset of BRK_TAG (R331). -/
def Off.BRK_TAG (r : Nat) : Nat := roomBase r + 0x13008
/-- BRK_TAG.TAG[31:0] (R331). -/
def F.BRK_TAG.TAG (r : Nat) : Fld := ⟨Off.BRK_TAG r, 0, 32⟩
/-- Offset of BRK_STATUS (R331). -/
def Off.BRK_STATUS (r : Nat) : Nat := roomBase r + 0x1300C
/-- BRK_STATUS.HIT[0:0] (R331). -/
def F.BRK_STATUS.HIT (r : Nat) : Fld := ⟨Off.BRK_STATUS r, 0, 1⟩
/-- BRK_STATUS.HALTED[1:1] (R331). -/
def F.BRK_STATUS.HALTED (r : Nat) : Fld := ⟨Off.BRK_STATUS r, 1, 1⟩
/-- BRK_STATUS.DISPATCHED[31:8] (R331). -/
def F.BRK_STATUS.DISPATCHED (r : Nat) : Fld := ⟨Off.BRK_STATUS r, 8, 24⟩
/-- Offset of INBOX (R332). -/
def Off.INBOX (r : Nat) (i : Nat) : Nat := roomBase r + 0x13100 + i * 0x4
/-- INBOX.CTX[10:0] (R332). -/
def F.INBOX.CTX (r : Nat) (i : Nat) : Fld := ⟨Off.INBOX r i, 0, 11⟩
/-- INBOX.BOUND[11:11] (R332). -/
def F.INBOX.BOUND (r : Nat) (i : Nat) : Fld := ⟨Off.INBOX r i, 11, 1⟩
/-- INBOX.DEPTH[18:12] (R332). -/
def F.INBOX.DEPTH (r : Nat) (i : Nat) : Fld := ⟨Off.INBOX r i, 12, 7⟩
/-- Offset of FW_DESC (R333). -/
def Off.FW_DESC (r : Nat) (i : Nat) : Nat := roomBase r + 0x13200 + i * 0x4
/-- FW_DESC.DATA[31:0] (R333). -/
def F.FW_DESC.DATA (r : Nat) (i : Nat) : Fld := ⟨Off.FW_DESC r i, 0, 32⟩
/-- Offset of FW_CTRL (R333). -/
def Off.FW_CTRL (r : Nat) : Nat := roomBase r + 0x13300
/-- FW_CTRL.GO[0:0] (R333). -/
def F.FW_CTRL.GO (r : Nat) : Fld := ⟨Off.FW_CTRL r, 0, 1⟩
/-- FW_CTRL.CTX_EN[1:1] (R333). -/
def F.FW_CTRL.CTX_EN (r : Nat) : Fld := ⟨Off.FW_CTRL r, 1, 1⟩
/-- FW_CTRL.CTX[14:4] (R333). -/
def F.FW_CTRL.CTX (r : Nat) : Fld := ⟨Off.FW_CTRL r, 4, 11⟩
/-- Offset of FW_STATUS (R333). -/
def Off.FW_STATUS (r : Nat) : Nat := roomBase r + 0x13304
/-- FW_STATUS.FULL[0:0] (R333). -/
def F.FW_STATUS.FULL (r : Nat) : Fld := ⟨Off.FW_STATUS r, 0, 1⟩
/-- FW_STATUS.DROP[1:1] (R333). -/
def F.FW_STATUS.DROP (r : Nat) : Fld := ⟨Off.FW_STATUS r, 1, 1⟩
/-- FW_STATUS.REFUSED[2:2] (R333). -/
def F.FW_STATUS.REFUSED (r : Nat) : Fld := ⟨Off.FW_STATUS r, 2, 1⟩
/-- FW_STATUS.FAULTED[3:3] (R333). -/
def F.FW_STATUS.FAULTED (r : Nat) : Fld := ⟨Off.FW_STATUS r, 3, 1⟩
/-- FW_STATUS.DEPTH[12:8] (R333). -/
def F.FW_STATUS.DEPTH (r : Nat) : Fld := ⟨Off.FW_STATUS r, 8, 5⟩
/-- Offset of FW_FAULT (R333). -/
def Off.FW_FAULT (r : Nat) (i : Nat) : Nat := roomBase r + 0x13340 + i * 0x4
/-- FW_FAULT.DATA[31:0] (R333). -/
def F.FW_FAULT.DATA (r : Nat) (i : Nat) : Fld := ⟨Off.FW_FAULT r i, 0, 32⟩
/-- Offset of CC_ROLE (R381). -/
def Off.CC_ROLE (r : Nat) : Nat := roomBase r + 0x14000
/-- CC_ROLE.MAIN[1:0] (R381). -/
def F.CC_ROLE.MAIN (r : Nat) : Fld := ⟨Off.CC_ROLE r, 0, 2⟩
/-- CC_ROLE.CHECK[3:2] (R381). -/
def F.CC_ROLE.CHECK (r : Nat) : Fld := ⟨Off.CC_ROLE r, 2, 2⟩
/-- CC_ROLE.SPARE[5:4] (R381). -/
def F.CC_ROLE.SPARE (r : Nat) : Fld := ⟨Off.CC_ROLE r, 4, 2⟩
/-- CC_ROLE.UNVERIFIED[8:8] (R381). -/
def F.CC_ROLE.UNVERIFIED (r : Nat) : Fld := ⟨Off.CC_ROLE r, 8, 1⟩
/-- CC_ROLE.JOINING[9:9] (R381). -/
def F.CC_ROLE.JOINING (r : Nat) : Fld := ⟨Off.CC_ROLE r, 9, 1⟩
/-- Offset of LS_STATUS (R381). -/
def Off.LS_STATUS (r : Nat) : Nat := roomBase r + 0x14004
/-- LS_STATUS.MISMATCH[0:0] (R381). -/
def F.LS_STATUS.MISMATCH (r : Nat) : Fld := ⟨Off.LS_STATUS r, 0, 1⟩
/-- LS_STATUS.RAIL_FAULT[1:1] (R381). -/
def F.LS_STATUS.RAIL_FAULT (r : Nat) : Fld := ⟨Off.LS_STATUS r, 1, 1⟩
/-- LS_STATUS.DREG_PARITY[2:2] (R381). -/
def F.LS_STATUS.DREG_PARITY (r : Nat) : Fld := ⟨Off.LS_STATUS r, 2, 1⟩
/-- LS_STATUS.INJECT_FAIL[3:3] (R381). -/
def F.LS_STATUS.INJECT_FAIL (r : Nat) : Fld := ⟨Off.LS_STATUS r, 3, 1⟩
/-- LS_STATUS.SWAP_REFUSED[4:4] (R381). -/
def F.LS_STATUS.SWAP_REFUSED (r : Nat) : Fld := ⟨Off.LS_STATUS r, 4, 1⟩
/-- LS_STATUS.SWAP_DONE[5:5] (R381). -/
def F.LS_STATUS.SWAP_DONE (r : Nat) : Fld := ⟨Off.LS_STATUS r, 5, 1⟩
/-- Offset of LS_CTRL (R381). -/
def Off.LS_CTRL (r : Nat) : Nat := roomBase r + 0x14008
/-- LS_CTRL.SWAP_REQ[0:0] (R381). -/
def F.LS_CTRL.SWAP_REQ (r : Nat) : Fld := ⟨Off.LS_CTRL r, 0, 1⟩
/-- LS_CTRL.SWAP_OUT[1:1] (R381). -/
def F.LS_CTRL.SWAP_OUT (r : Nat) : Fld := ⟨Off.LS_CTRL r, 1, 1⟩
/-- Offset of LS_UNVER_LO (R381). -/
def Off.LS_UNVER_LO (r : Nat) : Nat := roomBase r + 0x1400C
/-- LS_UNVER_LO.TS[31:0] (R381). -/
def F.LS_UNVER_LO.TS (r : Nat) : Fld := ⟨Off.LS_UNVER_LO r, 0, 32⟩
/-- Offset of LS_UNVER_HI (R381). -/
def Off.LS_UNVER_HI (r : Nat) : Nat := roomBase r + 0x14010
/-- LS_UNVER_HI.TS[31:0] (R381). -/
def F.LS_UNVER_HI.TS (r : Nat) : Fld := ⟨Off.LS_UNVER_HI r, 0, 32⟩
/-- Offset of LS_INJECT_LAST (R381). -/
def Off.LS_INJECT_LAST (r : Nat) : Nat := roomBase r + 0x14014
/-- LS_INJECT_LAST.TS[31:0] (R381). -/
def F.LS_INJECT_LAST.TS (r : Nat) : Fld := ⟨Off.LS_INJECT_LAST r, 0, 32⟩
/-- Offset of LS_UNVER_DISPATCH (R381). -/
def Off.LS_UNVER_DISPATCH (r : Nat) : Nat := roomBase r + 0x14018
/-- LS_UNVER_DISPATCH.COUNT[31:0] (R381). -/
def F.LS_UNVER_DISPATCH.COUNT (r : Nat) : Fld := ⟨Off.LS_UNVER_DISPATCH r, 0, 32⟩
/-- Offset of RS_CTRL (R381). -/
def Off.RS_CTRL (r : Nat) : Nat := roomBase r + 0x14020
/-- RS_CTRL.ACTIVE[0:0] (R381). -/
def F.RS_CTRL.ACTIVE (r : Nat) : Fld := ⟨Off.RS_CTRL r, 0, 1⟩
/-- RS_CTRL.SWAP[1:1] (R381). -/
def F.RS_CTRL.SWAP (r : Nat) : Fld := ⟨Off.RS_CTRL r, 1, 1⟩
/-- RS_CTRL.DRAINING[2:2] (R381). -/
def F.RS_CTRL.DRAINING (r : Nat) : Fld := ⟨Off.RS_CTRL r, 2, 1⟩
/-- RS_CTRL.CRC_ERR[3:3] (R381). -/
def F.RS_CTRL.CRC_ERR (r : Nat) : Fld := ⟨Off.RS_CTRL r, 3, 1⟩
/-- RS_CTRL.SWAP_REFUSED[4:4] (R381). -/
def F.RS_CTRL.SWAP_REFUSED (r : Nat) : Fld := ⟨Off.RS_CTRL r, 4, 1⟩
/-- RS_CTRL.WRITE_DROP[5:5] (R381). -/
def F.RS_CTRL.WRITE_DROP (r : Nat) : Fld := ⟨Off.RS_CTRL r, 5, 1⟩
/-- Offset of RS_CRC (R381). -/
def Off.RS_CRC (r : Nat) : Nat := roomBase r + 0x14024
/-- RS_CRC.CRC[31:0] (R381). -/
def F.RS_CRC.CRC (r : Nat) : Fld := ⟨Off.RS_CRC r, 0, 32⟩
/-- Offset of ROUTINE_LIMIT (R381). -/
def Off.ROUTINE_LIMIT (r : Nat) : Nat := roomBase r + 0x14028
/-- ROUTINE_LIMIT.LIMIT[23:0] (R381). -/
def F.ROUTINE_LIMIT.LIMIT (r : Nat) : Fld := ⟨Off.ROUTINE_LIMIT r, 0, 24⟩
/-- Offset of WRONG_PATH_BYTES (R381). -/
def Off.WRONG_PATH_BYTES (r : Nat) : Nat := roomBase r + 0x14030
/-- WRONG_PATH_BYTES.COUNT[31:0] (R381). -/
def F.WRONG_PATH_BYTES.COUNT (r : Nat) : Fld := ⟨Off.WRONG_PATH_BYTES r, 0, 32⟩
/-- Offset of ENG_SCHED (R444). -/
def Off.ENG_SCHED (r : Nat) (i : Nat) : Nat := roomBase r + 0x15000 + i * 0x10
/-- ENG_SCHED.PREEMPT[0:0] (R444). -/
def F.ENG_SCHED.PREEMPT (r : Nat) (i : Nat) : Fld := ⟨Off.ENG_SCHED r i, 0, 1⟩
/-- ENG_SCHED.QUANTUM[15:4] (R444). -/
def F.ENG_SCHED.QUANTUM (r : Nat) (i : Nat) : Fld := ⟨Off.ENG_SCHED r i, 4, 12⟩
/-- ENG_SCHED.ACTIVE_CTX[26:16] (R444). -/
def F.ENG_SCHED.ACTIVE_CTX (r : Nat) (i : Nat) : Fld := ⟨Off.ENG_SCHED r i, 16, 11⟩
/-- ENG_SCHED.ACTIVE_VALID[27:27] (R444). -/
def F.ENG_SCHED.ACTIVE_VALID (r : Nat) (i : Nat) : Fld := ⟨Off.ENG_SCHED r i, 27, 1⟩
/-- Offset of TASK_SLOT (R444). -/
def Off.TASK_SLOT (r : Nat) (i : Nat) (j : Nat) : Nat := roomBase r + 0x15100 + i * 0x10 + j * 0x4
/-- TASK_SLOT.CTX[10:0] (R444). -/
def F.TASK_SLOT.CTX (r : Nat) (i : Nat) (j : Nat) : Fld := ⟨Off.TASK_SLOT r i j, 0, 11⟩
/-- TASK_SLOT.STATE[14:12] (R444). -/
def F.TASK_SLOT.STATE (r : Nat) (i : Nat) (j : Nat) : Fld := ⟨Off.TASK_SLOT r i j, 12, 3⟩
/-- TASK_SLOT.SAVED[15:15] (R444). -/
def F.TASK_SLOT.SAVED (r : Nat) (i : Nat) (j : Nat) : Fld := ⟨Off.TASK_SLOT r i j, 15, 1⟩

end Sys2Proof.Machine
end

