-- ==== Sys2Proof/Machine/State.lean ====
section
/-! DEFINITION. The state of the block as plain data, its reset value, and the reasons a step can stop. Every BAR0
register lives in `regs` under its offset; what the manual names without giving it an offset has a field of
its own. Values that a register shows of such a field (INBOX_n, TASK_SLOT_e_n, ACC_SLOT_n, PKG_CAPACITY, the
doorbell page and others) are computed by `State.regRead`, never stored twice. -/

namespace Sys2Proof.Machine

/-- The context tag of the firmware context in R216 and R329. -/
def fwCtx : Nat := 0x800

/-- Why a step stops with a fault: for no reason. No command ends in a fault, so the type has no constructor; safe, since a
statement that a step goes on then assumes nothing. -/
inductive Fault where
deriving DecidableEq, Repr

/-- Why a command has no meaning. -/
inductive Refusal where
  /-- The command has no meaning in the model yet: raised by `exec` only; safe, nothing is claimed of it. -/
  | notModelled (mnemonic : String)
deriving DecidableEq, Repr

/-- A write to a P field that has not yet taken effect (R106). -/
structure PWrite where
  dom : Domain
  off : Nat
  val : Nat
deriving DecidableEq, Repr

/-- The seal engine (R120 to R129): the CRC captured by a periodic sweep in progress; that of a commit in
progress and whether its end arms comparison (R123); the sweeps ended under HOLD (R127). -/
structure SealSt where
  sweep     : Option W32
  commit    : Option (W32 × Bool)
  holdCount : Nat
deriving DecidableEq, Repr

/-- A context (R519, R522): the entry read at creation, the doorbell page's indices, FAULTED and the later
faults (R323), the tags and rooms of its faulted descriptors with their read order (R297, R298), and the
COMPAT reads held (R289). -/
structure Ctx where
  live       : Bool
  compat     : Bool
  faulted    : Bool
  stopped    : Bool
  qlog2      : Nat
  func       : Nat
  vslot      : Nat
  qbase      : Nat
  ptRoot     : Nat
  faultRec   : Nat
  latchFirst : Nat
  latchLast  : Nat
  cmplVec    : Nat
  faultVec   : Nat
  head       : Nat
  tail       : Nat
  more       : Nat
  deadTags   : List (Nat × Nat × Nat)
  heldReads  : List DbPage
deriving DecidableEq, Repr

/-- A context that is not LIVE: every field reads zero (R148). -/
def Ctx.none : Ctx :=
  { live := false, compat := false, faulted := false, stopped := false, qlog2 := 0, func := 0, vslot := 0,
    qbase := 0, ptRoot := 0, faultRec := 0, latchFirst := 0, latchLast := 0, cmplVec := 0, faultVec := 0,
    head := 0, tail := 0, more := 0, deadTags := [], heldReads := [] }

/-- What a faulting command leaves for its fault record (R324); a field that no rule gives a value for this fault is
`none` and free in the record (assumption log 32). `phys` is the PHYS field where it is not the command's own engine;
`tagOf` the tag where it is not the command's own (R347). -/
structure FaultInfo where
  cause     : Nat
  detail    : Option Nat
  inst      : Option Nat
  tileRow   : Option Nat
  tileCol   : Option Nat
  faultAddr : Option Nat
  region    : Option Nat
  phys      : Option Nat
  tagOf     : Option Nat
deriving DecidableEq, Repr

/-- A fault of the given cause with nothing else to report. -/
def FaultInfo.mk0 (cause : Nat) : FaultInfo :=
  { cause := cause, detail := none, inst := none, tileRow := none, tileCol := none, faultAddr := none,
    region := none, phys := none, tagOf := none }

/-- Where a room's command came from: an inbox (R288), the firmware port (R328), or EISSUE with its ticket (R356), of the CALL
(level 0) or of a service entry (level 1, and one more for each service entry that it interrupted). -/
inductive Src where
  | inbox (i : Nat)
  | fw
  | issued (level : Nat) (ticket : Nat)
deriving DecidableEq, Repr

/-- The stages of a command in a room: waiting for dispatch; halted at a break (R330); dispatched; its work done
and waiting for completion. -/
inductive CmdState where
  | waiting
  | held
  | running
  | done
deriving DecidableEq, Repr

/-- A scoreboard region (R316): space (0 engine buffer of an engine, 1 room store, 2 accumulator slot, 3 tile
register of a bound slot), the engine it lies on, first and one-past-last unit, and whether it is written. -/
structure Region where
  space : Nat
  eng   : Nat
  lo    : Nat
  hi    : Nat
  wr    : Bool
deriving DecidableEq, Repr

/-- The states of an accumulator-memory slot (R218). -/
inductive AccState where
  | free | accum | held | drain
deriving DecidableEq, Repr

/-- An accumulator-memory slot (R209, R214, R218, R225): owner, anchor A, anchor raises, and for each cell
(128 × row + column) the integer V and the special flag (0 finite, 1 +∞, 2 −∞, 3 NaN). -/
structure AccSlot where
  st     : AccState
  owner  : Nat
  anchor : Int
  raises : Nat
  v      : FMap Int
  flag   : FMap Nat
deriving DecidableEq, Repr

/-- A FREE slot with the reset anchor −300 (R210, R225). A slot that returns to FREE takes this value at once: what ANCHOR and
RAISES show of a slot without a tile is the model's choice (assumption log 108). -/
def AccSlot.reset : AccSlot := { st := .free, owner := 0, anchor := -300, raises := 0, v := [], flag := [] }

/-- An accumulator slot being filled, with the exact registers of scale mode NONE and the segment they belong to
(R204, R205). -/
structure TileAcc where
  slot : AccSlot
  ex   : FMap Int
  exf  : FMap Nat
  seg  : Option Nat
deriving DecidableEq, Repr

/-- A tile about to be walked into a slot. -/
def TileAcc.begin (a : AccSlot) : TileAcc := { slot := a, ex := [], exf := [], seg := none }

/-- One instance of a MATMUL (R313): its number, the BASEs of A, B and OUT, its M, and batch of R216. -/
structure MmInst where
  ix    : Nat
  aBase : Int
  bBase : Int
  oBase : Int
  m     : Nat
  batch : Nat
deriving DecidableEq, Repr

/-- Where a MATMUL stands between two of its break points (R421): its instances; those finished, whether the next is judged and
whether a container that some instance names breaks R171; the tiles begun over the command and finished in the instance;
the runs of 16 K walked of a tile in progress, with its slot and its shadow; of the course, the encodings for top-k, the
verification sums, X and Y of a lintel and whether Y is formed; and whether the command waits for the floor stage, and for
that alone (R271). -/
structure MmProg where
  insts  : List MmInst
  inst   : Nat
  judged : Bool
  bad    : Bool
  tiles  : Nat
  done   : Nat
  pos    : Nat
  main   : TileAcc
  shad   : TileAcc
  conv   : FMap Nat
  kept   : FMap Num
  skip   : FMap Num
  xs     : FMap Nat
  ys     : FMap Nat
  rowed  : Bool
  wait   : Bool
  ended  : Bool
deriving DecidableEq, Repr

/-- A MATMUL before its first instance. -/
def MmProg.start (l : List MmInst) : MmProg :=
  { insts := l, inst := 0, judged := false, bad := false, tiles := 0, done := 0, pos := 0, main := TileAcc.begin AccSlot.reset,
    shad := TileAcc.begin AccSlot.reset, conv := [], kept := [], skip := [], xs := [], ys := [], rowed := false, wait := false,
    ended := false }

/-- A command held in a room, from delivery or copy to completion or fault. `undef` marks an illegal command that runs
on: its own output regions, its status word among them, are unspecified (R7, R8). `home` is the inbox of the CALL that issued
it (R250); `prog` is a MATMUL's progress. `dst` is the physical engine of a HALO's
destination, resolved at dispatch (R63); `badRec` says that its shape record uses a reserved encoding (R320); `passed` says that
its break is behind it (R330). -/
structure RoomCmd where
  seq       : Nat
  src       : Src
  ctx       : Nat
  desc      : BitVec 2048
  qidx      : Nat
  ord       : Nat
  depSat    : BitVec 4
  st        : CmdState
  eng       : Option Nat
  slot      : Nat
  dst       : Option Nat
  passed    : Bool
  tDispatch : Nat
  regions   : List Region
  aff       : BitVec 512
  shape     : Option (Nat × Nat × Nat)
  badRec    : Bool
  started   : Bool
  noWrite   : Bool
  undef     : Bool
  home      : Option Nat
  prog      : Option MmProg
  fault     : Option FaultInfo
deriving DecidableEq, Repr

/-- An inbox binding (R43, R44): the context last bound and whether it is bound. -/
structure Inbox where
  ctx   : Nat
  bound : Bool
deriving DecidableEq, Repr

/-- An issued descriptor on its way from data memory to the room (R356): the level of the call that issued it, its ticket,
the data-memory address, the bound engine and slot, the calling context, whether the level is firmware, and the inbox that the
CALL came through (R250). -/
structure IssueRead where
  level  : Nat
  ticket : Nat
  addr   : Nat
  eng    : Nat
  slot   : Nat
  ctx    : Nat
  fw     : Bool
  home   : Option Nat
deriving DecidableEq, Repr

/-- A commit-time action that leaves the pair and is held until its comparison (R366): a latch signal; the descriptor read
of an EISSUE; the binding of an ESEL, with its destination register and logical engine; a service routine's write to a room
register; the visibility of a TLOAD, by the number of its entry; the end of the CALL's routine with its status. -/
inductive HeldAct where
  | signal (op latch x : Nat)
  | read (i : IssueRead)
  | esel (gc le : Nat)
  | sys
  | tload (n : Nat)
  | ret (status : Nat)
deriving DecidableEq, Repr

/-- What a control core waits for (R339 HALTW, R352 EWAIT and LWAIT). -/
inductive CoreWait where
  | none
  | haltw
  | ewait (gc : Nat) (ticket : Nat)
  | lwait (gc : Nat) (latch : Nat) (kind : Nat) (x : Nat)
deriving DecidableEq, Repr

/-- The executing pair's registers and the top-level call they run (R337, R344, R345): g1 to g31, the program
counter as a byte offset, the bank, the return addresses of RCALL, privilege level, context, and the command
whose CALL it is. -/
structure CoreSt where
  g      : FMap W32
  pc     : Nat
  bank   : Nat
  stack  : List Nat
  fw     : Bool
  ctx    : Nat
  call   : Option Nat
  wait   : CoreWait
  active : Bool
deriving DecidableEq, Repr

/-- A core that runs nothing, every register clear (R345). -/
def CoreSt.idle : CoreSt :=
  { g := [], pc := 0, bank := 0, stack := [], fw := false, ctx := fwCtx, call := none, wait := .none,
    active := false }

/-- The coprocessor state of a top-level call (R355, R356): the bound engine and slot, the number of commands it has
issued, the tickets that ended with their STATE, and the status of a routine that returned and waits for its
commands (R346). -/
structure CallSt where
  eng     : Option Nat
  slot    : Nat
  issued  : Nat
  ended   : List (Nat × Nat)
  ret     : Option Nat
deriving DecidableEq, Repr

/-- The coprocessor state at the start of a top-level call. -/
def CallSt.fresh : CallSt := { eng := none, slot := 0, issued := 0, ended := [], ret := none }

/-- A TLOAD entry of the scoreboard (R359, R362): its number, tile register of a bound slot, the 16 bytes, and whether it
is committed and released (`some true`), squashed (`some false`) or neither. -/
structure TloadEnt where
  num    : Nat
  eng    : Nat
  slot   : Nat
  treg   : Nat
  data   : BitVec 128
  commit : Option Bool
deriving DecidableEq, Repr

/-- A physical room (R36, R315, R335 to R382). `reading` lists the issued descriptors whose read has not ended (R356);
`held` has for each committed instruction that the comparator has not compared the action that it holds (R366), and `delay` the
registers and data memory that it left, which the checker follows (R365). `core` and `dmem` are the main core's, `chkCore` and
`chkMem` the checker's, `spareMem` the spare's. `svcSaved` lists the interrupted routines, innermost first, and `svcStack` the
coprocessor states of the service entries among them (R349); `evDone` and `evLatch` are the pending events of a service entry.
`undef` says that the room's result is undefined, `undefSwap` that a bank has been swapped in since (R379). `gating` is an
accepted gate change still in progress (R565). -/
structure RoomSt where
  cmds      : List RoomCmd
  nextSeq   : Nat
  inboxes   : FMap Inbox
  prevCtx   : Option Nat
  core      : CoreSt
  chkCore   : CoreSt
  svcSaved  : List CoreSt
  callSt    : Option CallSt
  svcSt     : CallSt
  svcStack  : List CallSt
  evDone    : Bool
  evLatch   : Bool
  reading   : List IssueRead
  held      : List (Option HeldAct)
  delay     : List (CoreSt × FMap Byte)
  dmem      : FMap Byte
  chkMem    : FMap Byte
  spareMem  : FMap Byte
  bank0     : FMap Byte
  bank1     : FMap Byte
  checking  : Bool
  copied    : Bool
  outOfSvc  : List Nat
  tloads    : List TloadEnt
  nextTload : Nat
  store     : FMap Byte
  brkSeen   : Nat
  brkFired  : Bool
  gating    : Option Bool
  undef     : Bool
  undefSwap : Bool
deriving DecidableEq, Repr

/-- An inbox that no context is bound to. -/
def Inbox.free : Inbox := { ctx := 0, bound := false }

/-- A room after cold reset (R335, R380). -/
def RoomSt.reset : RoomSt :=
  { cmds := [], nextSeq := 0, inboxes := [], prevCtx := none, core := CoreSt.idle, chkCore := CoreSt.idle,
    svcSaved := [], callSt := none, svcSt := CallSt.fresh, svcStack := [], evDone := false, evLatch := false, reading := [],
    held := [], delay := [], dmem := [], chkMem := [], spareMem := [], bank0 := [], bank1 := [], checking := false,
    copied := false, outOfSvc := [], tloads := [], nextTload := 0, store := [], brkSeen := 0, brkFired := false, gating := none,
    undef := false, undefSwap := false }

/-- The states that a task slot shows (R444); `State.taskState` computes them. -/
inductive TaskState where
  | empty | ready | running | stalled | parked
deriving DecidableEq, Repr

/-- A task slot (R37, R200, R444): the context of its task, whether a task or a call holds it, whether the task's state lies in
the save frame, the sixteen tile registers and their shadows (R359), the room command it runs, and whether a call bound it
(R355). -/
structure TaskSlot where
  ctx   : Nat
  used  : Bool
  saved : Bool
  treg  : FMap (BitVec 128)
  shad  : FMap (BitVec 128)
  cmd   : Option Nat
  bound : Bool
deriving DecidableEq, Repr

/-- An empty task slot. -/
def TaskSlot.empty : TaskSlot :=
  { ctx := 0, used := false, saved := false, treg := [], shad := [], cmd := none, bound := false }

/-- What a stream block carries: elements of a code, the first begun `phase` bits before the block; scale bytes, other bytes of a
container, the read of a structure of the command, which moves nothing; scale bytes that no rule states; one fill request for an expert (R393). -/
inductive BlockKind where
  | data (code phase : Nat)
  | scale
  | raw
  | look
  | free
  | fill (x : Nat)
deriving DecidableEq, Repr

/-- A stream block (R397, R594): first bit of the device virtual address range, first bit of the range in the
engine buffer (space 0) or room store (space 1), the number of bits, and what they are. -/
structure Block where
  va    : Nat
  loc   : Nat
  nbits : Nat
  space : Nat
  kind  : BlockKind
deriving DecidableEq, Repr

/-- How an issued block reaches its memory: this package's memory or the host window; a cellar burst by its
sequence number (R416); a remote request by BSEQ (R481); a hit of the floor cache, with the bytes and poisoned beats that it holds
(R325). -/
inductive Reach where
  | here
  | cellar (port : Nat) (seq : Nat)
  | remote (bseq : Nat)
  | floor (data : List Byte) (bad : List Nat)
deriving DecidableEq, Repr

/-- The translation that an access used (R406): context, virtual address, first page and number of 4 KiB pages of its entry. -/
structure Used where
  ctx   : Nat
  va    : Nat
  vpn   : Nat
  pages : Nat
deriving DecidableEq, Repr

/-- An issued block: its number in the stream, the block, its physical bit address, how it travels and the translation it
used. -/
structure InFlight where
  k     : Nat
  blk   : Block
  pa    : Nat
  reach : Reach
  use   : Used
deriving DecidableEq, Repr

/-- A line of a floor cache (R325): the 4 KiB block that it holds, the context that retained it (none for a line outside the
retained partition), the pieces of the block that were read, newest first, and its poisoned 64-byte beats (R389). -/
structure Line where
  blk  : Nat
  keep : Option Nat
  data : List (Nat × List Byte)
  bad  : List Nat
deriving DecidableEq, Repr

/-- Why and where a stream is parked (R410, R412): the fault type, level, and the ticket once it has one. -/
structure Park where
  ty     : Nat
  level  : Nat
  ticket : Option Nat
deriving DecidableEq, Repr

/-- A stream of an engine (R397, R398, R411): the room command and task slot, direction, the blocks not yet
issued with the number of the first, those in flight, the park, whether a walk is in progress, whether the
stream was resumed and has not issued since (R424), the RETAIN and RELEASE flags (R325), whether its tensor is an
ashlar container (R463), and the region fault that its command meets after the last block (R203, R426). -/
structure Stream where
  id      : Nat
  cmd     : Nat
  slot    : Nat
  ctx     : Nat
  isWrite : Bool
  blocks  : List Block
  nextK   : Nat
  flight  : List InFlight
  park    : Option Park
  walking : Bool
  resumed : Bool
  retain  : Bool
  release : Bool
  ashlar  : Bool
  err     : Option FaultInfo
deriving DecidableEq, Repr

/-- An engine record on its way to the floor stage (R271). -/
structure EngineRec where
  slot   : Nat
  ctx    : Nat
  merge  : Nat
  token  : Nat
  gate   : Nat
  slab   : Nat
  anchor : Int
  v      : FMap Int
  flag   : FMap Nat
deriving DecidableEq, Repr

/-- A physical engine (R36): buffer with the writer of each byte plus one (R39), task slots, accumulator slots,
the active context, a requested switch (R420), streams and engine records. -/
structure EngSt where
  buf     : FMap Byte
  owner   : FMap Nat
  slots   : FMap TaskSlot
  acc     : FMap AccSlot
  active  : Option Nat
  wantSw  : Bool
  streams : List Stream
  nextId  : Nat
  recs    : List EngineRec
deriving DecidableEq, Repr

/-- An engine after cold reset. -/
def EngSt.reset : EngSt :=
  { buf := [], owner := [], slots := [], acc := [], active := none, wantSw := false, streams := [], nextId := 0,
    recs := [] }

/-- A cached translation (R402, R403): context, first page and number of 4 KiB pages, physical page, writable, and
whether the leaf is protected (R401). -/
structure Tlb where
  ctx   : Nat
  vpn   : Nat
  pages : Nat
  ppn   : Nat
  w     : Bool
  prot  : Bool
deriving DecidableEq, Repr

/-- A park ticket in use (R412): number, stream, the fault-ring record, and whether it has been written. -/
structure Ticket where
  num     : Nat
  stream  : StreamRef
  ctx     : Nat
  record  : BitVec 512
  written : Bool
deriving DecidableEq, Repr

/-- A larder fill queued or in progress (R394, R395): the expert, the ledger entry read at its start, and the sequence
number of its cellar burst (R396). -/
structure Fill where
  expert : Nat
  entry  : BitVec 256
  seq    : Nat
deriving DecidableEq, Repr

/-- A cellar burst that has not ended (R416): port, sequence number, stream and block, bytes due and received,
whether its data is whole. -/
structure Burst where
  port : Nat
  seq  : Nat
  strm : StreamRef
  k    : Nat
  need : Nat
  got  : Nat
deriving DecidableEq, Repr

/-- The translation and memory side (R383 to R417). A ledger cache lists context, expert and entry (R403); `lines` holds the
floor caches, most recently used line first. `locked` says that MEM_CTRL.EN has been one since cold reset (R442). -/
structure MemSt where
  mem      : FMap Byte
  poison   : FMap Bool
  roomTlb  : FMap (List Tlb)
  floorTlb : FMap (List Tlb)
  ledgerC  : FMap (List (Nat × Nat × BitVec 256))
  lines    : FMap (List Line)
  tickets  : List Ticket
  noTicket : List (StreamRef × BitVec 512)
  xfWait   : List Nat
  fills    : List Fill
  bursts   : List Burst
  burstSeq : Nat
  dead     : List Nat
  locked   : Bool
deriving DecidableEq, Repr

/-- A request raised at an arbiter (R434): input and requester behind it, beats of the burst, fabric cycle in which it was
raised, and whether its wait has reached the starvation limit (R439). -/
structure ArbReq where
  input   : Nat
  src     : ArbSource
  beats   : Nat
  cycle   : Nat
  starved : Bool
deriving DecidableEq, Repr

/-- An arbiter (R432 to R438, R443): pending requests, the input last granted in each class, the engine of its room last granted
at each input, the last owner and the cycle from which its burst is over, whether the grant is parked on it, the classes in
force before the last ARB_CLASS write with the cycle of that write (R438), and for each input the cycle after that of its last
CNT_CLR. -/
structure ArbSt where
  reqs     : List ArbReq
  lastIn   : FMap Nat
  lastEng  : FMap Nat
  owner    : Option Nat
  busyTo   : Nat
  isParked : Bool
  oldClass : W32
  classAt  : Nat
  clrAt    : FMap Nat
deriving DecidableEq, Repr

/-- An arbiter after cold reset: no request, no owner. -/
def ArbSt.reset : ArbSt :=
  { reqs := [], lastIn := [], lastEng := [], owner := none, busyTo := 0, isParked := false, oldClass := 0x00555555#32,
    classAt := 0, clrAt := [] }

/-- A merge record (R272): contributions, 128 accumulators as multiples of 2^-160 and their flags. -/
structure MergeRec where
  ctx   : Nat
  key   : MergeKey
  count : Nat
  acc   : FMap Int
  flag  : FMap Nat
deriving DecidableEq, Repr

/-- An open merge (R268, R269): the MORTAR_OPEN command, its context and tag, the merge control block, the
contributions received, the package-stage entries of the mortar area and the rows already written. `bad` says that its result
is undefined (R279). -/
structure Merge where
  cmd     : CmdRef
  ctx     : Nat
  mtag    : Nat
  mcb     : BitVec 512
  got     : Nat
  entries : List MergeRec
  written : List (Nat × Nat)
  bad     : Bool
deriving DecidableEq, Repr

/-- The mortar tree (R274): the tables of the six floor stages and two die stages (least recently updated first),
the records that wait at each die stage and at the package stage, and the open merges. -/
structure MortarSt where
  floorTab : FMap (List MergeRec)
  dieTab   : FMap (List MergeRec)
  dieIn    : FMap (List MergeRec)
  pkgIn    : List MergeRec
  merges   : FMap (Option Merge)
deriving DecidableEq, Repr

/-- A Lorlink message (R460): header fields, data, its VC, the local block that awaits the response, the flit buffers of a
receiving port that it holds (R465), and for a queued one: whether a route invalidation waits for it (R449), the flits of it
sent, the data bytes still to arrive at a forwarding package, and the port whose buffers it holds there (R448). -/
structure Msg where
  mtype  : Nat
  ptag   : Nat
  src    : Nat
  dst    : Nat
  hops   : Nat
  stag   : Nat
  bseq   : Nat
  addr   : Nat
  ctx    : Nat
  orig   : Nat
  aux    : Nat
  data   : List Byte
  vc     : Nat
  origin : Option (StreamRef × Nat)
  held   : Nat
  old    : Bool
  sent   : Nat
  left   : Nat
  via    : Option Nat
deriving DecidableEq, Repr

/-- What becomes of the bytes of an arriving message: held for this package (R477), forwarded as they come (R448), or
dropped (R451). -/
inductive Course where
  | here | onward | dropped
deriving DecidableEq, Repr

/-- A message whose last byte has not arrived (R477): bytes so far and bytes due, flit buffers held, where it goes. -/
structure Partial where
  bytes  : List Byte
  need   : Nat
  flits  : Nat
  course : Course
deriving DecidableEq, Repr

/-- A Lorlink port (R452 to R468, R472): next SEQ to send and to expect, whether anything was accepted, the replay buffer,
credits held, credits returned and the partner's count of them, a NAK not yet answered, the ACK of the last NAK and how many
carried it, the egress queue, partial and received messages, corrected bytes of the last millisecond by lane and time, lanes
that caused a retrain, lanes marked failed, lanes that passed the eye check, the neighbour of the last LIVE with its instance
value, and the wall handshake: passed, or failed and waiting to retry. -/
structure PortSt where
  txSeq     : Nat
  rxSeq     : Nat
  rxAny     : Bool
  replay    : List (Nat × Flit)
  credit    : FMap Nat
  cum       : FMap Nat
  partnerCr : FMap Nat
  nakWait   : Bool
  nakAck    : Nat
  nakRun    : Nat
  egress    : List Msg
  parts     : FMap (Option Partial)
  rx        : List Msg
  fecLog    : List (Nat × Nat)
  badLanes  : BitVec 18
  failed    : BitVec 18
  passed    : BitVec 18
  lastNbr   : Option (Nat × W32)
  wallOk    : Bool
  wallFail  : Bool
deriving DecidableEq, Repr

/-- A port that has not trained since cold reset. -/
def PortSt.reset : PortSt :=
  { txSeq := 0, rxSeq := 0, rxAny := false, replay := [], credit := [], cum := [], partnerCr := [], nakWait := false,
    nakAck := 0, nakRun := 0, egress := [], parts := [], rx := [], fecLog := [], badLanes := 0, failed := 0, passed := 0,
    lastNbr := none, wallOk := false, wallFail := false }

/-- The party wall (R490 to R497): writes captured in the open epoch, epochs closed and not acknowledged with
their writes, the log of incoming epochs (epoch, address, bytes), the copy epoch of a resynchronisation, TAKEOVER, and the partner's
instance value when the wall last was MIRROR. -/
structure WallSt where
  openW    : List (Nat × List Byte)
  sent     : List (Nat × List (Nat × List Byte))
  log      : List (Nat × Nat × List Byte)
  copyE    : Option Nat
  takeover : Bool
  inst     : W32
deriving DecidableEq, Repr

/-- A write of a status word whose WR_ACK is awaited: package, BSEQ and the translation it used (R406, R482). -/
structure AckWait where
  pkg  : Nat
  bseq : Nat
  use  : Used
deriving DecidableEq, Repr

/-- A prefetch whose RD_RSP is awaited (R361): package, BSEQ, and the floor and block that it fills. -/
structure Prefetch where
  pkg  : Nat
  bseq : Nat
  fl   : Nat
  blk  : Nat
deriving DecidableEq, Repr

/-- The Lorlink side: ports, originated messages not yet routed, BSEQ counters by destination × 8 + VC, the writes of status
words and the prefetches whose response is awaited, floor copies of ROUTE entries (R449), and the wall. -/
structure LinkSt where
  ports   : FMap PortSt
  out     : List Msg
  bseq    : FMap Nat
  acks    : List AckWait
  fetches : List Prefetch
  routeC  : FMap (Option W32)
  wall    : WallSt
deriving DecidableEq, Repr

/-- Why the package is held in reset: it runs; cold reset; clock loss latched (R550); thermal trip latched
(R575). -/
inductive Hold where
  | up | cold | clock | trip
deriving DecidableEq, Repr

/-- A power-state transition in progress (R559): target, the state before the command, and on the way to RETAIN whether the
rings and the open epoch have been closed after the drain (R562). -/
structure PwrTrans where
  target : Nat
  origin : Nat
  closed : Bool
deriving DecidableEq, Repr

/-- Power, clocks and reset (R547 to R596): why the package is held in reset, THERMTRIP_N asserted, RESET_N asserted, a
transition in progress, firmware streams halted for RETAIN. -/
structure PwrSt where
  hold      : Hold
  thermtrip : Bool
  resetN    : Bool
  trans     : Option PwrTrans
  fwHalt    : Bool
deriving DecidableEq, Repr

/-- Boot (R532 to R536, R581): the boot flash, the directory copy and slot booted, the firmware's routine image,
the versions of identity items 0x03 and 0x04, the instance value (R472). -/
structure BootSt where
  flash   : FMap Byte
  dirCopy : Nat
  slotB   : Bool
  image   : FMap Byte
  imageOk : Bool
  fwVer   : W32 × W32
  repair  : W32
  inst    : W32
deriving DecidableEq, Repr

/-- A context command in progress (R520, R525). -/
inductive CtxOp where
  | create (c : CtxId)
  | destroy (c : CtxId)
deriving DecidableEq, Repr

/-- What the device sends out. -/
inductive Out where
  | readData (r : Req) (v : W32)
  | pageRead (p : DbPage) (v : Nat)
  | vfRead (v : Fin 256) (w : W32)
  | memRead (f : Func) (data : List Byte)
  | msix (f : Func) (vec : Nat)
  | flit (q : PortIx) (f : Flit)
  | nakFlit (q : PortIx) (ack : Nat) (valid : Bool)
  | abortFlit (q : PortIx) (vc cseq : Nat)
  | mctp (b : MBus) (cc : Nat) (data : List Byte)
  | pldm (b : MBus) (cc : Nat) (data : List Byte)
  | fwRequest (b : MBus) (off len : Nat)
  | event (eid : Byte) (sensor value : Nat)
  | mgmtIrq (room : Nat)
  | tdo (v : W64)
  | rings (g : RingIx) (biased : Bool)
deriving DecidableEq, Repr

/-- A host access through BAR4 that waits while the mirror queue is full (R494, R505): function, offset, the bytes of a
write, and the number of bytes. -/
structure BarAcc where
  fn    : Func
  off   : Nat
  wdata : Option (List Byte)
  n     : Nat
deriving DecidableEq, Repr

/-- The host boundary (R502 to R528): link, VF enables, functions in D3hot, MSI-X vectors inside an interval and those with
merged events that wait for its end (R517), the VFs' MSI-X tables, the context command in progress, the contexts that a
function-level reset still tears down (R525), and BAR4 accesses that wait (R494). -/
structure HostSt where
  linkUp  : Bool
  vfEn    : Bool
  numVfs  : Nat
  d3hot   : FMap Bool
  msixOn  : List (Func × Nat)
  msixPnd : List (Func × Nat)
  vfRegs  : FMap W32
  ctxOp   : Option CtxOp
  flr     : List Nat
  barWait : List BarAcc
deriving DecidableEq, Repr

/-- The steps of a PLDM firmware update (R539, R542; states of the DMTF firmware update model, log 20). -/
inductive UpdSt where
  | idle | learn | ready | download | verify | apply
deriving DecidableEq, Repr

/-- The management endpoint (R537 to R542): endpoint and terminus IDs, the event receiver, disabled sensors, the firmware
update, the state last seen of each state sensor, sensors inside a merge interval and those that changed in it, and the
SMB_ADDR straps. -/
structure MgmtSt where
  eid      : Byte
  tid      : Byte
  evOn     : Byte
  evEid    : Byte
  senOff   : FMap Nat
  upd      : UpdSt
  lastSent : FMap Nat
  merging  : List Nat
  pendingE : List Nat
  straps   : Nat
deriving DecidableEq, Repr

/-- The test access port (R543 to R545): instruction register and boundary-scan cells. -/
structure JtagSt where
  ir    : Byte
  cells : W64
deriving DecidableEq, Repr

/-- The machine. `pending` is the queue of commands, first in first out. `freeCtr` numbers the free values drawn
so far: it is the model's own field, not the manual's. -/
structure State where
  pending  : List Instr
  freeCtr  : Nat
  ts       : W64
  regs     : FMap W32
  staged   : FMap (Option Nat)
  pwrites  : List PWrite
  mboxBusy : FMap Bool
  sealer   : SealSt
  latches  : FMap W32
  ctxs     : FMap Ctx
  rrLast   : Nat
  rrLeft   : Nat
  nextOrd  : Nat
  rooms    : FMap RoomSt
  engs     : FMap EngSt
  ms       : MemSt
  arbs     : FMap ArbSt
  mo       : MortarSt
  link     : LinkSt
  pwr      : PwrSt
  boot     : BootSt
  hs       : HostSt
  mg       : MgmtSt
  jtag     : JtagSt
  outbox   : List Out
deriving DecidableEq, Repr

/-- Memory side after cold reset. -/
def MemSt.reset : MemSt :=
  { mem := [], poison := [], roomTlb := [], floorTlb := [], ledgerC := [], lines := [], tickets := [],
    noTicket := [], xfWait := [], fills := [], bursts := [], burstSeq := 0, dead := [], locked := false }

/-- Mortar tree after cold reset. -/
def MortarSt.reset : MortarSt := { floorTab := [], dieTab := [], dieIn := [], pkgIn := [], merges := [] }

/-- Party wall after cold reset. -/
def WallSt.reset : WallSt := { openW := [], sent := [], log := [], copyE := none, takeover := false, inst := 0 }

/-- Lorlink after cold reset. -/
def LinkSt.reset : LinkSt :=
  { ports := [], out := [], bseq := [], acks := [], fetches := [], routeC := [], wall := WallSt.reset }

/-- Host boundary after cold reset: the link is down until the endpoint trains (R502, R581). -/
def HostSt.reset : HostSt :=
  { linkUp := false, vfEn := false, numVfs := 0, d3hot := [], msixOn := [], msixPnd := [], vfRegs := [],
    ctxOp := none, flr := [], barWait := [] }

/-- The management endpoint after cold reset. -/
def MgmtSt.reset : MgmtSt :=
  { eid := 0, tid := 0, evOn := 0, evEid := 0, senOff := [], upd := .idle, lastSent := [],
    merging := [], pendingE := [], straps := 0 }

/-- The machine right after a power-on reset: every register at its reset value, every memory empty, the package
held in cold reset until COLD_RESET_RELEASE (R577, R581). -/
def State.reset : State :=
  { pending := [], freeCtr := 0, ts := 0, regs := [], staged := [], pwrites := [], mboxBusy := [],
    sealer := { sweep := none, commit := none, holdCount := 0 }, latches := [], ctxs := [], rrLast := 2047,
    rrLeft := 0, nextOrd := 0, rooms := [], engs := [], ms := MemSt.reset, arbs := [], mo := MortarSt.reset,
    link := LinkSt.reset,
    pwr := { hold := .cold, thermtrip := false, resetN := true, trans := none, fwHalt := false },
    boot := { flash := [], dirCopy := 0, slotB := false, image := [], imageOk := false, fwVer := (0, 0),
              repair := 0, inst := 0 },
    hs := HostSt.reset, mg := MgmtSt.reset, jtag := { ir := 0x02, cells := 0 }, outbox := [] }

end Sys2Proof.Machine
end

