-- ==== Sys2Proof/Machine/Ops.lean ====
section
/-! DEFINITION. The named operations over registers, units, physical memory, interrupts, the flue ring and latches.
Every command reads and writes the state through these. -/

namespace Sys2Proof.Machine

/-! ### Free values -/

/-- Draws a free value (R5, R7, R402; assumption log 3). -/
def State.draw (s : State) : Nat × State := (Config.freeNat s.freeCtr, { s with freeCtr := s.freeCtr + 1 })

/-! ### Registers -/

/-- `n` with the `w` bits at `lsb` replaced by `x` (R20). -/
def setBitsNat (n lsb w x : Nat) : Nat :=
  n % 2 ^ lsb + 2 ^ lsb * (x % 2 ^ w + 2 ^ w * (n / 2 ^ (lsb + w)))

/-- The applied value of the register at `key`. -/
def State.reg (s : State) (key : Nat) : W32 := s.regs.get RegMap.resetOf key

/-- Replaces the applied value of the register at `key`. -/
def State.setReg (s : State) (key : Nat) (v : W32) : State := { s with regs := s.regs.set RegMap.resetOf key v }

/-- The value of a register field. -/
def State.fget (s : State) (f : Fld) : Nat := bitsAt (s.reg f.off).toNat f.lsb f.width

/-- A one-bit field as a Bool. -/
def State.flag (s : State) (f : Fld) : Bool := s.fget f == 1

/-- Sets a register field; the register's other bits stay. -/
def State.fset (s : State) (f : Fld) (x : Nat) : State :=
  s.setReg f.off (BitVec.ofNat 32 (setBitsNat (s.reg f.off).toNat f.lsb f.width x))

/-- Adds `n` to a counter field modulo its width. -/
def State.count (s : State) (f : Fld) (n : Nat) : State := s.fset f (s.fget f + n)

/-- Adds `n` to a saturating counter field. -/
def State.countSat (s : State) (f : Fld) (n : Nat) : State := s.fset f (satAdd (2 ^ f.width - 1) (s.fget f) n)

/-- ORs bits into a status field. -/
def State.forBits (s : State) (f : Fld) (x : Nat) : State := s.fset f (s.fget f ||| x)

/-- The register bank of a requester (R118, R301). -/
def reqBank : Req → Nat
  | .host => 0
  | .mgmt => bankStride

/-- 0 for the host, 1 for the management core (R99). -/
def reqCode : Req → Nat
  | .host => 0
  | .mgmt => 1

/-- A field in the copy of a requester. -/
def Fld.forReq (f : Fld) (r : Req) : Fld := { f with off := f.off + reqBank r }

/-! ### Units -/

/-- The context `c` (R519). -/
def State.ctx (s : State) (c : Nat) : Ctx := s.ctxs.get (fun _ => Ctx.none) c

/-- Replaces context `c`. -/
def State.setCtx (s : State) (c : Nat) (x : Ctx) : State := { s with ctxs := s.ctxs.set (fun _ => Ctx.none) c x }

/-- Physical room `r`. -/
def State.room (s : State) (r : Nat) : RoomSt := s.rooms.get (fun _ => RoomSt.reset) r

/-- Replaces physical room `r`. -/
def State.setRoom (s : State) (r : Nat) (x : RoomSt) : State :=
  { s with rooms := s.rooms.set (fun _ => RoomSt.reset) r x }

/-- Physical engine `e`. -/
def State.eng (s : State) (e : Nat) : EngSt := s.engs.get (fun _ => EngSt.reset) e

/-- Replaces physical engine `e`. -/
def State.setEng (s : State) (e : Nat) (x : EngSt) : State :=
  { s with engs := s.engs.set (fun _ => EngSt.reset) e x }

/-- Task slot `n` of an engine. -/
def EngSt.slot (x : EngSt) (n : Nat) : TaskSlot := x.slots.get (fun _ => TaskSlot.empty) n

/-- Replaces task slot `n`. -/
def EngSt.setSlot (x : EngSt) (n : Nat) (t : TaskSlot) : EngSt :=
  { x with slots := x.slots.set (fun _ => TaskSlot.empty) n t }

/-- Accumulator slot `n` of an engine. -/
def EngSt.accSlot (x : EngSt) (n : Nat) : AccSlot := x.acc.get (fun _ => AccSlot.reset) n

/-- Replaces accumulator slot `n`. -/
def EngSt.setAcc (x : EngSt) (n : Nat) (a : AccSlot) : EngSt :=
  { x with acc := x.acc.set (fun _ => AccSlot.reset) n a }

/-- Tile register t of a task slot; zero until loaded (R200). -/
def TaskSlot.tile (t : TaskSlot) (i : Nat) : BitVec 128 := t.treg.get (fun _ => 0) i

/-- Loads tile register i of a task slot. -/
def TaskSlot.setTile (t : TaskSlot) (i : Nat) (v : BitVec 128) : TaskSlot :=
  { t with treg := t.treg.set (fun _ => 0) i v }

/-- The command of a room with a sequence number. -/
def RoomSt.find (x : RoomSt) (seq : Nat) : Option RoomCmd := x.cmds.find? fun c => c.seq == seq

/-- Lorlink port `q`. -/
def State.port (s : State) (q : Nat) : PortSt := s.link.ports.get (fun _ => PortSt.reset) q

/-- Replaces Lorlink port `q`. -/
def State.setPort (s : State) (q : Nat) (p : PortSt) : State :=
  { s with link := { s.link with ports := s.link.ports.set (fun _ => PortSt.reset) q p } }

/-- Arbiter `a`. -/
def State.arb (s : State) (a : Nat) : ArbSt := s.arbs.get (fun _ => ArbSt.reset) a

/-- Replaces arbiter `a`. -/
def State.setArb (s : State) (a : Nat) (x : ArbSt) : State := { s with arbs := s.arbs.set (fun _ => ArbSt.reset) a x }

/-- Appends to what the device sends out. -/
def State.emit (s : State) (o : Out) : State := { s with outbox := s.outbox ++ [o] }

/-- Die, floor and room of a physical room index. -/
def roomDie (r : Nat) : Nat := r / 15
/-- Floor (die × 3 + floor) of a physical room index. -/
def roomFloor (r : Nat) : Nat := r / 5
/-- Physical room of a physical engine index. -/
def engRoom (e : Nat) : Nat := e / 5
/-- Floor (die × 3 + floor) of a physical engine index. -/
def engFloor (e : Nat) : Nat := e / 25
/-- Die of a physical engine index. -/
def engDie (e : Nat) : Nat := e / 75

/-- A physical engine in PLACE encoding (R291, R324): die, floor, room, engine. -/
def physPlace (e : Nat) : Nat := e / 75 + e % 75 / 25 * 2 + e % 25 / 5 * 8 + e % 5 * 64

/-- A physical room in PLACE encoding with engine 0. -/
def roomPlace (r : Nat) : Nat := physPlace (r * 5)

/-! ### Remap, fence, capacity (R63 to R76, R595) -/

/-- The physical index behind position `i` of a remap register at `off`: fields 0 to 3. -/
def State.mapped (s : State) (off i : Nat) : Nat := bitsAt (s.reg off).toNat (3 * i) 3

/-- The FENCED bits of a remap register. -/
def State.fencedBits (s : State) (off : Nat) : Nat := bitsAt (s.reg off).toNat 16 5

/-- SPARE_PHYS: the physical index that is neither mapped nor fenced, 7 if there is none (R66). -/
def State.sparePhys (s : State) (off : Nat) : Nat :=
  match (List.range 5).find? fun p =>
    !((List.range 4).any fun i => s.mapped off i == p) && !bitAt (s.fencedBits off) p with
  | some p => p
  | none => 7

/-- The physical index behind logical index `i` (R63, R64); none for index 4 without a spare and beyond. -/
def State.physOf (s : State) (off i : Nat) : Option Nat :=
  if i < 4 then some (s.mapped off i)
  else if i = 4 then (if s.sparePhys off = 7 then none else some (s.sparePhys off))
  else none

/-- The physical room behind logical room `lr` of floor `f`. -/
def State.physRoom (s : State) (f lr : Nat) : Option Nat := (s.physOf (Off.FLOOR_REMAP f) lr).map (f * 5 + ·)

/-- The physical engine behind logical engine `le` of physical room `r`. -/
def State.physEng (s : State) (r le : Nat) : Option Nat := (s.physOf (Off.ENGINE_REMAP r) le).map (r * 5 + ·)

/-- Die `d` is not fenced (R76). -/
def State.dieUp (s : State) (d : Nat) : Bool := bitAt (s.reg Off.PKG_CAPACITY).toNat (13 + d)

/-- Physical room `r` is fenced. -/
def State.roomFenced (s : State) (r : Nat) : Bool := bitAt (s.fencedBits (Off.FLOOR_REMAP (roomFloor r))) (r % 5)

/-- Physical engine `e` is fenced. -/
def State.engFenced (s : State) (e : Nat) : Bool := bitAt (s.fencedBits (Off.ENGINE_REMAP (engRoom e))) (e % 5)

/-- A fence of physical room `r` is requested or set (R72). -/
def State.roomFenceReq (s : State) (r : Nat) : Bool :=
  bitAt (s.fget (F.ROOM_FENCE.FENCE_REQ (roomFloor r))) (r % 5)

/-- A fence of physical engine `e` is requested or set (R72). -/
def State.engFenceReq (s : State) (e : Nat) : Bool :=
  bitAt (s.fget (F.ENGINE_FENCE.FENCE_REQ (engRoom e))) (e % 5)

/-- Physical room `r` is gated (R565). -/
def State.roomGated (s : State) (r : Nat) : Bool := bitAt (s.fget (F.ROOM_PWR.GATED (roomFloor r))) (r % 5)

/-- Physical room `r` is out of service for gating: from the acceptance of a gating until an ungating ends (R595). -/
def State.roomOut (s : State) (r : Nat) : Bool := s.roomGated r || (s.room r).gating == some true

/-- Logical room `lr` (0 to 3) of floor `f` is in service (R76, R566). -/
def State.roomInService (s : State) (f lr : Nat) : Bool :=
  s.dieUp (f / 3) &&
    match s.physRoom f lr with
    | some r => !s.roomFenced r && !s.roomOut r
    | none => false

/-- PKG_CAPACITY.ROOMS: logical rooms in service (R76). -/
def State.capRooms (s : State) : Nat :=
  ((List.range 6).map fun f => ((List.range 4).filter fun lr => s.roomInService f lr).length).sum

/-- PKG_CAPACITY.ENGINES: logical engine positions in service (R76). -/
def State.capEngines (s : State) : Nat :=
  ((List.range 6).map fun f => ((List.range 4).map fun lr =>
    if s.roomInService f lr then
      match s.physRoom f lr with
      | some r => ((List.range 4).filter fun le =>
          match s.physEng r le with
          | some e => !s.engFenced e
          | none => false).length
      | none => 0
    else 0).sum).sum

/-! ### Interrupts (R513 to R518) -/

/-- What an unlisted register of the VFs' MSI-X tables reads as: the vectors masked, the rest zero. -/
def vfRegReset (key : Nat) : W32 :=
  if 0x8000 ≤ key % 0x10000 ∧ key % 0x10000 < 0x8080 ∧ key % 16 = 12 then 1 else 0

/-- The number of MSI-X vectors of a function (R513, R509). -/
def funcVectors : Func → Nat
  | .pf => 2048
  | .vf _ => 8

/-- The function with number n of a context-table entry: 0 the PF, n VF n (R519). -/
def funcOf (n : Nat) : Func := if h : 1 ≤ n ∧ n ≤ 256 then .vf ⟨n - 1, by omega⟩ else .pf

/-- Whether a vector is masked in its MSI-X table (R513). -/
def State.vecMasked (s : State) (f : Func) (vec : Nat) : Bool :=
  match f with
  | .pf => s.flag (F.MSIX_CTRL.MASK vec)
  | .vf v => (s.hs.vfRegs.get vfRegReset (v.val * 0x10000 + 0x8000 + vec * 16 + 12)).toNat % 2 == 1

/-- Sets or clears a vector's pending bit (R513). -/
def State.setPba (s : State) (f : Func) (vec : Nat) (on : Bool) : State :=
  match f with
  | .pf => s.fset { off := Off.MSIX_PBA (vec / 32), lsb := vec % 32, width := 1 } (b2n on)
  | .vf v =>
    let key := v.val * 0x10000 + 0x9000
    let v := BitVec.ofNat 32 (setBitsNat (s.hs.vfRegs.get vfRegReset key).toNat (vec % 32) 1 (b2n on))
    { s with hs := { s.hs with vfRegs := s.hs.vfRegs.set vfRegReset key v } }

/-- A vector's pending bit. -/
def State.pba (s : State) (f : Func) (vec : Nat) : Bool :=
  match f with
  | .pf => bitAt (s.reg (Off.MSIX_PBA (vec / 32))).toNat (vec % 32)
  | .vf v => bitAt (s.hs.vfRegs.get vfRegReset (v.val * 0x10000 + 0x9000)).toNat (vec % 32)

/-- Sends one MSI-X message of an unmasked vector while the link is up; a masked vector becomes pending; while the
link is down nothing is sent (R507, R513). -/
def State.sendMsix (s : State) (f : Func) (vec : Nat) : State :=
  if !s.hs.linkUp then s
  else if s.vecMasked f vec then s.setPba f vec true
  else s.emit (.msix f vec)

/-- Signals a vector: at once when no interval of it is open, and then an interval opens; otherwise the event is
merged into the message at the interval's end (R517). -/
def State.signal (s : State) (f : Func) (vec : Nat) : State :=
  if s.hs.msixOn.contains (f, vec) then
    { s with hs := { s.hs with msixPnd := if s.hs.msixPnd.contains (f, vec) then s.hs.msixPnd
                                          else s.hs.msixPnd ++ [(f, vec)] } }
  else
    let s1 := s.sendMsix f vec
    { s1 with hs := { s1.hs with msixOn := s1.hs.msixOn ++ [(f, vec)] } }

/-- Raises package event `i`: sets PKG_IRQ_STATUS bit i and signals PF vector i when PKG_IRQ_EN bit i is one (R515). -/
def State.pkgEvent (s : State) (i : Nat) : State :=
  let s1 := s.forBits F.PKG_IRQ_STATUS.EVENTS (2 ^ i)
  if bitAt (s.fget F.PKG_IRQ_EN.EN) i then s1.signal .pf i else s1

/-- Package event numbers of R515. -/
def evPkgFault : Nat := 0
/-- XF event (R515). -/
def evXf : Nat := 1
/-- ARB event (R515). -/
def evArb : Nat := 2
/-- LORLINK event (R515). -/
def evLorlink : Nat := 3
/-- WALL event (R515). -/
def evWall : Nat := 4
/-- POWER event (R515). -/
def evPower : Nat := 5
/-- FLUE event (R515). -/
def evFlue : Nat := 6
/-- CTX event (R515). -/
def evCtx : Nat := 7

/-- ALERT_N is asserted: SEAL_STATUS.FAULT, or an enabled package event, or a latched clock loss (R518, R550). -/
def State.alertAsserted (s : State) : Bool :=
  s.flag F.SEAL_STATUS.FAULT || (s.fget F.PKG_IRQ_STATUS.EVENTS &&& s.fget F.ALERT_EN.EN) != 0 ||
    s.pwr.hold == .clock

/-- Interrupts the management core about a room (R329, R330, R371). -/
def State.mgmtIrq (s : State) (r : Nat) : State := s.emit (.mgmtIrq r)

/-! ### Physical memory (R383, R384, R389, R490) -/

/-- The end of HBM: 384 GiB (R383). -/
def hbmEnd : Nat := 0x6000000000
/-- The base of the remote windows (R383). -/
def remoteBase : Nat := 0x800000000000
/-- The base of the host window (R383). -/
def hostBase : Nat := 0xC00000000000

/-- The package number of a remote-window address. -/
def remotePkg (a : Nat) : Nat := (a - remoteBase) / 0x10000000000
/-- The offset within a remote window. -/
def remoteOff (a : Nat) : Nat := (a - remoteBase) % 0x10000000000
/-- Whether an address lies in a remote window. -/
def isRemote (a : Nat) : Bool := decide (remoteBase ≤ a) && decide (a < hostBase)

/-- This package's number (R500). -/
def State.pkgNum (s : State) : Nat := s.fget F.RING_CFG.PKG

/-- An address in this package's own remote window is its own HBM (R384). -/
def State.foldAddr (s : State) (a : Nat) : Nat :=
  if isRemote a && remotePkg a == s.pkgNum then remoteOff a else a

/-- A remote window of another package: reached over Lorlink (R481). -/
def State.isFar (s : State) (a : Nat) : Bool := isRemote a && remotePkg a != s.pkgNum

/-- Whether memory backs a folded address that is not in another package: HBM, populated cellar, host window while
the link is up (R383, R384, R507). -/
def State.backed (s : State) (a : Nat) : Bool :=
  decide (a < hbmEnd) ||
  (decide (0x100000000000 ≤ a) && decide (a < 0x140000000000) &&
    (let p := (a - 0x100000000000) / 0x20000000000
     s.flag (F.CXL_STATUS.DEV_OK p) &&
       decide ((a - 0x100000000000) % 0x20000000000 < s.fget (F.CXL_SIZE.SIZE p) * 0x10000000))) ||
  (decide (hostBase ≤ a) && decide (a < 0x1000000000000) && s.hs.linkUp)

/-- Reads a byte of physical memory; unbacked addresses read zero (R384). -/
def State.physByte (s : State) (a : Nat) : Byte :=
  let f := s.foldAddr a
  if s.backed f then Mem.byte s.ms.mem f else 0

/-- The little-endian value of `n` physical bytes. -/
def State.physLe (s : State) (a n : Nat) : Nat := leOfList ((List.range n).map fun i => s.physByte (a + i))

/-- Memory backs every byte of a range of folded addresses. -/
def State.backedAll (s : State) (f n : Nat) : Bool := (List.range n).all fun i => s.backed (f + i)

/-- Sets MEM_STATUS.UNBACKED when some byte of the range is unbacked (R384). -/
def State.noteRange (s : State) (a n : Nat) : State :=
  if s.backedAll (s.foldAddr a) n then s else s.fset F.MEM_STATUS.UNBACKED 1

/-! ### Where HBM keeps an address (R385, R386) -/

/-- The stack that serves an HBM address (R385). -/
def hbmStack (a : Nat) : Nat := a / 2 ^ 12 % 8
/-- The logical pseudo-channel of its stack (R385). -/
def hbmChannel (a : Nat) : Nat := a / 2 ^ 15 % 64
/-- The offset within the pseudo-channel (R385). -/
def hbmOffset (a : Nat) : Nat := a / 2 ^ 21 * 2 ^ 12 + a % 4096

/-- The HBM address of an offset within a logical pseudo-channel of a stack: the inverse of R385. -/
def hbmAddr (stack ch off : Nat) : Nat := off / 4096 * 2 ^ 21 + ch * 2 ^ 15 + stack * 2 ^ 12 + off % 4096

/-- The physical pseudo-channel behind a logical one: a spare that HBM_PC_REMAP enables for it, else the one of the same number
(R386). -/
def State.hbmPhysical (s : State) (stack ch : Nat) : Nat :=
  if s.flag (F.HBM_PC_REMAP.SP0_EN stack) && s.fget (F.HBM_PC_REMAP.SP0_FOR stack) == ch then 64
  else if s.flag (F.HBM_PC_REMAP.SP1_EN stack) && s.fget (F.HBM_PC_REMAP.SP1_FOR stack) == ch then 65
  else ch

/-- The index of the package arbiter that serves a folded address: that of its HBM stack or of its cellar port (R385, R432); none
for an address outside both. -/
def pkgArbiter (a : Nat) : Option Nat :=
  if a < hbmEnd then some (6 + hbmStack a)
  else if 0x100000000000 ≤ a ∧ a < 0x140000000000 then some (14 + (a - 0x100000000000) / 0x20000000000)
  else none

/-- Party-wall window `n` covers HBM address `a` (R142, R490). -/
def State.inWindow (s : State) (n a : Nat) : Bool :=
  let b := s.fget (F.PW_BASE.BASE n) * 0x200000
  decide (b ≤ a) && decide (a < b + s.fget (F.PW_SIZE.SIZE n) * 0x200000)

/-- Some party-wall window covers the address. -/
def State.inWall (s : State) (a : Nat) : Bool := (List.range 8).any fun n => s.inWindow n a

/-- STATE of a port. -/
def State.portState (s : State) (q : Nat) : Nat := s.fget (F.PORT_STATE.STATE q)

/-- A port is LIVE. -/
def State.isLive (s : State) (q : Nat) : Bool := s.portState q == 7

/-- The wall state (R501): 0 OFF; 1 STALE; 2 RESYNC; 3 MIRROR; 4 GRACE. -/
def State.wallState (s : State) : Nat := s.fget F.PW_STATUS.STATE

/-- The package is an effective keeper: KEEPER or TAKEOVER (R489, R497). -/
def State.keeperEff (s : State) : Bool := s.flag F.PW_ROLE.KEEPER || s.link.wall.takeover

/-- Writes to windows are blocked: STALE or RESYNC on a package that is not an effective keeper (R495). -/
def State.wallBlocks (s : State) (a n : Nat) : Bool :=
  (s.wallState == 1 || s.wallState == 2) && !s.keeperEff && s.flag F.PW_ROLE.WALL_EN &&
    (List.range n).any fun i => decide (s.foldAddr (a + i) < hbmEnd) && s.inWall (s.foldAddr (a + i))

/-- The writes to a window that are captured: in MIRROR and GRACE on both sides, and in RESYNC on the keeper (R490,
R496). -/
def State.wallCaptures (s : State) : Bool :=
  s.wallState == 3 || s.wallState == 4 || (s.wallState == 2 && s.keeperEff)

/-- BSEQ of the next message to `dst` on `vc`, and the counter advanced (R460). -/
def State.nextBseq (s : State) (dst vc : Nat) : Nat × State :=
  let k := dst * 8 + vc
  let n := s.link.bseq.get (fun _ => 0) k
  (n, { s with link := { s.link with bseq := s.link.bseq.set (fun _ => 0) k ((n + 1) % 2 ^ 32) } })

/-- A message of this package that waits to be routed (R450). -/
def State.originate (s : State) (m : Msg) : State :=
  let b := s.nextBseq m.dst m.vc
  let m1 := { m with src := s.pkgNum, hops := s.fget F.RING_CFG.RING_SIZE - 1, bseq := b.1, orig := m.data.length }
  { b.2 with link := { b.2.link with out := b.2.link.out ++ [m1] } }

/-- A blank message of a type on a VC to a package. -/
def Msg.blank (mtype vc dst : Nat) : Msg :=
  { mtype := mtype, ptag := 0, src := 0, dst := dst, hops := 0, stag := 0, bseq := 0, addr := 0, ctx := 0,
    orig := 0, aux := 0, data := [], vc := vc, origin := none, held := 0, old := false, sent := 0,
    left := 0, via := none }

/-- Cuts a captured write into EPOCH_DATA pieces of at most 4 KiB (R491). -/
def cutWrite (w : Nat × List Byte) : List (Nat × List Byte) :=
  (List.range (ceilDiv w.2.length 4096)).map fun i => (w.1 + i * 4096, (w.2.drop (i * 4096)).take 4096)

/-- Closes the open epoch E: its writes go out as EPOCH_DATA, then EPOCH_END(E) with the byte count, and epoch E + 1
opens (R491). `sendNow` is false in GRACE, where the epochs wait in the queue (R496). -/
def State.closeEpoch (s : State) : State :=
  let e := s.fget F.PW_OUT_EPOCH.EPOCH
  let partner := s.pkgNum ^^^ 1
  let ws := s.link.wall.openW.flatMap cutWrite
  let total := (ws.map fun w => w.2.length).sum
  let s1 := ws.foldl (fun st w => st.originate
    { Msg.blank 8 3 partner with addr := w.1, aux := e, data := w.2 }) s
  let s2 := s1.originate { Msg.blank 9 3 partner with addr := total, aux := e }
  let s3 := { s2 with link := { s2.link with wall := { s2.link.wall with
    openW := [], sent := s2.link.wall.sent ++ [(e, ws)] } } }
  s3.count F.PW_OUT_EPOCH.EPOCH 1

/-- Bytes of the writes captured in the open epoch. -/
def WallSt.openBytes (w : WallSt) : Nat := (w.openW.map fun p => p.2.length).sum

/-- Adds a write to the open epoch when it touches a window and capture is on (R490); the epoch closes when its bytes
reach PW_LOG_SIZE (R491). -/
def State.capture (s : State) (a : Nat) (l : List Byte) : State :=
  if s.wallCaptures && l.length != 0 && (List.range l.length).any fun i => s.inWall (a + i) then
    let s1 := { s with link := { s.link with wall := { s.link.wall with openW := s.link.wall.openW ++ [(a, l)] } } }
    if s.fget F.PW_LOG_SIZE.SIZE * 0x200000 ≤ s1.link.wall.openBytes then s1.closeEpoch.countSat F.PW_COUNTS.FORCED 1 else s1
  else s

/-- Takes the floor-cache lines that `sel` selects out of every floor. -/
def State.dropLines (s : State) (sel : Line → Bool) : State :=
  { s with ms := { s.ms with lines := s.ms.lines.mapV (fun _ => []) fun l => l.filter fun x => !sel x } }

/-- No floor cache holds a block that an agent has written since (R325). -/
def State.dropWritten (s : State) (a n : Nat) : State :=
  if n = 0 then s else s.dropLines fun x => decide (a / 4096 ≤ x.blk) && decide (x.blk ≤ (a + n - 1) / 4096)

/-- Clears the poison mark of every beat that a write covers wholly (R389; log 6). -/
def State.clearPoison (s : State) (a n : Nat) : State :=
  let ps := s.ms.poison.filter fun p => !(decide (a ≤ p.1 * 64) && decide (p.1 * 64 + 64 ≤ a + n))
  { s with ms := { s.ms with poison := ps } }

/-- Writes bytes to memory of this package or the host window without capture: the backed bytes change, the rest are
dropped and UNBACKED sets (R384). -/
def State.rawWrite (s : State) (a : Nat) (l : List Byte) : State :=
  let f := s.foldAddr a
  let byte := fun i => if s.backed (f + i) then listByte l i else Mem.byte s.ms.mem (f + i)
  let s1 := { s with ms := { s.ms with mem := Mem.writeFn s.ms.mem f l.length byte } }
  ((s1.dropWritten f l.length).clearPoison f l.length).noteRange a l.length

/-- A write by an agent of this package: applied locally, then captured for the party wall (R490). -/
def State.physWrite (s : State) (a : Nat) (l : List Byte) : State :=
  let s1 := s.rawWrite a l
  if s.foldAddr a < hbmEnd then s1.capture (s.foldAddr a) l else s1

/-- Reads `n` bytes; zeros and UNBACKED where nothing backs them (R384). -/
def State.physRead (s : State) (a n : Nat) : List Byte × State :=
  ((List.range n).map fun i => s.physByte (a + i), s.noteRange a n)

/-- A range lies wholly in HBM (R138, R442, R521). -/
def inHbm (a n : Nat) : Bool := decide (a + n ≤ hbmEnd)

/-! ### The flue ring (R526) -/

/-- Base of the flue ring. -/
def State.flueBase (s : State) : Nat :=
  s.fget F.FLUE_BASE_HI.ADDR_HI * 0x100000000 + s.fget F.FLUE_BASE_LO.ADDR_LO * 4096

/-- Writes one 32-byte flue record, or drops it when the ring is full or lies in the host window while the link is
down; raises FLUE when the occupancy reaches half or a record is dropped (R507, R526). -/
def State.fluePush (s : State) (rec32 : List Byte) : State :=
  let size := 2 ^ s.fget F.FLUE_SIZE.LOG2
  let tail := s.fget F.FLUE_TAIL.TAIL
  let head := s.fget F.FLUE_HEAD.HEAD
  let base := s.flueBase
  if (tail + 1) % size = head then
    (s.countSat F.FLUE_LOST.COUNT 1).pkgEvent evFlue
  else if hostBase ≤ base ∧ !s.hs.linkUp then
    (s.countSat F.FLUE_LOST.COUNT 1).pkgEvent evFlue
  else
    let s1 := (s.physWrite (base + tail * 32) rec32).fset F.FLUE_TAIL.TAIL ((tail + 1) % size)
    let occ := (tail + size - head % size) % size
    if 2 * occ < size ∧ size ≤ 2 * (occ + 1) then s1.pkgEvent evFlue else s1

/-- A flue record (R326): type, cause, context, tag, place, physical engine, queue index, dispatch time and event
time. -/
def flueRecord (ty cause ctx tag place phys qidx tDisp tEvent : Nat) : List Byte :=
  leList (ty + cause * 2 ^ 8 + ctx % 2048 * 2 ^ 16 + tag % 2 ^ 32 * 2 ^ 32 + place % 2 ^ 16 * 2 ^ 64 +
    phys % 2 ^ 16 * 2 ^ 80 + qidx % 2 ^ 32 * 2 ^ 96 + tDisp % 2 ^ 64 * 2 ^ 128 + tEvent % 2 ^ 64 * 2 ^ 192) 32

/-! ### Descriptors (R291) -/

/-- The `n`-byte field of a descriptor at byte offset `off` (R291, R23). -/
def dField (d : BitVec 2048) (off n : Nat) : Nat := bitsAt d.toNat (8 * off) (8 * n)

/-- OPCODE (R292). -/
def dOpcode (d : BitVec 2048) : Nat := dField d 0x00 1
/-- An operation that an engine executes (R292). -/
def usesEngine (op : Nat) : Bool := decide (2 ≤ op) && decide (op ≤ 7)

/-- FLAGS. -/
def dFlags (d : BitVec 2048) : Nat := dField d 0x01 1
/-- FLAGS.IRQ. -/
def dIrq (d : BitVec 2048) : Bool := bitAt (dFlags d) 0
/-- FLAGS.SHAPE_RT. -/
def dShapeRt (d : BitVec 2048) : Bool := bitAt (dFlags d) 1
/-- FLAGS.AGEN mode. -/
def dAgen (d : BitVec 2048) : Nat := bitsAt (dFlags d) 2 2
/-- FLAGS.PLIST. -/
def dPlist (d : BitVec 2048) : Bool := bitAt (dFlags d) 4
/-- FLAGS.TRACE_DISPATCH. -/
def dTrace (d : BitVec 2048) : Bool := bitAt (dFlags d) 5
/-- PLACE. -/
def dPlace (d : BitVec 2048) : Nat := dField d 0x02 2
/-- TAG. -/
def dTag (d : BitVec 2048) : Nat := dField d 0x04 4
/-- STATUS. -/
def dStatus (d : BitVec 2048) : Nat := dField d 0x08 8
/-- Dependency entry i (R296). -/
def dDep (d : BitVec 2048) (i : Nat) : Nat := dField d (0x10 + 8 * i) 8
/-- Signal entry i (R299). -/
def dSig (d : BitVec 2048) (i : Nat) : Nat := dField d (0x30 + 8 * i) 8

/-- Die of a PLACE. -/
def plDie (p : Nat) : Nat := p % 2
/-- Floor index die × 3 + floor of a PLACE. -/
def plFloor (p : Nat) : Nat := p % 2 * 3 + bitsAt p 1 2
/-- Logical room of a PLACE. -/
def plRoom (p : Nat) : Nat := bitsAt p 3 3
/-- Logical engine of a PLACE. -/
def plEng (p : Nat) : Nat := bitsAt p 6 3
/-- A PLACE field uses no reserved encoding (R291). -/
def plLegal (p : Nat) : Bool :=
  decide (p < 512) && decide (bitsAt p 1 2 < 3) && decide (plRoom p < 5) && decide (plEng p < 5)

/-! ### Latches (R296 to R303, R485) -/

/-- The value of latch `l`. -/
def State.latchVal (s : State) (l : Nat) : W32 := s.latches.get (fun _ => 0) l

/-- LATCH_GE and LATCH_EQ (R297). -/
def latchHolds (kind : Nat) (v : W32) (x : Nat) : Bool :=
  if kind = 2 then decide ((v.toNat + 2 ^ 32 - x % 2 ^ 32) % 2 ^ 32 < 2 ^ 31)
  else if kind = 3 then v.toNat == x % 2 ^ 32
  else false

/-- Marks the latch dependencies of a command that the value `v` of latch `l` satisfies; a satisfied dependency stays
satisfied (R297). -/
def RoomCmd.seeLatch (c : RoomCmd) (l : Nat) (v : W32) : RoomCmd :=
  { c with depSat := (List.range 4).foldl (fun acc i =>
      let d := dDep c.desc i
      if 2 ≤ bitsAt d 0 2 ∧ bitsAt d 2 14 = l ∧ latchHolds (bitsAt d 0 2) v (bitsAt d 32 32)
      then acc ||| BitVec.ofNat 4 (2 ^ i) else acc) c.depSat }

/-- A general register; g0 reads zero (R337). -/
def CoreSt.rd (c : CoreSt) (i : Nat) : W32 := if i = 0 then 0 else c.g.get (fun _ => 0) i

/-- Writes a general register; writes to g0 are ignored (R337). -/
def CoreSt.wrG (c : CoreSt) (i : Nat) (v : W32) : CoreSt :=
  if i = 0 then c else { c with g := c.g.set (fun _ => 0) i v }

/-- Ends a waiting LWAIT that the value satisfies: gc takes the value that satisfied it and the core goes on (R352). -/
def CoreSt.seeLatch (c : CoreSt) (l : Nat) (v : W32) : CoreSt :=
  match c.wait with
  | .lwait gc l' kind x =>
    if l' = l ∧ latchHolds kind v x then { c.wrG gc v with wait := .none, pc := (c.pc + 4) % 0x8000 } else c
  | _ => c

/-- Ends a waiting EWAIT of a ticket that has ended (R352). -/
def CoreSt.seeTicket (c : CoreSt) (t st : Nat) : CoreSt :=
  match c.wait with
  | .ewait gc t' => if t' = t then { c.wrG gc (BitVec.ofNat 32 st) with wait := .none, pc := (c.pc + 4) % 0x8000 } else c
  | _ => c

/-- Every room evaluates its latch conditions on a value that a latch takes (R297), and a change of one is an event for a service
entry (R349); an interrupted LWAIT is looked at when it re-executes (R353). -/
def State.evalLatch (s : State) (l : Nat) (v : W32) : State :=
  let see := fun (x : RoomSt) =>
    let cmds := x.cmds.map fun c => c.seeLatch l v
    let core := x.core.seeLatch l v
    { x with cmds := cmds, core := core, evLatch := x.evLatch || cmds != x.cmds || core != x.core }
  { s with rooms := s.rooms.mapV (fun _ => RoomSt.reset) see }

/-- Sets a latch to a value: the conditions are evaluated on it, and in MODE 1 of a mirroring wall a change of PW_LATCH
closes the epoch (R297, R491). -/
def State.latchTake (s : State) (l : Nat) (v : W32) : State :=
  let old := s.latchVal l
  let s1 := ({ s with latches := s.latches.set (fun _ => 0) l v }).evalLatch l v
  if v ≠ old ∧ s.flag F.PW_CTRL.MODE ∧ s.fget F.PW_CTRL.PW_LATCH = l ∧ (s.wallState = 3 ∨ s.wallState = 4)
  then s1.closeEpoch else s1

/-- The value that OP gives (R299): 1 ADD modulo 2^32, 2 SET. -/
def signalVal (op : Nat) (old : W32) (operand : Nat) : W32 :=
  if op = 1 then old + BitVec.ofNat 32 operand else BitVec.ofNat 32 operand

/-- Applies a signal: first to the local latch; a proxy latch with EN set is then sent as a LATCH message (R299, R485). -/
def State.applySignal (s : State) (op l operand : Nat) : State :=
  if op = 1 ∨ op = 2 then
    let s1 := s.latchTake l (signalVal op (s.latchVal l) operand)
    if 15360 ≤ l ∧ l < 16384 ∧ s.flag (F.LATCH_PROXY.EN (l - 15360)) then
      s1.originate { Msg.blank 5 5 (s.fget (F.LATCH_PROXY.PKG (l - 15360))) with
        addr := s.fget (F.LATCH_PROXY.REMOTE (l - 15360)) + op * 2 ^ 14, aux := operand % 2 ^ 32 }
    else s1
  else s

/-! ### Partitions (R141) -/

/-- The lowest-numbered enabled partition whose range holds context `c` (R141). -/
def State.partitionOf (s : State) (c : Nat) : Option Nat :=
  (List.range 16).find? fun n => s.flag (F.PART_CTX.EN n) && decide (s.fget (F.PART_CTX.FIRST n) ≤ c) &&
    decide (c ≤ s.fget (F.PART_CTX.LAST n))

/-- The inbox `i` of a room. -/
def RoomSt.inbox (x : RoomSt) (i : Nat) : Inbox := x.inboxes.get (fun _ => Inbox.free) i

/-- Replaces inbox `i`. -/
def RoomSt.setInbox (x : RoomSt) (i : Nat) (b : Inbox) : RoomSt :=
  { x with inboxes := x.inboxes.set (fun _ => Inbox.free) i b }

/-- Occupied entries of inbox `i` (R332): a descriptor keeps its entry until it completes or faults (R288). -/
def RoomSt.depth (x : RoomSt) (i : Nat) : Nat := (x.cmds.filter fun c => c.src == .inbox i).length

/-- Inboxes of all rooms bound to contexts of partition `p` (R141). -/
def State.partInboxes (s : State) (p : Nat) : Nat :=
  ((List.range 30).map fun r => ((List.range 4).filter fun i =>
    ((s.room r).inbox i).bound && s.partitionOf ((s.room r).inbox i).ctx == some p).length).sum

/-! ### What a task is doing (R419, R444) -/

/-- The command in a slot of engine `e`, while the room holds it. -/
def State.slotCmd (s : State) (e n : Nat) : Option RoomCmd :=
  match ((s.eng e).slot n).cmd with
  | some q => (s.room (engRoom e)).find q
  | none => none

/-- The stream of a command on an engine. -/
def EngSt.streamOf (x : EngSt) (seq : Nat) : Option Stream := x.streams.find? fun t => t.cmd == seq

/-- A stream that cannot go on: parked, waiting for a walk, with as many blocks in flight as a stream unit keeps, or with data
still to come after its last block (R398, R411, R419). -/
def Stream.waits (t : Stream) : Bool :=
  t.park.isSome || t.walking || decide (16 ≤ t.flight.length) || (t.blocks.isEmpty && !t.flight.isEmpty)

/-- A MATMUL that can only wait for the floor stage (R271, R419). -/
def RoomCmd.waitsMortar (c : RoomCmd) : Bool :=
  match c.prog with
  | some p => p.wait
  | none => false

/-- A running task cannot progress (R419): its data move waits, or its MATMUL waits for the floor stage. -/
def State.stalled (s : State) (e n : Nat) : Bool :=
  match s.slotCmd e n with
  | some c =>
    if dOpcode c.desc = 2 then c.waitsMortar
    else match (s.eng e).streamOf c.seq with
      | some t => t.waits
      | none => false
  | none => false

/-- The task in slot `n` has a parked stream. -/
def State.slotParked (s : State) (e n : Nat) : Bool :=
  match s.slotCmd e n with
  | some c => match (s.eng e).streamOf c.seq with
    | some t => t.park.isSome
    | none => false
  | none => false

/-- What TASK_SLOT.STATE shows of a slot (R444): a task whose context is active runs, is stalled or is parked; any other, and a
slot bound without a command, is ready. -/
def State.taskState (s : State) (e n : Nat) : TaskState :=
  let t := (s.eng e).slot n
  if !t.used then .empty
  else if (s.slotCmd e n).isNone then .ready
  else if s.slotParked e n then .parked
  else if (s.eng e).active = some t.ctx then (if s.stalled e n then .stalled else .running)
  else .ready

end Sys2Proof.Machine
end

