-- ==== Sys2Proof/Machine/Layout.lean ====
section
/-! DEFINITION. Layouts: the blocked layout (R158 to R161), tile registers (R201), ashlar headers (R163), and the engine
buffer with the writer of every two-bit unit (R39, R591). -/

namespace Sys2Proof.Machine

/-! ### Blocked layout (R158, R159, R161) -/

/-- An extent padded to 128. -/
def pad128 (n : Nat) : Nat := 128 * ceilDiv n 128

/-- bt × 16 + st of R158 for element (r, c) of a matrix with padded column extent `cp`. -/
def blkTile (cp r c : Nat) : Nat := (r / 128 * (cp / 128) + c / 128) * 16 + (r % 128 / 32 * 4 + c % 128 / 32)

/-- Bit offset of element (r, c) of a rows × cols matrix of b-bit elements in an order (R158, R159; R150). -/
def blkBit (col : Bool) (rows cols b r c : Nat) : Nat :=
  if col then (blkTile (pad128 rows) c r * 1024 + (c % 32 * 32 + r % 32)) * b
  else (blkTile (pad128 cols) r c * 1024 + (r % 32 * 32 + c % 32)) * b

/-- Byte offset of the scale of the run that holds element (r, c) (R161). -/
def blkScale (col : Bool) (rows cols r c : Nat) : Nat :=
  if col then blkTile (pad128 rows) c r * 32 + c % 32 else blkTile (pad128 cols) r c * 32 + r % 32

/-- Bytes of a matrix in the blocked layout. -/
def blkBytes (rows cols b : Nat) : Nat := pad128 rows * pad128 cols * b / 8

/-! ### Tile registers (R201) -/

/-- A tile register's fields. -/
structure TReg where
  raw    : Nat
  base   : Nat
  elem   : Nat
  col    : Bool
  mx     : Bool
  ashlar : Bool
  rows   : Nat
  cols   : Nat
  size   : Nat
  scale  : Nat
  rsv    : Bool
deriving DecidableEq, Repr

/-- Reads a tile register's contents. -/
def TReg.of (n : Nat) : TReg :=
  { raw := n % 2 ^ 128, base := bitsAt n 0 14, elem := bitsAt n 16 4, col := bitAt n 20, mx := bitAt n 21,
    ashlar := bitAt n 22, rows := bitsAt n 32 16, cols := bitsAt n 48 16, size := bitsAt n 64 14,
    scale := bitsAt n 80 14,
    rsv := bitsAt n 14 2 != 0 || bitsAt n 23 9 != 0 || bitsAt n 78 2 != 0 || bitsAt n 94 34 != 0 }

/-- The register with a generated BASE (R310 to R312). -/
def TReg.atBase (t : TReg) (b : Nat) : TReg := { t with base := b, raw := setBitsNat t.raw 0 14 b }

/-- First byte of the register's region. -/
def TReg.lo (t : TReg) : Nat := t.base * 256
/-- One past the last byte of the register's region. -/
def TReg.hi (t : TReg) : Nat := (t.base + t.size) * 256

/-- A register without reserved encodings whose region and scale array lie where R201 and R202 say. R201 calls SCALE_BASE ignored
"when MX32 or ASHLAR is set", against its own first sentence, R202 and R592: the model uses it when MX32 is one and ASHLAR zero
(assumption log 112). -/
def TReg.plainOk (t : TReg) : Bool :=
  !t.rsv && decide (t.base < 12288) && decide (1 ≤ t.size) && decide (t.base + t.size ≤ 12288) && decide (t.elem ≤ 8) &&
    (!t.mx || decide (t.elem ≤ 5)) &&
    (!(t.mx && !t.ashlar) || (decide (t.base ≤ t.scale) && decide (t.scale < t.base + t.size)))

/-- The first byte, among the byte ranges (start, length) in order, that lies outside [lo, hi) (R203). -/
def firstOut (lo hi : Nat) : List (Nat × Nat) → Option Nat
  | [] => none
  | (a, n) :: t =>
    if n = 0 then firstOut lo hi t
    else if a < lo ∨ hi ≤ a then some a
    else if hi < a + n then some hi
    else firstOut lo hi t

/-- The first byte of the ranges outside a register's region. -/
def TReg.out (t : TReg) (l : List (Nat × Nat)) : Option Nat := firstOut t.lo t.hi l

/-- The bytes that the `w` bits at bit address `b` touch. -/
def bitSpan (b w : Nat) : Nat × Nat := (b / 8, if w = 0 then 0 else (b + w - 1) / 8 + 1 - b / 8)

/-! ### Ashlar headers (R163) -/

/-- An ashlar header's fields. -/
structure Ash where
  version   : Nat
  elem      : Nat
  elemRsv   : Nat
  flags     : Nat
  bandExt   : Nat
  kExt      : Nat
  numBands  : Nat
  numGroups : Nat
  blocks    : Nat
  codeOff   : Nat
  indexOff  : Nat
  dataOff   : Nat
  scaleOff  : Nat
  tail      : Nat
deriving DecidableEq, Repr

/-- Reads a header from its 64 bytes as a little-endian value. -/
def Ash.of (n : Nat) : Ash :=
  { version := bitsAt n 0 16, elem := bitsAt n 16 4, elemRsv := bitsAt n 20 4, flags := bitsAt n 24 8,
    bandExt := bitsAt n 32 32, kExt := bitsAt n 64 32, numBands := bitsAt n 96 32, numGroups := bitsAt n 128 32,
    blocks := bitsAt n 160 32, codeOff := bitsAt n 192 64, indexOff := bitsAt n 256 64, dataOff := bitsAt n 320 64,
    scaleOff := bitsAt n 384 64, tail := bitsAt n 448 64 }

/-- FLAGS.FULL. -/
def Ash.full (h : Ash) : Bool := bitAt h.flags 0
/-- FLAGS.MX32. -/
def Ash.mx (h : Ash) : Bool := bitAt h.flags 1
/-- FLAGS.PATTERN. -/
def Ash.pattern (h : Ash) : Nat := bitsAt h.flags 2 2
/-- FLAGS.BAND_COLS. -/
def Ash.bandCols (h : Ash) : Bool := bitAt h.flags 4

/-- Rows and columns of the matrix a container holds (R202: in the orientation that BAND_COLS gives). -/
def Ash.extents (h : Ash) : Nat × Nat := if h.bandCols then (h.kExt, h.bandExt) else (h.bandExt, h.kExt)

/-- Detail 0x1 of R251. -/
def Ash.bad1 (h : Ash) : Bool :=
  h.version != 1 || decide (8 < h.elem) || h.elemRsv != 0 || bitsAt h.flags 5 3 != 0 ||
    h.numBands != ceilDiv h.bandExt 128 || h.numGroups != ceilDiv h.kExt 256

/-- The header and the arrays of a container as (offset, bytes), those without a byte left out (R163 to R169). -/
def Ash.parts (h : Ash) : List (Nat × Nat) :=
  let codes := if h.full then 0 else h.numBands * h.numGroups * 4
  let index := if h.full then 0 else (h.numBands + 1) * 4
  ([(0, 64), (h.codeOff, codes), (h.indexOff, index), (h.dataOff, h.blocks * 128 * elemBits h.elem),
    (h.scaleOff, if h.mx then h.blocks * 32 else 0)]).filter fun p => p.2 != 0

/-- No two of the ranges overlap. -/
def apart : List (Nat × Nat) → Bool
  | [] => true
  | p :: l => (l.all fun q => decide (p.1 + p.2 ≤ q.1) || decide (q.1 + q.2 ≤ p.1)) && apart l

/-- The header fields of a legal container (R163, R164, R169, R171). -/
def Ash.headOk (h : Ash) : Bool :=
  !h.bad1 && h.tail == 0 && (h.mx || h.scaleOff == 0) && (!h.mx || decide (h.elem ≤ 5)) &&
    ([h.codeOff, h.indexOff, h.dataOff, h.scaleOff].all (· % 256 == 0)) &&
    (!h.full || (h.codeOff == 0 && h.indexOff == 0 && h.blocks == h.numBands * (4 * ceilDiv h.kExt 128) * 4)) &&
    apart h.parts

/-- The code word of a band and group of a container whose 32-bit word at offset `o` is `word o` (R165). -/
def Ash.codeAt (h : Ash) (word : Nat → Nat) (b g : Nat) : Nat := word (h.codeOff + (b * h.numGroups + g) * 4)

/-- The set bits of a 32-bit word. -/
def popCount (n : Nat) : Nat := ((List.range 32).filter (bitAt n)).length

/-- The code bits set in band `b` (R165). -/
def Ash.bandBits (h : Ash) (word : Nat → Nat) (b : Nat) : Nat :=
  ((List.range h.numGroups).map fun g => popCount (h.codeAt word b g)).sum

/-- The band index agrees with the codes, and block rows beyond BAND_EXTENT have no code (R166, R171). -/
def Ash.codesOk (h : Ash) (word : Nat → Nat) : Bool :=
  let index := fun b => word (h.indexOff + 4 * b)
  index 0 == 0 && index h.numBands == h.blocks &&
  (List.range h.numBands).all fun b =>
    index (b + 1) == index b + h.bandBits word b &&
    (List.range 4).all fun r => decide (b * 128 + r * 32 < h.bandExt) ||
      (List.range h.numGroups).all fun g => bitsAt (h.codeAt word b g) (8 * r) 8 == 0

/-- A container that breaks no rule of R163 to R171. -/
def Ash.legal (h : Ash) (word : Nat → Nat) : Bool := h.headOk && (h.full || h.codesOk word)

/-- Two headers agree in every field but the offsets (R256). -/
def Ash.sameBut (h k : Ash) : Bool :=
  h.version == k.version && h.elem == k.elem && h.elemRsv == k.elemRsv && h.flags == k.flags &&
    h.bandExt == k.bandExt && h.kExt == k.kExt && h.numBands == k.numBands && h.numGroups == k.numGroups &&
    h.blocks == k.blocks && h.tail == k.tail

/-- Bytes of the whole container from its header: to the end of the last of its arrays (R163 to R169). -/
def Ash.bytes (h : Ash) : Nat :=
  let b := elemBits h.elem
  let code := if h.codeOff = 0 then 0 else h.codeOff + h.numBands * h.numGroups * 4
  let index := if h.indexOff = 0 then 0 else h.indexOff + (h.numBands + 1) * 4
  let data := h.dataOff + h.blocks * 128 * b
  let scale := if h.mx then h.scaleOff + h.blocks * 32 else 0
  max 64 (max (max code index) (max data scale))

/-! ### The engine buffer (R39, R591) -/

/-- Bytes of an engine buffer: 3 MiB (R36). -/
def engBytes : Nat := 0x300000
/-- Bytes of a room store: 16 MiB (R36). -/
def storeBytes : Nat := 0x1000000

/-- The writer plus one of two-bit unit `j` of byte `a`; zero when nothing has written it. -/
def EngSt.ownerAt (x : EngSt) (a j : Nat) : Nat := bitsAt (x.owner.get (fun _ => 0) a) (12 * j) 12

/-- The byte at `a` as context `ctx` reads it: bits that another context wrote read zero (R39). -/
def EngSt.seen (x : EngSt) (ctx a : Nat) : Byte :=
  let b := (Mem.byte x.buf a).toNat
  BitVec.ofNat 8 ((List.range 4).foldl (fun acc j =>
    acc + (if x.ownerAt a j = ctx + 1 then bitsAt b (2 * j) 2 else 0) * 4 ^ j) 0)

/-- `n` bytes as context `ctx` reads them. -/
def EngSt.seenBytes (x : EngSt) (ctx a n : Nat) : List Byte := (List.range n).map fun i => x.seen ctx (a + i)

/-- The little-endian value of `n` bytes as context `ctx` reads them. -/
def EngSt.seenLe (x : EngSt) (ctx a n : Nat) : Nat := leOfList (x.seenBytes ctx a n)

/-- The `w`-bit value at bit address `b` as context `ctx` reads it. -/
def EngSt.seenBits (x : EngSt) (ctx b w : Nat) : Nat :=
  bitsAt (x.seenLe ctx (b / 8) (bitSpan b w).2) (b % 8) w

/-- Owner word of a byte after units `sel` of it are written by `ctx`. -/
def ownWord (old ctx : Nat) (sel : Nat → Bool) : Nat :=
  (List.range 4).foldl (fun acc j => acc + (if sel j then ctx + 1 else bitsAt old (12 * j) 12) * 2 ^ (12 * j)) 0

/-- Context `ctx` writes the `w` bits of `v` at bit address `b`; other bits of the bytes concerned stay (R591). -/
def EngSt.putBits (x : EngSt) (ctx b w v : Nat) : EngSt :=
  let sp := bitSpan b w
  let own := fun i => ownWord (x.owner.get (fun _ => 0) (sp.1 + i)) ctx fun j =>
    decide (b ≤ (sp.1 + i) * 8 + 2 * j) && decide ((sp.1 + i) * 8 + 2 * j < b + w)
  { x with
    buf := Mem.writeBits x.buf b w (fun i => bitAt v i)
    owner := FMap.setRange (fun _ => 0) x.owner sp.1 sp.2 own }

/-- Context `ctx` writes bytes from `a`. -/
def EngSt.putBytes (x : EngSt) (ctx a : Nat) (l : List Byte) : EngSt :=
  { x with
    buf := Mem.writeList x.buf a l
    owner := FMap.setRange (fun _ => 0) x.owner a l.length fun _ => ownWord 0 ctx fun _ => true }

/-- Fills a region with free bytes: the low bytes of the free number `d` (R5, R7). -/
def EngSt.fillFree (x : EngSt) (ctx a n d : Nat) : EngSt :=
  { x with
    buf := Mem.writeFn x.buf a n (leByte d)
    owner := FMap.setRange (fun _ => 0) x.owner a n fun _ => ownWord 0 ctx fun _ => true }
/-- A region of a space becomes free: bytes of a fresh free value (R5, R7, R8). -/
def State.freeSpace (s : State) (r e ctx space lo n : Nat) : State :=
  let d := s.draw
  if space = 1 then
    let x := d.2.room r
    d.2.setRoom r { x with store := Mem.writeFn x.store lo (min n (64512 * 256 - lo)) (leByte d.1) }
  else d.2.setEng e ((d.2.eng e).fillFree ctx lo (min n (engBytes - lo)) d.1)

/-- Regions of `size` units at generated bases become free; a base below zero names none. -/
def State.freeRegions (s : State) (r e ctx space size : Nat) (l : List Int) : State :=
  l.foldl (fun st b => if 0 ≤ b then st.freeSpace r e ctx space (b.toNat * 256) (size * 256) else st) s

/-- The written regions of a command in engine buffers and the room store become free. -/
def State.freeParts (s : State) (r ctx : Nat) (l : List Region) : State :=
  (l.filter fun g => g.wr && decide (g.space < 2)).foldl (fun st g =>
    st.freeSpace r g.eng ctx g.space (g.lo * 256) ((g.hi - g.lo) * 256)) s

end Sys2Proof.Machine
end

