-- ==== Sys2Proof/Machine/Regs.lean ====
section
/-! DEFINITION. Bus writes and reads of registers: which writes reach a register (R81, R135, R333, R563), the lock
(R91 to R97), what a write does to a field of each access type (R85 to R110), and what a read returns. -/

namespace Sys2Proof.Machine

/-! ### Room windows -/

/-- Physical room and inner offset of a BAR0 offset inside a room window (R143). -/
def roomOfOff (off : Nat) : Option (Nat × Nat) :=
  if 0x1000000 ≤ off then
    let d := off - 0x1000000
    let die := d / 0x4000000
    let fl := d % 0x4000000 / 0x1000000
    let rm := d % 0x1000000 / 0x200000
    if die < 2 ∧ fl < 3 ∧ rm < 5 then some (die * 15 + fl * 5 + rm, d % 0x200000) else none
  else none

/-- In RETAIN a room window keeps only its remap, fence and CC_ROLE registers; the rest read zero and ignore writes
(R563, R75, R374). -/
def State.windowDead (s : State) (off : Nat) : Bool :=
  s.fget F.PWR_STATUS.STATE == 2 &&
    match roomOfOff off with
    | some (_, o) => o != 0x40 && o != 0x44 && o != 0x14000
    | none => false

/-! ### Which writes reach a register -/

/-- The keystone range (R134). -/
def inKeystone (off : Nat) : Bool := decide (0x1000 ≤ off) && decide (off < 0x1400)

/-- The firmware port of a room window (R333). -/
def inFwPort (off : Nat) : Bool :=
  match roomOfOff off with
  | some (_, o) => decide (0x13200 ≤ o) && decide (o < 0x13380)
  | none => false

/-- The device is out of reset and its bus answers. -/
def State.running (s : State) : Bool := s.pwr.hold == .up

/-- A partial write is ignored and reported (R81); any other write goes on. -/
def State.whole (s : State) (w : BusWr) (f : State → State) : State :=
  if s.running then (if w.be = 0xF#4 then f s else s.fset F.ACCESS_ERR.PARTIAL 1) else s

/-- Whether a whole write by `req` reaches the register at `off`: not a host write to the keystone or the firmware
port (R135, R333), not a dead window (R563). -/
def State.reaches (s : State) (req : Req) (off : Nat) : Bool :=
  !(req == .host && (inKeystone off || inFwPort off)) && !s.windowDead off

/-- A whole write that reaches the register at `off` is carried out by `f`; any other leaves the register. -/
def State.busWrite (s : State) (off : Nat) (w : BusWr) (f : State → State) : State :=
  s.whole w fun s1 => if s1.reaches w.req off then f s1 else s1

/-! ### The lock (R91 to R99) -/

/-- The requester holds the open lock. -/
def State.holdsKey (s : State) (req : Req) : Bool :=
  s.flag F.LOCK_STATUS.OPEN && s.fget F.LOCK_STATUS.OPENER == reqCode req

/-- Closes the lock. OPENER keeps the code of the last opener: R99 gives it a meaning only while OPEN is one (log 100,
DESIGN CHOICE). -/
def State.closeLock (s : State) : State := s.fset F.LOCK_STATUS.OPEN 0

/-- A write to a register with K fields: the opener's write is keyed and closes the lock (R92, R93); any other is a
miss (R94). -/
def State.useKey (s : State) (req : Req) : Bool × State :=
  if s.holdsKey req then (true, s.closeLock)
  else (false, (s.fset F.LOCK_STATUS.MISS_SEEN 1).countSat F.LOCK_STATUS.KEY_MISS 1)

/-! ### Fields -/

/-- A K field that a rule makes behave as RO, or that refuses the value by a rule of its own (R136, R442, R501). -/
def State.kFrozen (s : State) (off x : Nat) : Bool :=
  (inKeystone off && s.flag F.KEYSTONE_CTRL.SET) ||
  ((off == Off.SAVE_BASE_LO || off == Off.SAVE_BASE_HI || off == Off.LEDGER_BASE_LO || off == Off.LEDGER_BASE_HI) &&
    s.ms.locked) ||
  ((off == Off.PW_LOG_BASE_LO || off == Off.PW_LOG_BASE_HI || off == Off.PW_LOG_SIZE) && s.wallState != 0 &&
    s.wallState != 1) ||
  (off == Off.PW_LOG_SIZE && x == 0 && s.flag F.PW_ROLE.WALL_EN)

/-- The bit of a slow domain in DOMAIN_BUSY and DOMAIN_DROP (R111). -/
def domBit : Domain → Nat
  | .hk => 0
  | .ts => 1
  | .aon => 2
  | .lorlinkPhy => 3
  | .hbmPhy => 4
  | .hostPhy => 5

/-- DOMAIN_BUSY of a domain. -/
def Fld.domBusy (d : Domain) : Fld := { off := Off.DOMAIN_BUSY, lsb := domBit d, width := 1 }
/-- DOMAIN_DROP of a domain. -/
def Fld.domDrop (d : Domain) : Fld := { off := Off.DOMAIN_DROP, lsb := domBit d, width := 1 }

/-- A write to a P field of domain `d`: dropped while the domain is busy (R108), posted otherwise (R106). -/
def State.postWrite (s : State) (d : Domain) (off x : Nat) : State :=
  if s.flag (Fld.domBusy d) then s.fset (Fld.domDrop d) 1
  else { s.fset (Fld.domBusy d) 1 with pwrites := s.pwrites ++ [{ dom := d, off := off, val := x }] }

/-- What a write of `v` does to one field (R14, R85 to R110); `keyed` tells whether K fields may change. -/
def State.writeField (s : State) (off v : Nat) (keyed : Bool) (f : FieldDef) : State :=
  let fl : Fld := { off := off, lsb := f.lsb, width := f.width }
  let x := bitsAt v f.lsb f.width
  match f.ty with
  | .ro => s
  | .mb => s
  | .w1c => s.fset fl (s.fget fl &&& (2 ^ f.width - 1 - x))
  | .rw => if f.isRsv x then s else s.fset fl x
  | .wm =>
    let m := bitsAt v (f.lsb + 16) f.width
    let y := (s.fget fl &&& (2 ^ f.width - 1 - m)) ||| (x &&& m)
    if f.isRsv y then s else s.fset fl y
  | .k => if keyed && !s.kFrozen off x && !f.isRsv x then s.fset fl x else s
  | .b => if f.isRsv x then s else { s with staged := s.staged.set (fun _ => none) off (some x) }
  | .p => s.postWrite .aon off x

/-- Whether a register holds a K field (R92). -/
def RegDef.hasK (r : RegDef) : Bool := r.fields.any fun f => f.ty == .k

/-- The fields of the register at `off` that have no row of their own, each written with `v`. -/
def State.writePlain (s : State) (off v : Nat) (keyed : Bool) : State :=
  match RegMap.find (off % bankStride) with
  | some r => (r.fields.filter fun f => !f.own).foldl (fun st f => st.writeField off v keyed f) s
  | none => s

/-- A write of a register with K fields: the lock first, then the plain fields, then `k` for the fields with rows of their
own, told whether the write is keyed (R92 to R94). -/
def State.keyedWrite (s : State) (off : Nat) (w : BusWr) (k : Bool → State → State) : State :=
  s.busWrite off w fun s1 =>
    let p := s1.useKey w.req
    k p.1 (p.2.writePlain off w.val.toNat p.1)

/-- A write of a register without K fields: the plain fields, then `k` for the fields with rows of their own (R87: what
the device sets while the write clears it stays set). -/
def State.openWrite (s : State) (off : Nat) (w : BusWr) (k : State → State) : State :=
  s.busWrite off w fun s1 => k (s1.writePlain off w.val.toNat false)

/-- Registers that exist once for each requester: the identity mailbox and LATCH_SEL (R118, R301). -/
def isBanked (off : Nat) : Bool := (decide (0x10 ≤ off) && decide (off < 0x38)) || off == Off.LATCH_SEL

/-- The key of the register at `off` as requester `req` reaches it. -/
def regKey (req : Req) (off : Nat) : Nat := if isBanked off then off + reqBank req else off

/-- What follows a plain write: clearing MISS_SEEN clears KEY_MISS (R99); unmasking a vector whose message is pending
sends it (R513). `old` is the register before the write. -/
def State.afterPlain (s : State) (off v : Nat) (old : W32) : State :=
  if off = Off.LOCK_STATUS then (if bitAt v 2 then s.fset F.LOCK_STATUS.KEY_MISS 0 else s)
  else if Off.MSIX_CTRL 0 ≤ off ∧ off ≤ Off.MSIX_CTRL 2047 ∧ off % 16 = 12 then
    let vec := (off - Off.MSIX_CTRL 0) / 16
    if bitAt old.toNat 0 && !s.vecMasked .pf vec && s.pba .pf vec
    then (s.setPba .pf vec false).sendMsix .pf vec else s
  else s

/-- The invalidation registers ignore writes while GO reads one, and report them (R407). -/
def State.invHeld (s : State) (off : Nat) : Bool := s.flag F.INV_CTRL.GO && decide (Off.INV_CTRL ≤ off) && decide (off ≤ Off.INV_COUNT)

/-- REGISTER_WRITE to BAR0: every field of the register that has no row of its own (R15, R85). -/
def State.writeBar0 (s : State) (off : Nat) (w : BusWr) : State :=
  s.busWrite off w fun s1 =>
    match RegMap.find off with
    | none => s1
    | some r =>
      if s1.invHeld off then s1.fset F.MEM_STATUS.INV_WR_DROP 1 else
      let key := regKey w.req off
      let p := if r.hasK then s1.useKey w.req else (false, s1)
      (p.2.writePlain key w.val.toNat p.1).afterPlain off w.val.toNat (s1.reg key)

/-- REGISTER_WRITE to the MSI-X table of VF `v` (R509, R513): entry fields address, data and mask. The PBA and every
other offset ignore writes. -/
def State.writeVf (s : State) (v off : Nat) (w : BusWr) : State :=
  s.whole w fun s1 =>
    if 0x8000 ≤ off ∧ off < 0x8080 then
      let key := v * 0x10000 + off
      let x := w.val.toNat
      let y := if off % 16 = 0 then x / 4 * 4 else if off % 16 = 12 then x % 2 else x
      let old := s1.hs.vfRegs.get vfRegReset key
      let s2 := { s1 with hs := { s1.hs with vfRegs := s1.hs.vfRegs.set vfRegReset key (BitVec.ofNat 32 y) } }
      let vec := (off - 0x8000) / 16
      let fn := funcOf (v + 1)
      if off % 16 = 12 ∧ old.toNat % 2 = 1 ∧ y = 0 ∧ s2.pba fn vec
      then (s2.setPba fn vec false).sendMsix fn vec else s2
    else s1

/-! ### Reads -/

/-- The stages of a task slot as TASK_SLOT.STATE shows them (R444). -/
def TaskState.code : TaskState → Nat
  | .empty => 0
  | .ready => 1
  | .running => 2
  | .stalled => 3
  | .parked => 4

/-- The states of an accumulator slot as ACC_SLOT.STATE shows them (R218). -/
def AccState.code : AccState → Nat
  | .free => 0
  | .accum => 1
  | .held => 2
  | .drain => 3

/-- Commands of the firmware port that wait for dispatch in a room (R328, R333). -/
def RoomSt.fwDepth (x : RoomSt) : Nat :=
  (x.cmds.filter fun c => c.src == .fw && (c.st == .waiting || c.st == .held)).length

/-- A register word with one field replaced. -/
def putBits (v lsb w x : Nat) : Nat := setBitsNat v lsb w x

/-- The fields of a room-window register that show state kept elsewhere (R218, R332, R333, R444). OWNER has eleven bits: of a slot
that the firmware context owns it shows the low ones of 0x800, zero (assumption log 116). -/
def State.roomOverlay (s : State) (r o v : Nat) : Nat :=
  if o = 0x40 then putBits v 12 3 (s.sparePhys (Off.ENGINE_REMAP r))
  else if 0x10000 ≤ o ∧ o < 0x10500 ∧ o % 0x100 < 0x10 then
    let a := (s.eng (r * 5 + (o - 0x10000) / 0x100)).accSlot (o % 0x100 / 4)
    a.owner % 2048 + a.st.code * 2 ^ 12 + (a.anchor % 1024).toNat * 2 ^ 16 + a.raises % 16 * 2 ^ 26
  else if 0x13100 ≤ o ∧ o < 0x13110 then
    let i := (o - 0x13100) / 4
    let b := (s.room r).inbox i
    b.ctx % 2048 + b2n b.bound * 2 ^ 11 + (s.room r).depth i % 128 * 2 ^ 12
  else if o = 0x13304 then
    let d := (s.room r).fwDepth
    putBits (putBits v 0 1 (b2n (decide (16 ≤ d)))) 8 5 d
  else if 0x15000 ≤ o ∧ o < 0x15050 ∧ o % 0x10 = 0 then
    match (s.eng (r * 5 + (o - 0x15000) / 0x10)).active with
    | some c => putBits (putBits v 16 11 c) 27 1 1
    | none => putBits (putBits v 16 11 0) 27 1 0
  else if 0x15100 ≤ o ∧ o < 0x15150 then
    let e := r * 5 + (o - 0x15100) / 0x10
    let t := (s.eng e).slot (o % 0x10 / 4)
    t.ctx % 2048 + (s.taskState e (o % 0x10 / 4)).code * 2 ^ 12 + b2n t.saved * 2 ^ 15
  else v

/-- A fault-ring record waits for room in the ring (R412). -/
def State.xfFull (s : State) : Bool :=
  (s.fget F.XF_TAIL.TAIL + 1) % 2 ^ s.fget F.XF_SIZE.LOG2 == s.fget F.XF_HEAD.HEAD && !s.ms.xfWait.isEmpty

/-- The fields of a register outside the room windows that show state kept elsewhere. -/
def State.pkgOverlay (s : State) (req : Req) (off v : Nat) : Nat :=
  if off = Off.PKG_CAPACITY then putBits (putBits v 0 8 s.capEngines) 8 5 s.capRooms
  else if 0x4000 ≤ off ∧ off < 0x4060 ∧ off % 0x10 = 0 then putBits v 12 3 (s.sparePhys off)
  else if Off.ID_DATA 0 ≤ off ∧ off ≤ Off.ID_DATA 7 then
    if s.flag (F.ID_STATUS.VALID.forReq req) then v else 0
  else if off = Off.TS_LO then s.ts.toNat % 2 ^ 32
  else if off = Off.LATCH_VAL then (s.latchVal (s.fget (F.LATCH_SEL.LATCH.forReq req))).toNat
  else if off = Off.XF_STATUS then
    putBits (putBits (putBits v 1 1 (b2n s.xfFull)) 3 1 (b2n (!s.ms.noTicket.isEmpty))) 16 11 s.ms.tickets.length
  else if off = Off.PW_STATUS then putBits v 6 1 (b2n s.keeperEff)
  else v

/-- A bank of a room's routine store. -/
def RoomSt.bank (x : RoomSt) (b : Nat) : FMap Byte := if b = 0 then x.bank0 else x.bank1

/-- A word of the routine-store window, which maps the inactive bank (R376). -/
def State.windowWord (s : State) (r o : Nat) : W32 :=
  BitVec.ofNat 32 (Mem.leNat ((s.room r).bank (1 - s.fget (F.RS_CTRL.ACTIVE r))) (o - 0x18000) 4)

/-- A read of an offset without a register: the routine-store window of a room, or zero (R15, R376). -/
def State.readWindow (s : State) (off : Nat) : W32 :=
  match roomOfOff off with
  | some (r, o) => if 0x18000 ≤ o ∧ o < 0x20000 then s.windowWord r o else 0
  | none => 0

/-- What a read of the aligned word at BAR0 offset `off` returns: zero at reserved offsets (R15) and in a dead window
(R563); the staged value at a _STAGED alias (R102); the register otherwise. Reading changes nothing: the reads with an
effect have commands of their own. -/
def State.regRead (s : State) (req : Req) (off : Nat) : W32 :=
  if s.windowDead off then 0
  else match RegMap.find off with
    | some _ =>
      let v := (s.reg (regKey req off)).toNat
      BitVec.ofNat 32 (match roomOfOff off with
        | some (r, o) => s.roomOverlay r o v
        | none => s.pkgOverlay req off v)
    | none =>
      if 0x80000 ≤ off then
        match RegMap.find (off - 0x80000) with
        | some r =>
          match r.fields.find? fun f => f.ty == .b with
          | some f =>
            let v := (s.reg (off - 0x80000)).toNat
            BitVec.ofNat 32 (match s.staged.get (fun _ => none) (off - 0x80000) with
              | some x => putBits v f.lsb f.width x
              | none => v)
          | none => 0
        | none => s.readWindow off
      else s.readWindow off

/-- The word of bits that the byte enables of a read select (R80). -/
def laneMask (be : BitVec 4) : W32 :=
  BitVec.ofNat 32 (((List.range 4).map fun i => if be.getLsbD i then 255 * 256 ^ i else 0).sum)

/-- The offset is that of data word WORDS − 1 of the requester's valid item (R116). -/
def State.lastWord (s : State) (req : Req) (off : Nat) : Bool :=
  s.flag (F.ID_STATUS.VALID.forReq req) && off == Off.ID_DATA (s.fget (F.ID_STATUS.WORDS.forReq req) - 1)

/-- A read of a word of BAR0: the selected bytes go out (R80); reading TS_LO latches the upper half of the counter (R551), and
reading the last word of a mailbox item ends the item (R116). -/
def State.readBar0 (s : State) (req : Req) (off : Nat) (be : BitVec 4) : State :=
  if s.running then
    let s1 := s.emit (.readData req (s.regRead req off &&& laneMask be))
    if off = Off.TS_LO then s1.setReg Off.TS_HI (BitVec.ofNat 32 (s.ts.toNat / 2 ^ 32))
    else if s.lastWord req off then s1.fset (F.ID_STATUS.VALID.forReq req) 0
    else s1
  else s

/-- What a read of a VF's BAR2 outside its doorbell pages returns: its MSI-X table and PBA, zero at a reserved offset (R15,
R509). -/
def State.vfWord (s : State) (v off : Nat) : W32 :=
  if (0x8000 ≤ off ∧ off < 0x8080) ∨ off = 0x9000 then s.hs.vfRegs.get vfRegReset (v * 0x10000 + off) else 0

end Sys2Proof.Machine
end

