-- ==== Sys2Proof/Machine/Translate.lean ====
section
/-! DEFINITION. Translation of device virtual addresses (R390 to R409): the page walk, the expert window, the room,
floor and ledger caches, and reads and writes of structures by virtual address. -/

namespace Sys2Proof.Machine

/-- Fault types of R410. -/
def xfNotPresent : Nat := 1
/-- R410 WRITE. -/
def xfWrite : Nat := 2
/-- R410 WALK. -/
def xfWalk : Nat := 3
/-- R410 PROTECTED. -/
def xfProtected : Nat := 4
/-- R410 LEDGER_ABSENT. -/
def xfAbsent : Nat := 5
/-- R410 LEDGER_OWNER. -/
def xfOwner : Nat := 6
/-- R410 LEDGER_RANGE. -/
def xfRange : Nat := 7
/-- R410 ABANDON. -/
def xfAbandon : Nat := 8
/-- R410 UNREACHABLE. -/
def xfUnreachable : Nat := 9

/-- The outcome of a translation: a device physical address, or a fault type with the level of R413. -/
inductive XRes where
  | ok (pa : Nat)
  | bad (ty level : Nat)
deriving DecidableEq, Repr

/-- A page found by a walk, or the fault that ended it. -/
inductive Walk where
  | page (t : Tlb)
  | bad (ty level : Nat)
deriving DecidableEq, Repr

/-- Bits [56:0] of a 64-bit address field (R390). -/
def vaBits (a : Nat) : Nat := a % 2 ^ 57

/-- The window of a virtual address (R390): 0 and 1 paged, 2 expert, 3 fill. -/
def vaWindow (va : Nat) : Nat := bitsAt va 55 2

/-- Base of the save-frame area (R422). -/
def State.saveBase (s : State) : Nat :=
  s.fget F.SAVE_BASE_HI.ADDR_HI * 0x100000000 + s.fget F.SAVE_BASE_LO.ADDR_LO * 0x200000

/-- Base of the larder ledger (R391). -/
def State.ledgerBase (s : State) : Nat :=
  s.fget F.LEDGER_BASE_HI.ADDR_HI * 0x100000000 + s.fget F.LEDGER_BASE_LO.ADDR_LO * 0x200000

/-- Two ranges overlap. -/
def rangesMeet (a n b m : Nat) : Bool := decide (a < b + m) && decide (b < a + n)

/-- A page overlaps the save-frame area, or the ledger while LEDGER_EN is one (R401). -/
def State.protectedPage (s : State) (pa n : Nat) : Bool :=
  let a := s.foldAddr pa
  rangesMeet a n s.saveBase (150 * 0x100000) ||
    (s.flag F.MEM_CTRL.LEDGER_EN && rangesMeet a n s.ledgerBase 0x200000)

/-- The 64-byte beat of physical address `a` is marked poisoned (R389). -/
def State.poisoned (s : State) (a : Nat) : Bool := s.ms.poison.get (fun _ => false) (s.foldAddr a / 64)

/-- Reserved bits of a page-table entry (R400). -/
def pteReserved (e : Nat) : Bool := bitsAt e 4 8 != 0 || bitsAt e 48 16 != 0

/-- The page base or next table of an entry (R400). -/
def ptePa (e : Nat) : Nat := bitsAt e 12 36 * 4096

/-- A leaf entry at a level as a page of `pages` 4 KiB pages. -/
def State.leaf (s : State) (ctx va e pages level : Nat) : Walk :=
  if ptePa e % (pages * 4096) ≠ 0 then .bad xfWalk level
  else .page { ctx := ctx, vpn := va / 4096 / pages * pages, pages := pages, ppn := ptePa e / 4096,
               w := bitAt e 1, prot := s.protectedPage (ptePa e) (pages * 4096) }

/-- The 16 L0 entries of the 64 KiB range of an address, from the table at `base`. -/
def State.group16 (s : State) (base va : Nat) : List Nat :=
  (List.range 16).map fun i => s.physLe (base + (bitsAt va 12 9 / 16 * 16 + i) * 8) 8

/-- The conditions of R402 on the 16 entries of a 64 KiB page. -/
def group16Ok (es : List Nat) : Bool :=
  let e0 := es.headD 0
  ptePa e0 % 0x10000 == 0 && (List.range 16).all fun i =>
    let e := es.getD i 0
    bitAt e 0 && bitAt e 3 && bitAt e 1 == bitAt e0 1 && ptePa e == ptePa e0 + i * 4096 && !pteReserved e

/-- A 64 KiB page built from one of the entries (R402). -/
def State.page64 (s : State) (ctx va e : Nat) : Walk :=
  let pa := bitsAt e 16 32 * 0x10000
  .page { ctx := ctx, vpn := va / 0x10000 * 16, pages := 16, ppn := pa / 4096, w := bitAt e 1,
          prot := s.protectedPage pa 0x10000 }

/-- The result of an L0 entry: its own 4 KiB page, or the 64 KiB page of a group that meets R402; a group that breaks
the conditions gives one of the results that R402 allows, freely chosen. -/
def State.walkL0 (s : State) (ctx va base e : Nat) : Walk × State :=
  let es := s.group16 base va
  let own := if !bitAt e 0 then Walk.bad xfNotPresent 0
             else if pteReserved e then .bad xfWalk 0
             else s.leaf ctx va e 1 0
  if group16Ok es then (s.page64 ctx va e, s)
  else
    let alts := (es.filter fun x => bitAt x 0 && bitAt x 3).map (s.page64 ctx va)
    if alts.isEmpty then (own, s)
    else
      let d := s.draw
      ((own :: alts).getD (d.1 % (alts.length + 1)) own, d.2)

/-- The walk from the table at `base` for the levels still to be indexed (R399 to R402). -/
def State.walkFrom (s : State) (ctx va : Nat) : List Nat → Nat → Walk × State
  | [], _ => (.bad xfWalk 0, s)
  | l :: rest, base =>
    let a := base + bitsAt va (12 + 9 * l) 9 * 8
    if !inHbm base 4096 then (.bad xfWalk l, if s.isFar a then s else s.noteRange a 8)
    else
      if s.poisoned a then (.bad xfWalk l, s)
      else
        let e := s.physLe a 8
        if l = 0 then s.walkL0 ctx va base e
        else if !bitAt e 0 then (.bad xfNotPresent l, s)
        else if pteReserved e then (.bad xfWalk l, s)
        else if bitAt e 2 then
          if l = 2 then (s.leaf ctx va e 0x40000 l, s)
          else if l = 1 then (s.leaf ctx va e 0x200 l, s)
          else (.bad xfWalk l, s)
        else s.walkFrom ctx va rest (ptePa e)

/-- The address, or the fault, that a page gives an access (R401). -/
def Tlb.access (t : Tlb) (va : Nat) (write : Bool) : XRes :=
  if t.prot then .bad xfProtected 0xFF
  else if write && !t.w then .bad xfWrite 0xFF
  else .ok (t.ppn * 4096 + (va - t.vpn * 4096))

/-- The access through the outcome of a walk. -/
def Walk.access (w : Walk) (va : Nat) (write : Bool) : XRes :=
  match w with
  | .page t => t.access va write
  | .bad ty l => .bad ty l

/-- A cached entry that covers an address of a context. -/
def tlbFind (l : List Tlb) (ctx va : Nat) : Option Tlb :=
  l.find? fun t => t.ctx == ctx && decide (t.vpn ≤ va / 4096) && decide (va / 4096 < t.vpn + t.pages)

/-- Adds an entry to a cache of `cap` entries, the oldest leaving first. -/
def tlbAdd (l : List Tlb) (t : Tlb) (cap : Nat) : List Tlb := (t :: l.filter (· != t)).take cap

/-- Caches the page of a walk in the room and floor caches (R403). -/
def State.cachePage (s : State) (r : Nat) (w : Walk) : State :=
  match w with
  | .bad _ _ => s
  | .page t =>
    let f := roomFloor r
    let lr := tlbAdd (s.ms.roomTlb.get (fun _ => []) r) t 1024
    let lf := tlbAdd (s.ms.floorTlb.get (fun _ => []) f) t 8192
    { s with ms := { s.ms with roomTlb := s.ms.roomTlb.set (fun _ => []) r lr,
                               floorTlb := s.ms.floorTlb.set (fun _ => []) f lf } }

/-- Chooses freely among results that differ; a single result needs no choice (R402, R408). -/
def State.choose (s : State) (l : List XRes) (dflt : XRes) : XRes × State :=
  if l.all (· == dflt) then (dflt, s)
  else
    let d := s.draw
    (l.getD (d.1 % l.length) dflt, d.2)

/-- Translation in the paged window: a cached copy that has gone stale may still be used (R403, R408). -/
def State.xlatePaged (s : State) (r ctx va : Nat) (write : Bool) : XRes × State :=
  let p := s.walkFrom ctx va [4, 3, 2, 1, 0] (s.ctx ctx).ptRoot
  let here := p.1.access va write
  let cached := ((tlbFind (s.ms.roomTlb.get (fun _ => []) r) ctx va).toList ++
    (tlbFind (s.ms.floorTlb.get (fun _ => []) (roomFloor r)) ctx va).toList).map fun t => t.access va write
  let q := p.2.choose (here :: cached) here
  (q.1, if q.1 = here then q.2.cachePage r p.1 else q.2)

/-! ### The expert window (R391, R392) -/

/-- The ledger entry of an expert in memory. -/
def State.ledgerMem (s : State) (x : Nat) : BitVec 256 := BitVec.ofNat 256 (s.physLe (s.ledgerBase + x * 32) 32)

/-- STATE of a ledger entry; other values are read as ABSENT (R391). -/
def ldState (e : BitVec 256) : Nat := let v := bitsAt e.toNat 0 8; if v ≤ 3 then v else 0
/-- FLAGS.WRITABLE. -/
def ldWritable (e : BitVec 256) : Bool := bitAt e.toNat 8
/-- FLAGS.FILL_OK. -/
def ldFillOk (e : BitVec 256) : Bool := bitAt e.toNat 9
/-- OWNER. -/
def ldOwner (e : BitVec 256) : Nat := bitsAt e.toNat 16 11
/-- SIZE in 4 KiB units. -/
def ldSize (e : BitVec 256) : Nat := bitsAt e.toNat 32 32
/-- LARDER_PA. -/
def ldLarder (e : BitVec 256) : Nat := bitsAt e.toNat 64 64
/-- CELLAR_PA. -/
def ldCellar (e : BitVec 256) : Nat := bitsAt e.toNat 128 64
/-- REMOTE_PKG. -/
def ldRemote (e : BitVec 256) : Nat := bitsAt e.toNat 192 6

/-- What one ledger entry gives an access at offset `x` (R392, the rows in table order). -/
def State.ledgerAccess (s : State) (e : BitVec 256) (ctx x : Nat) (write : Bool) : XRes :=
  if !s.flag F.MEM_CTRL.LEDGER_EN || ldState e == 0 then .bad xfAbsent 0xFF
  else if ldOwner e ≠ ctx then .bad xfOwner 0xFF
  else if ldSize e * 4096 ≤ x then .bad xfRange 0xFF
  else if write && !ldWritable e then .bad xfWrite 0xFF
  else if ldState e = 1 then .ok (ldLarder e + x)
  else if ldState e = 2 then .ok (ldCellar e + x)
  else .ok (remoteBase + ldRemote e * 0x10000000000 + ldLarder e + x)

/-- A cached ledger entry of a context for an expert; entries carry the tag of the context that cached them (R403). -/
def ledgerFind (l : List (Nat × Nat × BitVec 256)) (ctx x : Nat) : Option (BitVec 256) :=
  (l.find? fun p => p.1 == ctx && p.2.1 == x).map fun p => p.2.2

/-- Translation in the expert window, through the floor's ledger cache (R392, R403, R408). -/
def State.xlateExpert (s : State) (r ctx va : Nat) (write : Bool) : XRes × State :=
  let x := bitsAt va 39 16
  let off := va % 2 ^ 39
  let f := roomFloor r
  let cache := s.ms.ledgerC.get (fun _ => []) f
  let mem := s.ledgerMem x
  let here := s.ledgerAccess mem ctx off write
  let cached := ((ledgerFind cache ctx x).toList).map fun e => s.ledgerAccess e ctx off write
  let q := s.choose (here :: cached) here
  if q.1 = here ∧ ldState mem ≠ 0 ∧ s.flag F.MEM_CTRL.LEDGER_EN then
    let l := ((ctx, x, mem) :: cache.filter fun p => !(p.1 == ctx && p.2.1 == x)).take 512
    (q.1, { q.2 with ms := { q.2.ms with ledgerC := q.2.ms.ledgerC.set (fun _ => []) f l } })
  else q

/-- Translates a virtual address of a context for an access made in physical room `r`. The firmware context uses
addresses as they are (R329); the fill window resolves to nothing (R390; assumption log 22). -/
def State.xlate (s : State) (r ctx va : Nat) (write : Bool) : XRes × State :=
  if ctx = fwCtx then (.ok (vaBits va), s)
  else
    let v := vaBits va
    if vaWindow v < 2 then s.xlatePaged r ctx v write
    else if vaWindow v = 2 then s.xlateExpert r ctx v write
    else (.bad xfNotPresent 0xFF, s)

/-- A translation that leaves no trace in the caches; a free choice it makes is drawn (R9). -/
def State.xlateOnly (s : State) (r ctx va : Nat) (write : Bool) : XRes × State :=
  let x := s.xlate r ctx va write
  (x.1, { s with freeCtr := x.2.freeCtr })

/-- The translation that an access of room `r` used: the entry of the room or floor cache that holds its address, and the page
alone where none does (R406). -/
def State.usedBy (s : State) (r ctx va : Nat) : Used :=
  let v := vaBits va
  let own : Used := { ctx := ctx, va := va, vpn := v / 4096, pages := 1 }
  match (tlbFind (s.ms.roomTlb.get (fun _ => []) r) ctx v) <|> tlbFind (s.ms.floorTlb.get (fun _ => []) (roomFloor r)) ctx v with
  | some t => { own with vpn := t.vpn, pages := t.pages }
  | none => own

/-! ### Larder fills abandoned by a write (R396) -/

/-- The fill of expert x is abandoned and counted (R396). -/
def State.abandonFill (s : State) (x : Nat) : State :=
  if s.ms.fills.any fun f => f.expert == x then
    ({ s with ms := { s.ms with fills := s.ms.fills.filter fun f => f.expert != x } }).countSat F.FILL_COUNTS.FILL_FAIL 1
  else s

/-- A write of a context at an address of the expert window abandons the fill of its expert (R396). -/
def State.wroteExpert (s : State) (ctx va : Nat) : State :=
  if ctx != fwCtx && vaWindow (vaBits va) == 2 then s.abandonFill (bitsAt (vaBits va) 39 16) else s

/-! ### Structures by virtual address -/

/-- Cuts a range at 4 KiB page edges; `fuel` bounds the number of pieces. -/
def pageChunks : Nat → Nat → Nat → List (Nat × Nat)
  | 0, _, _ => []
  | fuel + 1, a, n =>
    if n = 0 then []
    else
      let k := min n (4096 - a % 4096)
      (a, k) :: pageChunks fuel (a + k) (n - k)

/-- `n` freely chosen bytes. -/
def State.freeBytes (s : State) (n : Nat) : List Byte × State := (leList s.draw.1 n, s.draw.2)

/-- What a read of a structure found: its bytes, and the number of its poisoned beats (R324 DESC_POISON); `clean` has zeros in
place of the bytes of those beats (R389, of elements without a NaN). -/
structure SRead where
  bytes : List Byte
  clean : List Byte
  beats : Nat
deriving DecidableEq, Repr

/-- A read of nothing. -/
def SRead.empty : SRead := { bytes := [], clean := [], beats := 0 }

/-- A beat of what was read was poisoned. -/
def SRead.bad (x : SRead) : Bool := x.beats != 0

/-- Two reads, the one after the other. -/
def SRead.append (x y : SRead) : SRead :=
  { bytes := x.bytes ++ y.bytes, clean := x.clean ++ y.clean, beats := x.beats + y.beats }

/-- The number of poisoned beats that a range touches. -/
def State.badBeats (s : State) (a n : Nat) : Nat :=
  ((List.range (n / 64 + 2)).filter fun i => decide (a / 64 + i ≤ (a + n - 1) / 64) && s.poisoned ((a / 64 + i) * 64)).length

/-- Reads a piece of a structure at physical address `pa`; memory of another package gives free bytes. -/
def State.readPiece (s : State) (pa n : Nat) : SRead × State :=
  if s.isFar pa then
    let p := s.freeBytes n
    ({ bytes := p.1, clean := p.1, beats := 0 }, p.2)
  else
    let p := s.physRead pa n
    let clean := (List.range n).map fun i => if s.poisoned (pa + i) then 0 else listByte p.1 i
    ({ bytes := p.1, clean := clean, beats := if n = 0 then 0 else s.badBeats pa n }, p.2)

/-- Reads `n` bytes of a structure at virtual address `va` of a context; a piece that does not translate gives free
bytes (assumption log 23). -/
def State.readVa (s : State) (r ctx va n : Nat) : SRead × State :=
  (pageChunks (n / 4096 + 2) va n).foldl (fun (acc : SRead × State) c =>
    let x := acc.2.xlate r ctx c.1 false
    let q := match x.1 with
      | .ok pa => x.2.readPiece pa c.2
      | .bad _ _ => let p := x.2.freeBytes c.2; ({ bytes := p.1, clean := p.1, beats := 0 }, p.2)
    (acc.1.append q.1, q.2)) (SRead.empty, s)

/-- Writes a few bytes at a virtual address within one page; dropped where it does not translate (assumption log 24)
or where the party wall blocks it (R495); a write to another package leaves as a WR message (R481). A write to an expert
abandons its fill (R396). -/
def State.writeVa (s : State) (r ctx va : Nat) (l : List Byte) : State :=
  let x := s.xlate r ctx va true
  match x.1 with
  | .ok pa =>
    let s0 := x.2.wroteExpert ctx va
    if s0.isFar pa then
      let q := (s0.nextBseq (remotePkg pa) 2).1
      let s1 := s0.originate { Msg.blank 3 2 (remotePkg pa) with addr := remoteOff pa, ctx := ctx % 2048, data := l }
      let w : AckWait := { pkg := remotePkg pa, bseq := q, use := s0.usedBy r ctx va }
      { s1 with link := { s1.link with acks := s1.link.acks ++ [w] } }
    else if s0.wallBlocks pa l.length then s0
    else s0.physWrite pa l
  | .bad _ _ => x.2

/-! ### Invalidation (R405, R409) -/

/-- Removes the cached translations that `sel` selects, in every room and floor. -/
def State.dropTlbs (s : State) (sel : Tlb → Bool) : State :=
  { s with ms := { s.ms with
      roomTlb := s.ms.roomTlb.mapV (fun _ => []) fun l => l.filter fun t => !sel t,
      floorTlb := s.ms.floorTlb.mapV (fun _ => []) fun l => l.filter fun t => !sel t } }

/-- Removes the cached ledger entries that `sel` selects by context and expert, in every floor. -/
def State.dropLedger (s : State) (sel : Nat → Nat → Bool) : State :=
  { s with ms := { s.ms with ledgerC := s.ms.ledgerC.mapV (fun _ => []) fun l => l.filter fun e => !sel e.1 e.2.1 } }

end Sys2Proof.Machine
end

