-- ==== Sys2Proof/Machine/Cmds.lean ====
section
/-! DEFINITION. Commands held in a room and how they end: completion (R302, R304), faults of a context, of the firmware
stream and of a CALL (R323, R324, R329, R347), the flue records of both (R326), and what an ended command gives back. -/

namespace Sys2Proof.Machine

/-- The command that a reference names. -/
def State.cmd (s : State) (c : CmdRef) : Option RoomCmd := (s.room c.room.val).find c.seq

/-- Changes one command of a room. -/
def State.updCmd (s : State) (r seq : Nat) (f : RoomCmd → RoomCmd) : State :=
  let x := s.room r
  s.setRoom r { x with cmds := x.cmds.map fun c => if c.seq = seq then f c else c }

/-- A command of a tenant: it came from an inbox (R326, R327). -/
def RoomCmd.isTenant (c : RoomCmd) : Bool :=
  match c.src with
  | .inbox _ => true
  | _ => false

/-- A command that a routine or a service entry issued (R356). -/
def RoomCmd.isIssued (c : RoomCmd) : Bool :=
  match c.src with
  | .issued _ _ => true
  | _ => false

/-- QIDX of a command's records: 0xFFFF_FFFF for the firmware stream (R329, R413). -/
def RoomCmd.qidxRec (c : RoomCmd) : Nat := if c.isTenant then c.qidx else 0xFFFFFFFF

/-- The physical engine of a command in PLACE encoding, once it has one (R324). -/
def RoomCmd.physRec (c : RoomCmd) : Option Nat := c.eng.map physPlace

/-! ### Records -/

/-- The 16 bytes of a completion status word (R304). -/
def statusBytes (st cause info tag tEnd : Nat) : List Byte :=
  leList (st + cause % 2 ^ 8 * 2 ^ 8 + info % 2 ^ 8 * 2 ^ 16 + tag % 2 ^ 32 * 2 ^ 32 + tEnd % 2 ^ 64 * 2 ^ 64) 16

/-- Writes the status word of a command, if it names one; unspecified bytes for an undefined result (R8). -/
def State.writeStatus (s : State) (r : Nat) (c : RoomCmd) (st cause : Nat) : State :=
  if dStatus c.desc = 0 then s
  else if c.undef then
    let p := s.freeBytes 16
    p.2.writeVa r c.ctx (dStatus c.desc) p.1
  else
    s.writeVa r c.ctx (dStatus c.desc)
      (statusBytes st cause (b2n c.noWrite + 2 * b2n c.shape.isSome) (dTag c.desc) s.ts.toNat)

/-- Gives every field of a fault record that no rule gives a value a free one (assumption log 32). -/
def State.settle (s : State) (i : FaultInfo) : FaultInfo × State :=
  let d := s.draw.1
  ({ i with
     detail := some (i.detail.getD (bitsAt d 0 8))
     inst := some (i.inst.getD (bitsAt d 8 32))
     tileRow := some (i.tileRow.getD (bitsAt d 40 32))
     tileCol := some (i.tileCol.getD (bitsAt d 72 32))
     faultAddr := some (i.faultAddr.getD (bitsAt d 104 64))
     region := some (i.region.getD (bitsAt d 168 128))
     phys := some (i.phys.getD (bitsAt d 296 16)) }, s.draw.2)

/-- The 64 bytes of a settled fault record (R324). -/
def faultBytes (i : FaultInfo) (more tag place qidx t : Nat) : List Byte :=
  leList (i.cause % 2 ^ 8 + i.detail.getD 0 % 2 ^ 8 * 2 ^ 8 + more % 2 ^ 16 * 2 ^ 16 +
    i.tagOf.getD tag % 2 ^ 32 * 2 ^ 32 + place % 2 ^ 16 * 2 ^ 64 + i.phys.getD 0 % 2 ^ 16 * 2 ^ 80 +
    i.inst.getD 0 % 2 ^ 32 * 2 ^ 96 + qidx % 2 ^ 32 * 2 ^ 128 + i.tileRow.getD 0 % 2 ^ 32 * 2 ^ 160 +
    i.tileCol.getD 0 % 2 ^ 32 * 2 ^ 192 + i.faultAddr.getD 0 % 2 ^ 64 * 2 ^ 256 +
    i.region.getD 0 % 2 ^ 128 * 2 ^ 320 + t % 2 ^ 64 * 2 ^ 448) 64

/-- Signals one of a context's vectors in its function's table (R516). -/
def State.ctxVector (s : State) (x : Ctx) (vec : Nat) : State := s.signal (funcOf x.func) vec

/-- A fault of context `c` (R323): the first writes the record, sets FAULTED and signals the fault vector; later ones
count in MORE. -/
def State.ctxFault (s : State) (c : Nat) (i : FaultInfo) (tag place qidx : Nat) : State :=
  let x := s.ctx c
  if x.faulted then
    let more := satAdd 0xFFFF x.more 1
    (s.setCtx c { x with more := more }).physWrite (x.faultRec + 2) (leList more 2)
  else
    let p := s.settle i
    let s1 := (p.2.setCtx c { x with faulted := true }).physWrite x.faultRec
      (faultBytes p.1 0 tag place qidx s.ts.toNat)
    s1.ctxVector x x.faultVec

/-- A fault of a firmware command of room `r` (R329): the record goes to FW_FAULT, FAULTED sets, the management core is
interrupted. -/
def State.fwFault (s : State) (r : Nat) (i : FaultInfo) (tag place : Nat) : State :=
  let p := s.settle i
  let rec16 := leOfList (faultBytes p.1 0 tag place 0xFFFFFFFF s.ts.toNat)
  let s1 := (List.range 16).foldl (fun st w =>
    st.setReg (Off.FW_FAULT r w) (BitVec.ofNat 32 (bitsAt rec16 (32 * w) 32))) p.2
  (s1.fset (F.FW_STATUS.FAULTED r) 1).mgmtIrq r

/-- The flue record of a tenant command's event (R326); PHYS is free where the command has no engine (assumption
log 32). -/
def State.flueCmd (s : State) (ty cause : Nat) (c : RoomCmd) (phys : Option Nat) : State :=
  let p := match phys with
    | some n => (n, s)
    | none => s.draw
  p.2.fluePush (flueRecord ty cause c.ctx (dTag c.desc) (dPlace c.desc) p.1 c.qidx c.tDispatch s.ts.toNat)

/-! ### What an ended command gives back -/

/-- Removes streams of an engine that `sel` selects, with their tickets and fault-ring records that still wait
(R412, R523). -/
def State.dropStreams (s : State) (e : Nat) (sel : Stream → Bool) : State :=
  let x := s.eng e
  let gone := (x.streams.filter sel).map fun t => t.id
  let isGone := fun (r : StreamRef) => r.eng.val == e && gone.contains r.id
  let s1 := s.setEng e { x with streams := x.streams.filter fun t => !sel t }
  let kept := s1.ms.tickets.filter fun t => !isGone t.stream
  { s1 with ms := { s1.ms with
      tickets := kept
      noTicket := s1.ms.noTicket.filter fun p => !isGone p.1
      xfWait := s1.ms.xfWait.filter fun n => kept.any fun t => t.num == n
      bursts := s1.ms.bursts.filter fun b => !isGone b.strm } }

/-- Whether a slot of engine `e` still has a command of the room that uses it. -/
def RoomSt.usesSlot (x : RoomSt) (e n : Nat) : Bool :=
  (x.cmds.any fun c => c.eng == some e && c.slot == n && c.st != .waiting ||
    c.eng == some e && c.slot == n && !c.isTenant) ||
  (x.reading.any fun i => i.eng == e && i.slot == n) ||
  (x.tloads.any fun t => t.eng == e && t.slot == n) ||
  x.held.any fun h => match h with
    | some (.read i) => i.eng == e && i.slot == n
    | _ => false

/-- Whether a running call or service entry holds the slot (R355). -/
def RoomSt.holdsSlot (x : RoomSt) (e n : Nat) : Bool :=
  (match x.callSt with
   | some k => k.eng == some e && k.slot == n
   | none => false) ||
  ((x.svcSt :: x.svcStack).any fun k => k.eng == some e && k.slot == n)

/-- Frees the bound slots of a room that no call holds any more and whose commands have all ended (R355). -/
def State.freeBound (s : State) (r : Nat) : State :=
  (List.range 5).foldl (fun st k =>
    let e := r * 5 + k
    (List.range 4).foldl (fun st2 n =>
      let t := (st2.eng e).slot n
      if t.bound && !(st2.room r).holdsSlot e n && !(st2.room r).usesSlot e n
      then st2.setEng e ((st2.eng e).setSlot n TaskSlot.empty) else st2) st) s

/-- Unbinds the inboxes of a room that hold no command (R44; assumption log 25). -/
def State.unbindIdle (s : State) (r : Nat) : State :=
  let x := s.room r
  s.setRoom r ((List.range 4).foldl (fun y i =>
    if (y.inbox i).bound && y.depth i == 0 then y.setInbox i Inbox.free else y) x)

/-- Takes an ended command out of its room: its streams, its task slot, its inbox entry and its regions are free
(R44, R288, R317, R424). -/
def State.endCmd (s : State) (r : Nat) (c : RoomCmd) : State :=
  let x := s.room r
  let s1 := s.setRoom r { x with cmds := x.cmds.filter fun d => d.seq != c.seq }
  let s2 := match c.eng with
    | none => s1
    | some e =>
      let s1a := s1.dropStreams e fun t => t.cmd == c.seq
      let t := (s1a.eng e).slot c.slot
      if t.cmd = some c.seq ∧ !t.bound then s1a.setEng e ((s1a.eng e).setSlot c.slot TaskSlot.empty)
      else if t.cmd = some c.seq then s1a.setEng e ((s1a.eng e).setSlot c.slot { t with cmd := none }) else s1a
  (s2.freeBound r).unbindIdle r

/-- The level of the call that executes: zero for the CALL, else the depth of its service entry. -/
def RoomSt.level (x : RoomSt) : Nat := if x.core.call.isSome then 0 else x.svcStack.length + 1

/-- Changes the coprocessor state of the call at a level, if there is one. -/
def RoomSt.updCop (x : RoomSt) (n : Nat) (f : CallSt → CallSt) : RoomSt :=
  if n = 0 then { x with callSt := x.callSt.map f }
  else if n = x.svcStack.length + 1 then { x with svcSt := f x.svcSt }
  else { x with svcStack := x.svcStack.modify (x.svcStack.length - n) f }

/-- Records the end of an issued command for its call (R352 EWAIT, R356). Tickets from 65536 on belong to calls that have
ended. -/
def State.noteTicket (s : State) (r : Nat) (src : Src) (st : Nat) : State :=
  match src with
  | .issued n t =>
    let x := (s.room r).updCop n fun k => { k with ended := (t, st) :: k.ended }
    if 65536 ≤ t then s
    else s.setRoom r (if x.core.active && x.level == n then { x with core := x.core.seeTicket t st } else x)
  | _ => s

/-- Ends the routine of the running CALL at once (R347): the pair goes idle, or goes on with its service entry. -/
def State.stopRoutine (s : State) (r : Nat) : State :=
  let x := s.room r
  if x.core.call.isSome then s.setRoom r { x with core := CoreSt.idle }
  else s.setRoom r { x with svcSaved := x.svcSaved.filter fun c => c.call.isNone }

/-- Gives the running CALL of a room a fault, unless it has one, and stops its routine (R347). -/
def State.faultCall (s : State) (r : Nat) (i : FaultInfo) : State :=
  match (s.room r).cmds.find? fun c => dOpcode c.desc == 9 && c.st == .running with
  | some c =>
    (s.updCmd r c.seq fun d => if d.fault.isSome then d else { d with fault := some i }).stopRoutine r
  | none => s

/-- Where a faulted command was: 1 + room for a tenant's, 100 + room for one of the firmware stream. -/
def RoomCmd.deadAt (c : RoomCmd) (r : Nat) : Nat := if c.isTenant then 1 + r else 100 + r

/-- The tag, order and place of a faulted command, so that no later dependency on it is ever satisfied (R295, R298);
`w` is zero for a descriptor that was not delivered. -/
def State.deadTag (s : State) (c : RoomCmd) (w : Nat) : State :=
  let x := s.ctx c.ctx
  s.setCtx c.ctx { x with deadTags := x.deadTags ++ [(dTag c.desc, c.ord, w)] }

/-- A ticket of a call that has ended. -/
def oldTicket (t : Nat) : Nat := if t < 65536 then t + 65536 else t

/-- Marks what an ended call of a level has issued and that still runs. -/
def RoomSt.relabel (x : RoomSt) (n : Nat) : RoomSt :=
  let src := fun (q : Src) => match q with
    | .issued v t => if v = n then .issued v (oldTicket t) else .issued v t
    | o => o
  let rd := fun (i : IssueRead) => if i.level = n then { i with ticket := oldTicket i.ticket } else i
  let act := fun (a : HeldAct) => match a with
    | .read i => .read (rd i)
    | o => o
  { x with cmds := x.cmds.map fun c => { c with src := src c.src },
           reading := x.reading.map rd, held := x.held.map fun o => o.map act }

/-- A CALL that has been dispatched: the room's coprocessor state is that of its routine (R348, R355). -/
def RoomCmd.calls (c : RoomCmd) : Bool := dOpcode c.desc == 9 && (c.st == .running || c.st == .done)

/-- The end of the CALL's coprocessor state when the CALL itself ends (R355). -/
def State.dropCall (s : State) (r : Nat) (c : RoomCmd) : State :=
  if c.calls then
    let x := (s.room r).relabel 0
    s.setRoom r { x with callSt := none }
  else s

/-- A command faults (R323, R326, R329, R347). -/
def State.cmdFault (s : State) (r : Nat) (c : RoomCmd) (i : FaultInfo) : State :=
  let i1 := { i with phys := i.phys <|> c.physRec }
  let s1 := ((s.writeStatus r c 2 i.cause).deadTag c (c.deadAt r)).dropCall r c
  let s2 := match c.src with
    | .inbox _ => (s1.ctxFault c.ctx i1 (dTag c.desc) (dPlace c.desc) c.qidx).flueCmd 3 i.cause c i1.phys
    | .fw => s1.fwFault r i1 (dTag c.desc) (dPlace c.desc)
    | .issued (_ + 1) _ => (s1.noteTicket r c.src 2).fwFault r i1 (dTag c.desc) (dPlace c.desc)
    | .issued 0 t =>
      if t < 65536 then (s1.noteTicket r c.src 2).faultCall r { i1 with tagOf := some (dTag c.desc) }
      else s1.fwFault r i1 (dTag c.desc) (dPlace c.desc)
  s2.endCmd r c

/-- A signal entry is applied (R299). -/
def State.applySigEntry (s : State) (e : Nat) : State := s.applySignal (bitsAt e 0 2) (bitsAt e 2 14) (bitsAt e 32 32)

/-- A command completes (R302): status word, signals, dependants, flue record and interrupt. The release of TAG
dependants is that the command is gone (R297). The output regions of one with an undefined result, its own or its room's, are
free (R7, R12, R379). A completion is an event for a service entry (R349). -/
def State.cmdComplete (s : State) (r : Nat) (c : RoomCmd) : State :=
  let s0 := if c.undef || (s.room r).undef then s.freeParts r c.ctx c.regions else s
  let s1 := s0.writeStatus r c 1 0
  let s2 := (s1.applySigEntry (dSig c.desc 0)).applySigEntry (dSig c.desc 1)
  let s3 := (s2.dropCall r c).noteTicket r c.src 1
  let s4 := if c.isTenant then s3.flueCmd 2 0 c c.physRec else s3
  let x := s4.ctx c.ctx
  let s5 := if dIrq c.desc && x.live then s4.ctxVector x x.cmplVec else s4
  let s6 := s5.endCmd r c
  s6.setRoom r { s6.room r with evDone := true }

/-- A command that has just entered a room. -/
def RoomCmd.waiting (seq : Nat) (src : Src) (ctx : Nat) (desc : BitVec 2048) (qidx ord : Nat) : RoomCmd :=
  { seq := seq, src := src, ctx := ctx, desc := desc, qidx := qidx, ord := ord, depSat := 0, st := .waiting,
    eng := none, slot := 0, dst := none, passed := false, tDispatch := 0, regions := [], aff := 0, shape := none,
    badRec := false, started := false, noWrite := false, undef := false, home := none, prog := none, fault := none }

/-- A descriptor faults before it enters a room (R288, R55, R586): fault of its context, flue record and status
word. -/
def State.faultUndelivered (s : State) (r c : Nat) (desc : BitVec 2048) (qidx : Nat) (i : FaultInfo) : State :=
  let cmd := RoomCmd.waiting 0 (.inbox 0) c desc qidx s.nextOrd
  ((((s.writeStatus r cmd 2 i.cause).deadTag cmd 0).ctxFault c i (dTag desc) (dPlace desc) qidx).flueCmd 3 i.cause
    cmd i.phys)

end Sys2Proof.Machine
end

