-- ==== Sys2Proof/Machine/Fences.lean ====
section
/-! DEFINITION. Cold reset of the state (R577), the stop of the package (R550), and fences of engines, rooms and dies
with the commands they end (R54 to R73, R586). -/

namespace Sys2Proof.Machine

/-! ### Cold reset and package stop -/

/-- Registers of the always-on VAUX domain keep their values over a cold reset (R577, R584). -/
def State.vauxRegs (s : State) : FMap W32 :=
  FMap.set RegMap.resetOf [] Off.RST_CAUSE (s.reg Off.RST_CAUSE)

/-- P writes of the AON domain survive warm and cold reset (R587). -/
def State.aonWrites (s : State) : List PWrite := s.pwrites.filter fun p => p.dom == .aon

/-- Memory outside the package: cellar and host memory, which no reset of the package clears (R577). -/
def State.outerMem (s : State) : FMap Byte := s.ms.mem.filter fun p => decide (hbmEnd ≤ p.1)

/-- The state a cold reset leaves (R577): everything at its reset value but the VAUX domain, the boot flash, memory
outside the package, and what is outside the device. `h` says why the package is held. -/
def State.coldClear (s : State) (h : Hold) : State :=
  let aon := s.aonWrites
  let z := { State.reset with
    pending := s.pending
    freeCtr := s.freeCtr
    outbox := s.outbox
    regs := s.vauxRegs
    pwrites := aon
    ms := { MemSt.reset with mem := s.outerMem }
    boot := { State.reset.boot with flash := s.boot.flash }
    jtag := s.jtag
    pwr := { State.reset.pwr with hold := h, thermtrip := s.pwr.thermtrip, resetN := s.pwr.resetN } }
  if aon.isEmpty then z else z.fset F.DOMAIN_BUSY.AON 1

/-- Removes the bypass bias of both rings (R550, R575). -/
def State.dropBias (s : State) : State := (s.emit (.rings 0 false)).emit (.rings 1 false)

/-- The package stops as on loss of the root clock (R56, R549, R550). For the loss of the IO die or of the last die R56 and R61
name the fence of the package and no bit of RST_CAUSE and no release: that CLOCK is set and that RESET_N releases the hold is the
model's choice (assumption log 103, DESIGN CHOICE). -/
def State.packageStop (s : State) : State := ((s.dropBias).coldClear .clock).fset F.RST_CAUSE.CLOCK 1

/-! ### Fences -/

/-- A fault of the given cause naming a physical position (R55, R62, R586). -/
def fenceInfo (cause phys : Nat) : FaultInfo := { FaultInfo.mk0 cause with phys := some phys }

/-- Cause DIE_FENCE (R324). -/
def causeDieFence : Nat := 0x06
/-- Cause UNIT_FENCE (R324). -/
def causeUnitFence : Nat := 0x07
/-- Cause PLACE (R324). -/
def causePlace : Nat := 0x08
/-- Cause QUEUE_OVERRUN (R324). -/
def causeOverrun : Nat := 0x09
/-- Cause ILLEGAL (R324). -/
def causeIllegal : Nat := 0x0A
/-- Cause LATCH_RANGE (R324). -/
def causeLatchRange : Nat := 0x0B
/-- Cause DESC_POISON (R324). -/
def causePoison : Nat := 0x0C
/-- Cause ROUTINE (R324). -/
def causeRoutine : Nat := 0x0D
/-- Cause REGION (R324). -/
def causeRegion : Nat := 0x01

/-- Faults every command of room `r` that `sel` selects, in room sequence order. -/
def State.faultCmds (s : State) (r : Nat) (sel : RoomCmd → Bool) (info : RoomCmd → FaultInfo) : State :=
  ((s.room r).cmds.filter sel).foldl (fun st c =>
    match (st.room r).find c.seq with
    | some d => st.cmdFault r d (info d)
    | none => st) s

/-- Resident on engine `e`: of an operation of an engine, dispatched to it and not ended. -/
def RoomCmd.residentOn (c : RoomCmd) (e : Nat) : Bool :=
  c.eng == some e && usesEngine (dOpcode c.desc) && (c.st == .running || c.st == .done)

/-- Ends what is resident in a fenced engine (R62) and gives its slots back. -/
def State.evictEngine (s : State) (e : Nat) (cause : Nat) : State :=
  let r := engRoom e
  let s1 := s.faultCmds r (·.residentOn e) fun _ => fenceInfo cause (physPlace e)
  s1.setEng e { (s1.eng e) with slots := [], active := none, wantSw := false, streams := [] }

/-- The physical position behind logical engine `le` of physical room `r`, for a record that names room `r` as fenced (R62,
R324, R586): the engine where ENGINE_REMAP names one, else the room. -/
def State.placeIn (s : State) (r le : Nat) : Nat :=
  match s.physEng r le with
  | some e => physPlace e
  | none => roomPlace r

/-- Ends every command of a fenced room, waiting or dispatched (R62, R586); CALLs end with it, and the cores stop. -/
def State.evictRoom (s : State) (r : Nat) (cause : Nat) : State :=
  let s1 := s.faultCmds r (fun _ => true) fun d =>
    fenceInfo cause (d.physRec.getD (s.placeIn r (plEng (dPlace d.desc))))
  let s2 := (List.range 5).foldl (fun st k =>
    st.setEng (r * 5 + k) { (st.eng (r * 5 + k)) with slots := [], active := none, wantSw := false, streams := [] }) s1
  s2.setRoom r { (s2.room r) with
    core := CoreSt.idle, svcSaved := [], callSt := none, svcSt := CallSt.fresh, svcStack := [], reading := [], held := [], delay := [],
    tloads := [] }

/-- Sets a bit of a field. -/
def State.setBit (s : State) (f : Fld) (i : Nat) : State := s.forBits f (2 ^ i)

/-- Clears a bit of a field. -/
def State.clrBit (s : State) (f : Fld) (i : Nat) : State := s.fset f (s.fget f &&& (2 ^ f.width - 1 - 2 ^ i))

/-- The FENCED bits of an engine's room. -/
def State.setEngFenced (s : State) (e : Nat) (hw : Bool) : State :=
  let r := engRoom e
  let s1 := s.setBit (F.ENGINE_REMAP.FENCED r) (e % 5)
  if hw then s1.setBit (F.ENGINE_FENCE.HW_FENCE r) (e % 5) else s1

/-- The FENCED bits of a room's floor. -/
def State.setRoomFenced (s : State) (r : Nat) (hw : Bool) : State :=
  let f := roomFloor r
  let s1 := s.setBit (F.FLOOR_REMAP.FENCED f) (r % 5)
  if hw then s1.setBit (F.ROOM_FENCE.HW_FENCE f) (r % 5) else s1

/-- A device-detected fence of engine `e` (R61, R62, R73). -/
def State.fenceEngine (s : State) (e : Nat) : State :=
  ((s.setEngFenced e true).evictEngine e causeUnitFence).pkgEvent evPkgFault

/-- A device-detected fence of room `r` (R61, R62, R73). -/
def State.fenceRoom (s : State) (r : Nat) : State :=
  ((s.setRoomFenced r true).evictRoom r causeUnitFence).pkgEvent evPkgFault

/-- The fence of a die (R54, R55): its rooms and engines are fenced and every command on it ends with DIE_FENCE. The records
that its mortar stages hold are lost. -/
def State.fenceDieUnits (s : State) (d : Nat) : State :=
  let s1 := s.fset { off := Off.PKG_CAPACITY, lsb := 13 + d, width := 1 } 0
  let s2 := (List.range 15).foldl (fun st k =>
    let r := d * 15 + k
    let st1 := (st.setRoomFenced r true).evictRoom r causeDieFence
    (List.range 5).foldl (fun q j => q.setEngFenced (r * 5 + j) true) st1) s1
  let s3 := { s2 with mo := { s2.mo with
    floorTab := s2.mo.floorTab.filter fun p => p.1 / 3 != d
    dieTab := s2.mo.dieTab.filter fun p => p.1 != d
    dieIn := s2.mo.dieIn.filter fun p => p.1 != d } }
  s3.pkgEvent evPkgFault

/-- A die failure (R54, R55); with no die left the package stops (R56, R61). -/
def State.fenceDie (s : State) (d : Nat) : State :=
  let s1 := s.fenceDieUnits d
  if s1.dieUp 0 || s1.dieUp 1 then s1 else s1.packageStop

end Sys2Proof.Machine
end

