-- ==== Sys2Proof/Machine/Queues.lean ====
section
/-! DEFINITION. Doorbell pages, submission queues and the delivery of descriptors to inboxes (R281 to R291, R586). -/

namespace Sys2Proof.Machine

/-- The context whose page is reached: by number through the PF, by function and slot through a VF (R508, R509). -/
def State.pageCtx (s : State) (p : DbPage) : Option Nat :=
  match p with
  | .pf c => if (s.ctx c.val).live then some c.val else none
  | .vf v sl => (s.ctxs.find? fun e => decide (e.1 < 2048) && e.2.live && e.2.func == v.val + 1 &&
      e.2.vslot == sl.val).map fun e => e.1

/-- QSIZE of a context (R281, R519). -/
def Ctx.qsize (x : Ctx) : Nat := 2 ^ x.qlog2

/-- DB_DEPTH (R282). -/
def Ctx.depth (x : Ctx) : Nat := (x.tail + x.qsize - x.head) % x.qsize

/-- A doorbell write of DB_TAIL (R285). An overrun names no descriptor: the tag, place, position and queue index of its
record are free values (assumption log 27). -/
def State.doorbell (s : State) (c v : Nat) : State :=
  let x := s.ctx c
  if x.stopped ∨ x.qsize ≤ v then s
  else if x.qsize - 1 < x.depth + (v + x.qsize - x.tail) % x.qsize then
    let a := s.draw
    let b := a.2.draw
    let d := b.2.draw
    d.2.ctxFault c (FaultInfo.mk0 causeOverrun) a.1 b.1 d.1
  else s.setCtx c { x with tail := v }

/-- DB_TAIL_WRITE (R81, R139, R148, R285): a page whose context is not LIVE ignores the write. -/
def execDbTailWrite (p : DbPage) (w : BusWr) (s : State) : Host.Outcome State Fault Refusal :=
  .next (s.whole w fun s1 =>
    match s1.pageCtx p with
    | some c => s1.doorbell c (w.val.toNat % 2 ^ 20)
    | none => s1)

/-- A read of DB_DEPTH that returns the selected bytes of the word: held with COMPAT set and the queue full (R289); zero while
the context is not LIVE (R148). -/
def State.depthRead (s : State) (p : DbPage) (select : Nat → Nat) : State :=
  match s.pageCtx p with
  | some c =>
    let x := s.ctx c
    if x.compat ∧ x.depth = x.qsize - 1 then s.setCtx c { x with heldReads := x.heldReads ++ [p] }
    else s.emit (.pageRead p (select x.depth))
  | none => s.emit (.pageRead p 0)

/-- DB_DEPTH_READ (R148, R289): with COMPAT set and the queue full the read is held; otherwise it returns the depth. -/
def execDbDepthRead (p : DbPage) (s : State) : Host.Outcome State Fault Refusal :=
  .next (if s.running then s.depthRead p id else s)

/-- A word of a doorbell page other than DB_DEPTH (R147): the tail, the head, or LIVE, COMPAT and FAULTED; zero at a reserved
offset (R15) and while the context is not LIVE (R148). -/
def State.pageWord (s : State) (p : DbPage) (off : Nat) : Nat :=
  match s.pageCtx p with
  | none => 0
  | some c =>
    let x := s.ctx c
    if off = 0x0 then x.tail
    else if off = 0x4 then x.head
    else if off = 0xC then b2n x.live + b2n x.compat * 2 + b2n x.faulted * 4
    else 0

/-- A read of an aligned word of a doorbell page (R80, R147, R148, R289). -/
def State.readPage (s : State) (p : DbPage) (off : Nat) (be : BitVec 4) : State :=
  let select := fun (v : Nat) => v &&& (laneMask be).toNat
  if off = 0x8 then s.depthRead p select else s.emit (.pageRead p (select (s.pageWord p off)))

/-- COMPAT_HOLD_END (R289): a held read completes when the depth has fallen, or after 40 µs, with the depth of that
moment. -/
def execCompatHoldEnd (p : DbPage) (timeout : Bool) (s : State) : Host.Outcome State Fault Refusal :=
  .next (match s.pageCtx p with
    | some c =>
      let x := s.ctx c
      if x.heldReads.contains p && (timeout || x.depth != x.qsize - 1) then
        (s.setCtx c { x with heldReads := x.heldReads.erase p }).emit (.pageRead p x.depth)
      else s
    | none => s)

/-! ### Delivery -/

/-- The context's queue holds an unread descriptor that the reader may read (R283, R287, R323, R523). -/
def Ctx.unread (x : Ctx) : Bool := x.live && !x.faulted && !x.stopped && x.head != x.tail

/-- Marks on a new command every latch dependency that the latch's present value satisfies (R297). -/
def State.seeLatches (s : State) (c : RoomCmd) : RoomCmd :=
  (List.range 4).foldl (fun d i =>
    let e := dDep d.desc i
    if 2 ≤ bitsAt e 0 2 then d.seeLatch (bitsAt e 2 14) (s.latchVal (bitsAt e 2 14)) else d) c

/-- Puts a command into room `r` with the next room sequence number (R315). -/
def State.enterRoom (s : State) (r : Nat) (src : Src) (ctx : Nat) (desc : BitVec 2048) (qidx : Nat) : State :=
  let x := s.room r
  let c := s.seeLatches (RoomCmd.waiting x.nextSeq src ctx desc qidx s.nextOrd)
  { s.setRoom r { x with cmds := x.cmds ++ [c], nextSeq := x.nextSeq + 1 } with nextOrd := s.nextOrd + 1 }

/-- Clears the MASON_DROP counters of inbox `i` of a room when it binds a context (R252). -/
def State.clearDrops (s : State) (r i : Nat) : State :=
  (List.range 5).foldl (fun st e => st.fset (F.MASON_DROP.COUNT r e i) 0) s

/-- What becomes of the descriptor at a queue's head: a fault, an inbox of a physical room (bound already or to be
bound), or a wait. -/
inductive Delivery where
  | fault (i : FaultInfo)
  | inbox (r i : Nat)
  | bind (r i : Nat)
  | wait
deriving DecidableEq, Repr

/-- A fault of cause PLACE. -/
def placeInfo : FaultInfo := FaultInfo.mk0 causePlace

/-- ROOM_MASK admits the logical room of a PLACE; logical room 4 has no bit (R141, R142; assumption log 28). -/
def State.roomAdmits (s : State) (p place : Nat) : Bool :=
  decide (plRoom place < 4) && bitAt (s.fget (F.PART_ROOMS.ROOM_MASK p)) (plFloor place * 4 + plRoom place)

/-- Where R288, R55, R64, R566 and R586 send a descriptor of context `c` that names `place`. -/
def State.deliverTo (s : State) (c place : Nat) : Delivery :=
  if !plLegal place then .fault (FaultInfo.mk0 causeIllegal)
  else if !s.dieUp (plDie place) then .fault (FaultInfo.mk0 causeDieFence)
  else match s.physRoom (plFloor place) (plRoom place) with
    | none => .fault placeInfo
    | some r =>
      if s.roomFenced r then .fault (fenceInfo causeUnitFence (s.placeIn r (plEng place)))
      else if s.roomOut r then .fault placeInfo
      else match s.partitionOf c with
        | none => .fault placeInfo
        | some p =>
          if !s.roomAdmits p place then .fault placeInfo
          else
            let x := s.room r
            match (List.range 4).find? fun i => (x.inbox i).bound && (x.inbox i).ctx == c with
            | some i => if x.depth i < 64 then .inbox r i else .wait
            | none =>
              match (List.range 4).find? fun i => !(x.inbox i).bound with
              | some i => if s.partInboxes p < s.fget (F.PART_ROOMS.MAX_INBOXES p) then .bind r i else .wait
              | none => .wait

/-- The descriptor at the head of a context's queue (R282). -/
def State.headDesc (s : State) (x : Ctx) : BitVec 2048 := BitVec.ofNat 2048 (s.physLe (x.qbase + x.head * 256) 256)

/-- A beat of the descriptor at the head is poisoned (R324 DESC_POISON). -/
def State.headPoisoned (s : State) (x : Ctx) : Bool :=
  (List.range 4).any fun i => s.poisoned (x.qbase + x.head * 256 + i * 64)

/-- What becomes of the next descriptor of context `c`. -/
def State.nextDelivery (s : State) (c : Nat) : Delivery :=
  let x := s.ctx c
  if s.headPoisoned x then .fault (FaultInfo.mk0 causePoison) else s.deliverTo c (dPlace (s.headDesc x))

/-- Contexts with an unread descriptor that need not wait, in ascending context ID. -/
def State.readyQueues (s : State) : List Nat :=
  (s.ctxs.filter fun e => decide (e.1 < 2048) && e.2.unread && s.nextDelivery e.1 != .wait).map fun e => e.1

/-- The context the queue reader serves next: the present one while its turn of 16 lasts, else the next in round robin
by context ID (R287). -/
def State.nextQueue (s : State) : Option Nat :=
  let l := s.readyQueues
  if 0 < s.rrLeft ∧ s.rrLast ∈ l then some s.rrLast
  else
    match l.find? fun c => decide (s.rrLast < c) with
    | some c => some c
    | none => l.head?

/-- The head passes a delivered descriptor (R286). -/
def State.advanceHead (s : State) (c : Nat) : State :=
  let x := s.ctx c
  s.setCtx c { x with head := (x.head + 1) % x.qsize }

/-- Binds inbox `i` of room `r` to context `c` (R141, R252, R288). -/
def State.bindInbox (s : State) (r i c : Nat) : State :=
  (s.setRoom r ((s.room r).setInbox i { ctx := c, bound := true })).clearDrops r i

/-- Carries out a delivery of the next descriptor of context `c`. -/
def State.deliver (s : State) (c : Nat) : State :=
  let x := s.ctx c
  let d := s.headDesc x
  match s.nextDelivery c with
  | .wait => s
  | .fault i => s.faultUndelivered (((s.physRoom (plFloor (dPlace d)) (plRoom (dPlace d))).getD 0)) c d x.head i
  | .inbox r i => (s.enterRoom r (.inbox i) c d x.head).advanceHead c
  | .bind r i => ((s.bindInbox r i c).enterRoom r (.inbox i) c d x.head).advanceHead c

/-- DESCRIPTOR_DELIVERY (R286 to R288): one descriptor of the context that the queue reader serves. -/
def execDescriptorDelivery (s : State) : Host.Outcome State Fault Refusal :=
  .next (match s.nextQueue with
    | none => s
    | some c =>
      let left := if c = s.rrLast ∧ 0 < s.rrLeft then s.rrLeft - 1 else 15
      { s.deliver c with rrLast := c, rrLeft := left })

end Sys2Proof.Machine
end

