-- ==== Sys2Proof/Machine/Registers.lean ====
section
/-! DEFINITION. Register writes, the lock, staged and posted writes, and the identity mailbox (R80 to R118, R146). -/

namespace Sys2Proof.Machine

/-- The word that an access names: the bus carries the address bits of an aligned word inside the BAR or page, and the
offsets of a VF's BAR2 below 0x8000 are its doorbell pages (R80, R143, R147, R509; log 62). -/
def wordOf : RegTarget → RegTarget
  | .bar0 off => .bar0 (off % 0x10000000 / 4 * 4)
  | .page p off => .page p (off % 0x1000 / 4 * 4)
  | .vfBar2 v off =>
    let o := off % 0x10000 / 4 * 4
    if o < 0x8000 then .page (.vf v (Fin.ofNat 8 (o / 0x1000))) (o % 0x1000) else .vfBar2 v o

/-- The word above: where the upper half of a 64-bit access falls (R82). -/
def wordUp : RegTarget → RegTarget
  | .bar0 off => .bar0 (off + 4)
  | .page p off => .page p (off + 4)
  | .vfBar2 v off => .vfBar2 v (off + 4)

/-- A 32-bit write of an aligned word: every field of the register that has no row of its own. In a doorbell page only DB_TAIL
is writable, and it has a row of its own (R147). -/
def State.writeWord (s : State) (t : RegTarget) (w : BusWr) : State :=
  match t with
  | .bar0 off => s.writeBar0 off w
  | .page _ _ => s.whole w id
  | .vfBar2 v off => s.writeVf v.val off w

/-- A read of the selected bytes of an aligned word (R80). -/
def State.readWord (s : State) (t : RegTarget) (req : Req) (be : BitVec 4) : State :=
  match t with
  | .bar0 off => s.readBar0 req off be
  | .page p off => if s.running then s.readPage p off be else s
  | .vfBar2 v off => if s.running then s.emit (.vfRead v (s.vfWord v.val off &&& laneMask be)) else s

/-- The register at the target holds a P field. -/
def targetHasP : RegTarget → Bool
  | .bar0 off =>
    match RegMap.find off with
    | some r => r.fields.any fun f => f.ty == .p
    | none => false
  | _ => false

/-- Whole writes of both requesters in one housekeeping cycle: at a register with P fields the management core's is the one
that is accepted (R109); which of two other writes comes first no rule says, so the choice is free (log 101, DESIGN
CHOICE). -/
def State.writeBoth (s : State) (t : RegTarget) (host mgmt : W32) : State :=
  let h : BusWr := { req := .host, be := 0xF#4, val := host }
  let m : BusWr := { req := .mgmt, be := 0xF#4, val := mgmt }
  if targetHasP t then (s.writeWord t m).writeWord t h
  else
    let d := s.draw
    if d.1 % 2 = 0 then (d.2.writeWord t h).writeWord t m else (d.2.writeWord t m).writeWord t h

/-- REGISTER_WRITE (R80 to R85, R109): an access of a word. A 64-bit access is two of its halves, the lower address first, each
by the rules of its own register (R82). -/
def execRegisterWrite (t : RegTarget) (a : RegAcc) (s : State) : Host.Outcome State Fault Refusal :=
  .next (match a with
    | .write w => s.writeWord (wordOf t) w
    | .write64 req be val =>
      (s.writeWord (wordOf t) { req := req, be := be.setWidth 4, val := val.setWidth 32 }).writeWord (wordOf (wordUp t))
        { req := req, be := (be >>> 4).setWidth 4, val := (val >>> 32).setWidth 32 }
    | .both host mgmt => s.writeBoth (wordOf t) host mgmt
    | .read req be => s.readWord (wordOf t) req be
    | .read64 req be => (s.readWord (wordOf t) req (be.setWidth 4)).readWord (wordOf (wordUp t)) req ((be >>> 4).setWidth 4))

/-- LOCK_KEY_WRITE (R91, R96): the key opens the lock for the writer; any other value closes it. -/
def execLockKeyWrite (w : BusWr) (s : State) : Host.Outcome State Fault Refusal :=
  .next (s.openWrite Off.LOCK_KEY w fun s1 =>
    if w.val.toNat % 0x10000 = 0xA53D
    then (s1.fset F.LOCK_STATUS.OPEN 1).fset F.LOCK_STATUS.OPENER (reqCode w.req)
    else (s1.fset F.LOCK_STATUS.OPEN 0).fset F.LOCK_STATUS.BAD_KEY_SEEN 1)

/-- The staged value of a B register takes effect (R100, R101). -/
def State.applyStaged (s : State) (off : Nat) (f : Fld) : State :=
  match s.staged.get (fun _ => none) off with
  | some x => ({ s with staged := s.staged.set (fun _ => none) off none }).fset f x
  | none => s

/-- The staged CP_EN of port `q` takes effect. -/
def State.applyCpEn (s : State) (q : Nat) : State := s.applyStaged (Off.PORT_CTRL q) (F.PORT_CTRL.CP_EN q)

/-- B_STAGED_APPLY (R100, R457, R570): PORT_CTRL.CP_EN at a Frame of its port while the port is Live, which begins no frame
otherwise; at a Tick PWR_CAP, and CP_EN of the ports that are not Live. No register of the manual names the Command
boundary. -/
def execBStagedApply (b : Boundary) (s : State) : Host.Outcome State Fault Refusal :=
  .next (match b with
    | .command => s
    | .frame q => if s.isLive q.val then s.applyCpEn q.val else s
    | .tick => (List.range 5).foldl (fun st q => if s.isLive q then st else st.applyCpEn q)
        (s.applyStaged Off.PWR_CAP F.PWR_CAP.CAP))

/-- The effect of a posted write in its domain: RST_CAUSE_CLR clears bits of RST_CAUSE (R584). -/
def State.posted (s : State) (p : PWrite) : State :=
  if p.off = Off.RST_CAUSE_CLR then
    s.setReg Off.RST_CAUSE (s.reg Off.RST_CAUSE &&& ~~~(BitVec.ofNat 32 (p.val % 128)))
  else s

/-- P_WRITE_TAKES_EFFECT (R106): the pending write of the domain acts and DOMAIN_BUSY clears. -/
def execPWriteTakesEffect (d : Domain) (s : State) : Host.Outcome State Fault Refusal :=
  .next (match s.pwrites.find? (·.dom == d) with
    | some p => (({ s with pwrites := s.pwrites.filter (·.dom != d) }).posted p).fset (Fld.domBusy d) 0
    | none => s)

/-- The words of an identity item (R146); none for a reserved selector. -/
def State.idItem (s : State) (sel : Nat) : Option (List W32) :=
  match sel with
  | 1 => some ((List.range 4).map fun i => BitVec.ofNat 32 (bitsAt Config.serial.toNat (32 * i) 32))
  | 2 => some [Config.lot, Config.date]
  | 3 => some [s.boot.fwVer.1, s.boot.fwVer.2]
  | 4 => some [s.boot.repair]
  | _ => none

/-- MAILBOX_SEL_WRITE (R114, R117, R118): VALID clears; an item selector starts a fetch in the requester's mailbox, a
reserved one sets SEL_ERR and starts none. Between the selector write and VALID, WORDS shows the earlier item's count, of
which no rule speaks (log 102, DESIGN CHOICE). -/
def execMailboxSelWrite (w : BusWr) (s : State) : Host.Outcome State Fault Refusal :=
  .next (s.openWrite Off.ID_SEL w fun s1 =>
    let r := w.req
    let sel := w.val.toNat % 256
    let s2 := s1.fset (F.ID_STATUS.VALID.forReq r) 0
    match s1.idItem sel with
    | some _ =>
      let s3 := (s2.fset (F.ID_STATUS.SEL_ERR.forReq r) 0).fset (F.ID_SEL.SEL.forReq r) sel
      { s3 with mboxBusy := s3.mboxBusy.set (fun _ => false) (reqCode r) true }
    | none =>
      let s3 := s2.fset (F.ID_STATUS.SEL_ERR.forReq r) 1
      { s3 with mboxBusy := s3.mboxBusy.set (fun _ => false) (reqCode r) false })

/-- MAILBOX_FETCH_DONE (R115): the words of the selected item are readable and VALID sets. -/
def execMailboxFetchDone (r : Req) (s : State) : Host.Outcome State Fault Refusal :=
  .next (if s.mboxBusy.get (fun _ => false) (reqCode r) then
    match s.idItem (s.fget (F.ID_SEL.SEL.forReq r)) with
    | some l =>
      let s1 := (List.range 8).foldl (fun st i => st.setReg (Off.ID_DATA i + reqBank r) (l.getD i 0)) s
      let s2 := (s1.fset (F.ID_STATUS.WORDS.forReq r) l.length).fset (F.ID_STATUS.VALID.forReq r) 1
      { s2 with mboxBusy := s2.mboxBusy.set (fun _ => false) (reqCode r) false }
    | none => s
  else s)

/-- MAILBOX_LAST_WORD_READ (R116): returns word WORDS − 1 and clears VALID; zero while VALID is zero. -/
def execMailboxLastWordRead (r : Req) (s : State) : Host.Outcome State Fault Refusal :=
  .next (if !s.running then s
  else if s.flag (F.ID_STATUS.VALID.forReq r) then
    (s.emit (.readData r (s.reg (Off.ID_DATA (s.fget (F.ID_STATUS.WORDS.forReq r) - 1) + reqBank r)))).fset
      (F.ID_STATUS.VALID.forReq r) 0
  else s.emit (.readData r 0))

end Sys2Proof.Machine
end

