-- ==== Sys2Proof/Machine/Arbiters.lean ====
section
/-! DEFINITION. The floor and package arbiters (R432 to R440, R443) and memory control (R386, R442). Fabric cycles are operands of
the commands, since the model keeps no fabric clock. -/

namespace Sys2Proof.Machine

/-! ### Inputs (R432, R134) -/

/-- The input of a floor arbiter behind which a requester stands; `f` is the arbiter's floor (R432). -/
def floorInput (f : Nat) : ArbSource → Option Nat
  | .engine e => if roomFloor (engRoom e.val) = f then some (2 * (engRoom e.val % 5)) else none
  | .room r => if roomFloor r.val = f then some (2 * (r.val % 5) + 1) else none
  | .floorStage => some 10
  | .floorWalks => some 11
  | _ => none

/-- The input of a package arbiter behind which a requester stands; input 11 is not connected (R432). -/
def pkgInput : ArbSource → Option Nat
  | .floor f => some f.val
  | .host => some 6
  | .lorlink => some 7
  | .larder => some 8
  | .mortar => some 9
  | .pkgWalks => some 10
  | _ => none

/-- The input that ARB_PRIV gives a privileged requester (R134). -/
def State.privInput (s : State) : ArbSource → Option Nat
  | .mgmt => some (12 + s.fget F.ARB_PRIV.MGMT_IN)
  | .mirror => some (12 + s.fget F.ARB_PRIV.MIRROR_IN)
  | .faultPath => some (12 + s.fget F.ARB_PRIV.FAULT_IN)
  | .flue => some (12 + s.fget F.ARB_PRIV.FLUE_IN)
  | _ => none

/-- The input of arbiter `a` behind which a requester stands; none where it is not connected (R432). -/
def State.arbInput (s : State) (a : Nat) (q : ArbSource) : Option Nat :=
  (s.privInput q).or (if a < 6 then floorInput a q else pkgInput q)

/-- The place of a requester among those of its input: the engine of its room, else none but 0. -/
def arbPlace : ArbSource → Nat
  | .engine e => e.val % 5
  | _ => 0

/-! ### Decisions (R433 to R438) -/

/-- The classes in force in a cycle (R438). -/
def State.classesAt (s : State) (a cycle : Nat) : W32 :=
  if (s.arb a).classAt < cycle then s.reg (Off.ARB_CLASS a) else (s.arb a).oldClass

/-- CLASS_i of an ARB_CLASS value. -/
def classOf (v : W32) (i : Nat) : Nat := bitsAt v.toNat (2 * i) 2

/-- The next of the numbers `l` in round robin after `last`, among 0 to n − 1 (R432, R433). -/
def nextRound (n : Nat) (l : List Nat) (last : Nat) : Option Nat :=
  ((List.range n).map fun k => (last + 1 + k) % n).find? fun i => l.contains i

/-- The input that a decision grants among the inputs with a visible request (R433). -/
def ArbSt.winner (x : ArbSt) (cls : W32) (l : List Nat) : Option Nat :=
  match ((List.range 4).map fun k => 15 - k).find? fun i => l.contains i with
  | some i => some i
  | none =>
    match ((List.range 4).map fun k => 3 - k).find? fun c => l.any fun i => decide (i < 12) && classOf cls i == c with
    | some c => nextRound 12 (l.filter fun i => decide (i < 12) && classOf cls i == c) (x.lastIn.get (fun _ => 11) c)
    | none => none

/-- Records the input granted in its class. -/
def ArbSt.noteLast (x : ArbSt) (cls : W32) (i : Nat) : ArbSt :=
  if i < 12 then { x with lastIn := x.lastIn.set (fun _ => 11) (classOf cls i) i } else x

/-- Records the engine of its room that a grant of input `q.input` served. -/
def ArbSt.noteEng (x : ArbSt) (q : ArbReq) : ArbSt :=
  { x with lastEng := x.lastEng.set (fun _ => 4) q.input (arbPlace q.src) }

/-- STARVE of an input sets, with its interrupt where it is enabled (R439). -/
def State.starve (s : State) (a i : Nat) : State :=
  let s1 := s.forBits (F.ARB_STARVE.STARVE a) (2 ^ i)
  if bitAt (s.fget (F.ARB_STARVE_IE.STARVE_IE a)) i then s1.pkgEvent evArb else s1

/-- A wait of this length starves (R439). -/
def State.starves (s : State) (a wait : Nat) : Bool := decide (s.fget (F.ARB_LIMIT.LIMIT a) * 16 ≤ wait)

/-- Counts a grant of input `i` after a wait; a CNT_CLR of the same cycle has cleared it again (R443). -/
def State.countGrant (s : State) (a i wait cycle : Nat) : State :=
  if (s.arb a).clrAt.get (fun _ => 0) i = cycle + 1 then s
  else
    let s1 := (s.count (F.ARB_GRANTS.GRANTS a i) 1).count (F.ARB_WAITS.WAITS a i) wait
    s1.fset (F.ARB_MAX_WAIT.MAX_WAIT a i) (max (s.fget (F.ARB_MAX_WAIT.MAX_WAIT a i)) (min wait (2 ^ 32 - 1)))

/-- The transfer of a granted request begins in the cycle after `cycle`, and its wait ends there (R434, R435, R439). -/
def State.beginBurst (s : State) (a cycle : Nat) (q : ArbReq) : State :=
  let wait := cycle + 1 - q.cycle
  let s1 := if !q.starved && s.starves a wait then s.starve a q.input else s
  let y := (s1.arb a).noteEng q
  (s1.setArb a { y with owner := some q.input, busyTo := cycle + q.beats, isParked := false }).countGrant a q.input wait cycle

/-- The beats of a request's burst: R435 has 1 to 8; of a request that names none the number is free (log 62). -/
def State.beatsOf (s : State) (beats : Nat) : Nat × State :=
  if beats = 0 then (s.draw.1 % 8 + 1, s.draw.2) else (beats, s)

/-- A request is raised; the parked owner's begins its transfer without a decision (R434, R436). -/
def State.raiseReq (s : State) (a : Nat) (q : ArbReq) : State :=
  let x := s.arb a
  if x.isParked && x.owner == some q.input && x.reqs.all (fun p => !decide (p.cycle < q.cycle)) then s.beginBurst a q.cycle q
  else s.setArb a { x with reqs := x.reqs ++ [q] }

/-- ARB_REQUEST (R432, R434 to R436): nothing of a requester that the arbiter has no input for. -/
def execArbRequest (a : ArbIx) (q : ArbSource) (beats : Fin 9) (cycle : Nat) (s : State) : Host.Outcome State Fault Refusal :=
  .next (match s.arbInput a.val q with
    | none => s
    | some i =>
      if !s.running then s
      else
        let b := s.beatsOf beats.val
        b.2.raiseReq a.val { input := i, src := q, beats := b.1, cycle := cycle, starved := false })

/-- The visible request of an input that a grant serves: round robin by physical engine, of one engine the oldest (R432). -/
def ArbSt.oldest (x : ArbSt) (cycle i : Nat) : Option ArbReq :=
  let l := x.reqs.filter fun q => q.input == i && decide (q.cycle < cycle)
  match nextRound 5 (l.map fun q => arbPlace q.src) (x.lastEng.get (fun _ => 4) i) with
  | none => none
  | some n => l.find? fun q => arbPlace q.src == n

/-- The first visible request of a requester. -/
def ArbSt.first (x : ArbSt) (cycle : Nat) (w : ArbSource) : Option ArbReq :=
  x.reqs.find? fun q => q.src == w && decide (q.cycle < cycle)

/-- The requests withdrawn in a cycle. -/
def ArbSt.withdrawn (x : ArbSt) (cycle : Nat) (ws : List ArbSource) : List ArbReq := ws.filterMap fun w => x.first cycle w

/-- The requests that a decision considers: those withdrawn in its cycle, `gone`, may or may not be among them, as the bits of
`d` have it (R437). -/
def ArbSt.considered (x : ArbSt) (cycle : Nat) (gone : List ArbReq) (d : Nat) : ArbSt :=
  { x with reqs := x.reqs.filter fun q => decide (q.cycle < cycle) && (!gone.contains q || bitAt d q.input) }

/-- ARB_DECISION (R433 to R438): in the last beat of a burst or later, one visible request is granted; a grant of a withdrawn
request moves no data; without a visible request the grant parks on the last owner. -/
def execArbDecision (a : ArbIx) (cycle : Nat) (withdrawn : List ArbSource) (s : State) : Host.Outcome State Fault Refusal :=
  .next (let x := s.arb a.val
    if !s.running || cycle < x.busyTo then s
    else
      let p := if withdrawn.isEmpty then (0, s) else s.draw
      let cls := s.classesAt a.val cycle
      let gone := x.withdrawn cycle withdrawn
      let y := x.considered cycle gone p.1
      let left := { x with reqs := x.reqs.filter fun q => !gone.contains q }
      match x.winner cls (y.reqs.map fun q => q.input) with
      | none => p.2.setArb a.val { left with isParked := x.owner.isSome }
      | some i =>
        match y.oldest cycle i with
        | none => p.2
        | some q =>
          let z := left.noteLast cls i
          if gone.contains q then
            (p.2.setArb a.val { z.noteEng q with owner := some i, busyTo := cycle + 1, isParked := false }).count
              (F.ARB_EMPTY.EMPTY a.val) 1
          else (p.2.setArb a.val { z with reqs := z.reqs.erase q }).beginBurst a.val cycle q)

/-- ARB_STARVE (R439): a wait reaches LIMIT × 16 cycles. -/
def execArbStarve (a : ArbIx) (i : Fin 16) (cycle : Nat) (s : State) : Host.Outcome State Fault Refusal :=
  .next (let x := s.arb a.val
    let late := fun (q : ArbReq) => q.input == i.val && !q.starved && s.starves a.val (cycle - q.cycle)
    if s.running && x.reqs.any late then
      (s.setArb a.val { x with reqs := x.reqs.map fun q => if late q then { q with starved := true } else q }).starve a.val i.val
    else s)

/-- ARB_CLASS_WRITE (R438): the classes change for decisions after the cycle of the write. -/
def execArbClassWrite (a : ArbIx) (w : BusWr) (cycle : Nat) (s : State) : Host.Outcome State Fault Refusal :=
  .next (s.openWrite (Off.ARB_CLASS a.val) w fun s1 =>
    let x := s1.arb a.val
    let old := if x.classAt = cycle then x.oldClass else s1.reg (Off.ARB_CLASS a.val)
    (s1.setArb a.val { x with oldClass := old, classAt := cycle }).setReg (Off.ARB_CLASS a.val)
      (BitVec.ofNat 32 (w.val.toNat % 2 ^ 24)))

/-- Clears the counters of input `i` after every update of fabric cycle `cycle` (R443). -/
def State.clearCounts (s : State) (a cycle i : Nat) : State :=
  let x := s.arb a
  (((s.setArb a { x with clrAt := x.clrAt.set (fun _ => 0) i (cycle + 1) }).fset (F.ARB_GRANTS.GRANTS a i) 0).fset
    (F.ARB_WAITS.WAITS a i) 0).fset (F.ARB_MAX_WAIT.MAX_WAIT a i) 0

/-- CNT_CLR (R443): clears the counters of the inputs written one; the clear follows the updates of the same cycle. -/
def execCntClr (a : ArbIx) (w : CycleWr) (s : State) : Host.Outcome State Fault Refusal :=
  .next (s.openWrite (Off.ARB_CNT_CLR a.val) w.wr fun s1 =>
    (List.range 16).foldl (fun st i => if bitAt w.wr.val.toNat i then st.clearCounts a.val w.cycle i else st) s1)

/-! ### Memory control -/

/-- The memory system may be enabled (R442). -/
def State.memOk (s : State) : Bool :=
  inHbm s.saveBase (150 * 0x100000) && (!s.flag F.MEM_CTRL.LEDGER_EN || inHbm s.ledgerBase 0x200000)

/-- MEM_CTRL_EN (R442): a keyed write of EN, refused with CFG_ERR where the areas do not lie in HBM; the other fields of the
write take effect. -/
def execMemCtrlEn (w : BusWr) (s : State) : Host.Outcome State Fault Refusal :=
  .next (s.keyedWrite Off.MEM_CTRL w fun keyed s1 =>
    if !keyed then s1
    else if bitAt w.val.toNat 0 then
      if s1.memOk then { s1.fset F.MEM_CTRL.EN 1 with ms := { s1.ms with locked := true } }
      else s1.fset F.MEM_STATUS.CFG_ERR 1
    else s1.fset F.MEM_CTRL.EN 0)

/-- The stack has been trained, or has failed (R386, R582). -/
def State.stackTrained (s : State) (k : Nat) : Bool := bitAt (s.fget F.HBM_TRAIN.DONE ||| s.fget F.HBM_TRAIN.FAIL) k

/-- The value gives no logical pseudo-channel to two enabled spares (R386). -/
def pcRemapOk (v : Nat) : Bool := !(bitAt v 6 && bitAt v 14 && bitsAt v 0 6 == bitsAt v 8 6)

/-- The mapping fields of HBM_PC_REMAP take a value; the write is not refused, which REFUSED then says (R386, R441). -/
def State.setPcRemap (s : State) (k v : Nat) : State :=
  ((((s.fset (F.HBM_PC_REMAP.SP0_FOR k) (bitsAt v 0 6)).fset (F.HBM_PC_REMAP.SP0_EN k) (bitsAt v 6 1)).fset
    (F.HBM_PC_REMAP.SP1_FOR k) (bitsAt v 8 6)).fset (F.HBM_PC_REMAP.SP1_EN k) (bitsAt v 14 1)).fset (F.HBM_PC_REMAP.REFUSED k) 0

/-- HBM_PC_REMAP_WRITE (R386): accepted before the stack's training only, and not with one pseudo-channel for both spares; any
other write sets REFUSED. -/
def execHbmPcRemapWrite (st : Fin 8) (w : BusWr) (s : State) : Host.Outcome State Fault Refusal :=
  .next (s.keyedWrite (Off.HBM_PC_REMAP st.val) w fun keyed s1 =>
    if s1.stackTrained st.val || !pcRemapOk w.val.toNat then s1.fset (F.HBM_PC_REMAP.REFUSED st.val) 1
    else if keyed then s1.setPcRemap st.val w.val.toNat else s1)

end Sys2Proof.Machine
end

