-- ==== Sys2Proof/Machine/Operands.lean ====
section
/-! DEFINITION. Operand forms: the control words of MATMUL (R219, R227, R234, R239, R270, R305), the memory bodies and
the tensor descriptor (R307), CALL (R309), generated addresses (R310 to R314), and the second source and the
coprocessor immediates of the control-core instructions (R339, R351). -/

namespace Sys2Proof.Machine

/-! ### Control words of MATMUL -/

/-- The engine-control word (R219). -/
structure ECtl where
  shape  : Nat
  slot   : Nat
  two    : Bool
  cont   : Bool
  hold   : Bool
  lintel : Bool
  rsv    : Bool
deriving DecidableEq, Repr

/-- Reads an engine-control word; MODE's high bit is CONT, its low bit HOLD (R219). -/
def ECtl.of (n : Nat) : ECtl :=
  { shape := bitsAt n 0 3, slot := bitsAt n 3 2, two := bitAt n 5, cont := bitAt n 7, hold := bitAt n 6,
    lintel := bitAt n 8, rsv := bitsAt n 9 23 != 0 }

/-- The accumulator slots named, in the order of use (R219). -/
def ECtl.slots (e : ECtl) : List Nat := if e.two then [e.slot, (e.slot + 1) % 4] else [e.slot]

/-- M, N of a shape code (R195). -/
def shapeMN (code : Nat) : Nat × Nat :=
  match code with
  | 1 => (128, 64)
  | 2 => (64, 128)
  | 3 => (32, 128)
  | _ => (128, 128)

/-- The mason control word (R239). -/
structure MCtl where
  pass   : Nat
  mask   : Nat
  selEn  : Bool
  selK   : Bool
  sel    : Nat
  span   : Nat
  verify : Bool
  ver    : Nat
  rsv    : Bool
deriving DecidableEq, Repr

/-- Reads a mason control word. -/
def MCtl.of (n : Nat) : MCtl :=
  { pass := bitsAt n 0 2, mask := bitsAt n 2 4, selEn := bitAt n 6, selK := bitAt n 7, sel := bitsAt n 8 4,
    span := bitsAt n 12 8 + 1, verify := bitAt n 20, ver := bitsAt n 21 4, rsv := bitsAt n 25 7 != 0 }

/-- The epilogue control word (R227). -/
structure Epi where
  scale    : Nat
  bias     : Nat
  act      : Nat
  conv     : Conv
  topk     : Nat
  topkOnly : Bool
  mortar   : Bool
  scaleT   : Nat
  biasT    : Nat
  tvT      : Nat
  tiT      : Nat
  alpha    : Nat
  rsv      : Bool
deriving DecidableEq, Repr

/-- Reads an epilogue control word. -/
def Epi.of (n : Nat) : Epi :=
  { scale := bitsAt n 0 2, bias := bitsAt n 2 2, act := bitsAt n 4 4, conv := Conv.of (bitsAt n 8 8),
    topk := bitsAt n 16 5, topkOnly := bitAt n 21, mortar := bitAt n 22, scaleT := bitsAt n 24 4,
    biasT := bitsAt n 28 4, tvT := bitsAt n 32 4, tiT := bitsAt n 36 4, alpha := bitsAt n 40 16,
    rsv := bitAt n 23 || bitsAt n 56 8 != 0 }

/-- The lintel control word (R234). -/
structure Lintel where
  func   : Nat
  act    : Nat
  k      : Nat
  conv1  : Conv
  interT : Nat
  gammaT : Nat
  betaT  : Nat
  b2T    : Nat
  eps    : Nat
  rsv    : Bool
deriving DecidableEq, Repr

/-- Reads a lintel control word. -/
def Lintel.of (n : Nat) : Lintel :=
  { func := bitsAt n 0 4, act := bitsAt n 4 4, k := bitsAt n 8 5, conv1 := Conv.of (bitsAt n 16 8),
    interT := bitsAt n 24 4, gammaT := bitsAt n 28 4, betaT := bitsAt n 32 4, b2T := bitsAt n 36 4,
    eps := bitsAt n 40 16, rsv := bitsAt n 13 3 != 0 || bitsAt n 56 8 != 0 }

/-- The mortar control word (R270). -/
structure MortCtl where
  merge  : Nat
  tokT   : Nat
  gateT  : Nat
  gateEn : Bool
  slab   : Nat
  rsv    : Bool
deriving DecidableEq, Repr

/-- Reads a mortar control word. -/
def MortCtl.of (n : Nat) : MortCtl :=
  { merge := bitsAt n 0 8, tokT := bitsAt n 8 4, gateT := bitsAt n 12 4, gateEn := bitAt n 16,
    slab := bitsAt n 32 9, rsv := bitsAt n 17 15 != 0 || bitsAt n 41 23 != 0 }

/-- ENGINE_CTL of a MATMUL body (R305). -/
def dECtl (d : BitVec 2048) : ECtl := ECtl.of (dField d 0x40 4)
/-- MASON_CTL. -/
def dMCtl (d : BitVec 2048) : MCtl := MCtl.of (dField d 0x44 4)
/-- EPILOGUE. -/
def dEpi (d : BitVec 2048) : Epi := Epi.of (dField d 0x48 8)
/-- EXT. -/
def dExt (d : BitVec 2048) : Nat := dField d 0x50 8
/-- ROLES. -/
def dRoles (d : BitVec 2048) : Nat := dField d 0x58 8
/-- A_T. -/
def dAT (d : BitVec 2048) : Nat := bitsAt (dRoles d) 0 4
/-- B_T. -/
def dBT (d : BitVec 2048) : Nat := bitsAt (dRoles d) 4 4
/-- OUT_T. -/
def dOutT (d : BitVec 2048) : Nat := bitsAt (dRoles d) 8 4
/-- LOAD_EN bit i. -/
def dLoadEn (d : BitVec 2048) (i : Nat) : Bool := bitAt (dRoles d) (16 + i)
/-- LOAD_T of entry i. -/
def dLoadT (d : BitVec 2048) (i : Nat) : Nat := bitsAt (dRoles d) (4 * i + 24) 4
/-- TREGi. -/
def dTreg (d : BitVec 2048) (i : Nat) : Nat := dField d (0x80 + 16 * i) 16
/-- Descriptor M, with its reserved high half. -/
def dM (d : BitVec 2048) : Nat := dField d 0x60 4
/-- Descriptor N, with its reserved high half. -/
def dN (d : BitVec 2048) : Nat := dField d 0x64 4
/-- Descriptor K. -/
def dK (d : BitVec 2048) : Nat := dField d 0x68 4
/-- REPEAT of every body that has one. -/
def dRepeat (d : BitVec 2048) : Nat := dField d 0x6C 4
/-- SHAPE_ADDR. -/
def dShapeAddr (d : BitVec 2048) : Nat := dField d 0x70 8
/-- AGEN. -/
def dAgenWord (d : BitVec 2048) : Nat := dField d 0x78 8

/-- The registers that LOAD_EN loads, with their contents (R306). -/
def loadRegs (d : BitVec 2048) : List (Nat × Nat) :=
  ((List.range 8).filter (dLoadEn d)).map fun i => (dLoadT d i, dTreg d i)

/-! ### Memory bodies (R307) -/

/-- TD. -/
def dTd (d : BitVec 2048) : Nat := dField d 0x40 8
/-- SPACE of LOAD and STORE. -/
def dSpace (d : BitVec 2048) : Nat := dField d 0x48 1
/-- LFLAGS. -/
def dLflags (d : BitVec 2048) : Nat := dField d 0x49 1
/-- BASE of LOAD and STORE. -/
def dBase (d : BitVec 2048) : Nat := dField d 0x4C 4
/-- SIZE of LOAD and STORE. -/
def dSize (d : BitVec 2048) : Nat := dField d 0x50 4
/-- ROW0. -/
def dRow0 (d : BitVec 2048) : Nat := dField d 0x54 4
/-- COL0. -/
def dCol0 (d : BitVec 2048) : Nat := dField d 0x58 4
/-- ROWS. -/
def dRows (d : BitVec 2048) : Nat := dField d 0x5C 4
/-- COLS. -/
def dCols (d : BitVec 2048) : Nat := dField d 0x60 4
/-- MAT. -/
def dMat (d : BitVec 2048) : Nat := dField d 0x64 4
/-- IDX_ADDR of GATHER and SCATTER. -/
def dIdxAddr (d : BitVec 2048) : Nat := dField d 0x48 8
/-- IDX_COUNT. -/
def dIdxCount (d : BitVec 2048) : Nat := dField d 0x50 4
/-- DIM. -/
def dDim (d : BitVec 2048) : Nat := dField d 0x54 1
/-- SPACE of GATHER and SCATTER. -/
def dGSpace (d : BitVec 2048) : Nat := dField d 0x55 1
/-- BASE of GATHER and SCATTER. -/
def dGBase (d : BitVec 2048) : Nat := dField d 0x58 4
/-- SIZE of GATHER and SCATTER. -/
def dGSize (d : BitVec 2048) : Nat := dField d 0x5C 4
/-- SRC of HALO. -/
def dSrc (d : BitVec 2048) : Nat := dField d 0x40 16
/-- DST of HALO. -/
def dDst (d : BitVec 2048) : Nat := dField d 0x50 2
/-- SIDE of HALO. -/
def dSide (d : BitVec 2048) : Nat := dField d 0x52 1
/-- WIDTH of HALO. -/
def dWidth (d : BitVec 2048) : Nat := dField d 0x53 1
/-- DST_BASE of HALO. -/
def dDstBase (d : BitVec 2048) : Nat := dField d 0x54 4
/-- DST_SIZE of HALO. -/
def dDstSize (d : BitVec 2048) : Nat := dField d 0x58 4
/-- MODE of HALO. -/
def dHMode (d : BitVec 2048) : Nat := dField d 0x5C 1
/-- GROUT of HALO. -/
def dHGrout (d : BitVec 2048) : Nat := dField d 0x60 8
/-- MCB of MORTAR_OPEN. -/
def dMcb (d : BitVec 2048) : Nat := dField d 0x40 8
/-- ROUTINE of CALL. -/
def dRoutine (d : BitVec 2048) : Nat := dField d 0x40 2
/-- NARGS of CALL. -/
def dNargs (d : BitVec 2048) : Nat := dField d 0x42 1
/-- ARGi of CALL. -/
def dArg (d : BitVec 2048) (i : Nat) : Nat := dField d (0x48 + 8 * i) 8

/-- A tensor descriptor (R307). -/
structure Tensor where
  addr   : Nat
  elem   : Nat
  col    : Bool
  mx     : Bool
  ashlar : Bool
  rank   : Nat
  rows   : Nat
  cols   : Nat
  lead   : List Nat
  stride : Nat
  scale  : Nat
  grout  : Nat
  rsv    : Bool
deriving DecidableEq, Repr

/-- Reads a tensor descriptor from its 64 bytes as a little-endian value. -/
def Tensor.of (n : Nat) : Tensor :=
  { addr := bitsAt n 0 64, elem := bitsAt n 64 4, col := bitAt n 68, mx := bitAt n 69, ashlar := bitAt n 70,
    rank := bitsAt n 72 8, rows := bitsAt n 96 32, cols := bitsAt n 128 32,
    lead := (List.range 4).map fun i => bitsAt n (160 + 32 * i) 32,
    stride := bitsAt n 320 64, scale := bitsAt n 384 64, grout := bitsAt n 448 64,
    rsv := bitAt n 71 || bitsAt n 80 16 != 0 || bitsAt n 288 32 != 0 }

/-- The number of matrices of a tensor: the product of its leading extents (R160, R307). -/
def Tensor.mats (t : Tensor) : Nat := (t.lead.take (t.rank - 2)).foldl (· * ·) 1

/-- A descriptor without reserved encodings, unused leading extents zero, MX32 only for codes 0x0 to 0x5, strides and
addresses aligned (R153, R160, R164, R307). -/
def Tensor.ok (t : Tensor) : Bool :=
  !t.rsv && decide (t.elem ≤ 8) && decide (2 ≤ t.rank) && decide (t.rank ≤ 6) &&
    (t.lead.drop (t.rank - 2)).all (· == 0) && (!t.mx || decide (t.elem ≤ 5)) &&
    groutLegal t.elem t.grout && (!t.ashlar || t.addr % 256 == 0) &&
    (decide (t.mats ≤ 1) || (t.stride % 4096 == 0 && decide (blkBytes t.rows t.cols (elemBits t.elem) ≤ t.stride)))

/-! ### Address generation (R310 to R314) -/

/-- A descriptor field read as signed 16 bits. -/
def s16 (n lsb : Nat) : Int := toSigned 16 (bitsAt n lsb 16)

/-- The address registers of instance n under AUTO_INC (R310). -/
def autoRegs (w : Nat) (base : List Int) (n : Nat) : List Int :=
  (List.range 3).map fun r => base.getD r 0 + (n : Int) * s16 w (16 * r)

/-- COUNT of level l of an affine block (R311). -/
def affCount (a : Nat) (l : Nat) : Nat := bitsAt a (16 * l) 16
/-- STRIDE of level l and register r. -/
def affStride (a : Nat) (l r : Nat) : Int := s16 a (8 * (12 + 6 * l + 2 * r))
/-- The product of the counts of the first `l` levels. -/
def affProd (a : Nat) : Nat → Nat
  | 0 => 1
  | l + 1 => affProd a l * affCount a l

/-- The address registers of instance n under AFFINE (R311). -/
def affRegs (a : Nat) (base : List Int) (n : Nat) : List Int :=
  (List.range 3).map fun r => (List.range 6).foldl
    (fun acc l => acc + ((n / affProd a l % affCount a l : Nat) : Int) * affStride a l r) (base.getD r 0)

/-- An affine block without reserved bytes, counts at least one, whose product is REPEAT (R311). -/
def affOk (a rep : Nat) : Bool :=
  bitsAt a 384 128 == 0 && (List.range 6).all (fun l => affCount a l != 0) && affProd a 6 == rep &&
    decide (rep ≤ 0x1000000)

/-- The address registers of instance n (R310, R311, R313). -/
def agenRegs (mode w aff : Nat) (base : List Int) (n : Nat) : List Int :=
  match mode with
  | 1 => autoRegs w base n
  | 2 => affRegs aff base n
  | _ => base

/-- The hull of register r over all instances: its smallest and largest value (R316). Under AUTO_INC the extremes lie at
the ends; under AFFINE at an end of each level. -/
def agenHull (mode w aff rep : Nat) (b : Int) (r : Nat) : Int × Int :=
  match mode with
  | 1 => let e := b + ((rep - 1 : Nat) : Int) * s16 w (16 * r); (min b e, max b e)
  | 2 =>
    (List.range 6).foldl (fun (p : Int × Int) l =>
      let d := ((affCount aff l - 1 : Nat) : Int) * affStride aff l r
      (p.1 + min 0 d, p.2 + max 0 d)) (b, b)
  | _ => (b, b)

/-! ### Entries common to every descriptor -/

/-- Reserved bits of the common header (R291, R296, R299) and the alignment of STATUS. -/
def headerOk (d : BitVec 2048) : Bool :=
  bitsAt (dFlags d) 6 2 == 0 && dAgen d != 3 && !(dAgen d != 0 && dPlist d) && plLegal (dPlace d) &&
    dStatus d % 16 == 0 && ((List.range 4).all fun i => bitsAt (dDep d i) 16 16 == 0) &&
    ((List.range 2).all fun i => bitsAt (dSig d i) 0 2 != 3 && bitsAt (dSig d i) 16 16 == 0)

/-- SYNC, MORTAR_OPEN and CALL: engine field zero, no address generation (R293, R294). -/
def noEngineOk (d : BitVec 2048) : Bool :=
  plEng (dPlace d) == 0 && dAgen d == 0 && !dPlist d

/-- A SYNC without reserved bytes (R292 to R294). -/
def syncLegal (d : BitVec 2048) : Bool := headerOk d && noEngineOk d && dField d 0x40 192 == 0

/-- A CALL without reserved encodings (R307, R309). -/
def callLegal (d : BitVec 2048) : Bool :=
  headerOk d && noEngineOk d && decide (dRoutine d < 4096) && decide (dNargs d ≤ 23) && dField d 0x43 5 == 0

/-- A MORTAR_OPEN without reserved bytes (R307). -/
def openLegal (d : BitVec 2048) : Bool :=
  headerOk d && noEngineOk d && dField d 0x48 184 == 0 && dMcb d % 64 == 0

/-- REPEAT and the AGEN word agree with the mode (R305, R310 to R312). -/
def agenOk (d : BitVec 2048) (aff : Nat) : Bool :=
  let rep := dRepeat d
  if dPlist d then decide (1 ≤ rep) && decide (rep ≤ 0x10000) && dAgenWord d % 16 == 0
  else match dAgen d with
    | 0 => rep == 1
    | 1 => decide (1 ≤ rep) && decide (rep ≤ 0x1000000) && bitsAt (dAgenWord d) 48 16 == 0
    | _ => affOk aff rep

/-- Every increment or stride of address register `r` is zero (R309). -/
def agenBlank (d : BitVec 2048) (aff r : Nat) : Bool :=
  match dAgen d with
  | 1 => s16 (dAgenWord d) (16 * r) == 0
  | 2 => (List.range 6).all fun l => affStride aff l r == 0
  | _ => true

/-! ### Control-core operands (R337, R339, R351) -/

/-- The value of a second source: a register, or a 16-bit immediate sign-extended (R339). -/
def CoreSt.src2 (c : CoreSt) (b : Src2) : W32 :=
  match b with
  | .reg g => c.rd g.val
  | .imm i => i.signExtend 32

/-- The address of a data-memory access: a register plus a signed 16-bit offset (R339). -/
def CoreSt.memAddr (c : CoreSt) (ra : GReg) (off : BitVec 16) : Nat := (c.rd ra.val + off.signExtend 32).toNat

end Sys2Proof.Machine
end

