-- ==== Sys2Proof/Machine/Flags.lean ====
section
/-! DEFINITION. Flag computations: the special flags of accumulator cells (R156, R214), the comparison that counts a
predictor miss (R265), and the conditions that the control-core instructions compute (R339). -/

namespace Sys2Proof.Machine

/-- Combines two special flags: NaN is sticky, opposite infinities give NaN (R214). -/
def spJoin (a b : Nat) : Nat := if a = 0 then b else if b = 0 ∨ a = b then a else 3

/-- The special flag of a product of two elements, one of them special (R156). -/
def spMul (a b : Elt) : Nat :=
  if a.sp = 3 ∨ b.sp = 3 then 3
  else
    let zero := (a.sp = 0 ∧ a.m = 0) ∨ (b.sp = 0 ∧ b.m = 0)
    let na := a.sp = 2 ∨ (a.sp = 0 ∧ a.m < 0)
    let nb := b.sp = 2 ∨ (b.sp = 0 ∧ b.m < 0)
    if zero then 3 else if (na ∧ nb) ∨ (¬na ∧ ¬nb) then 1 else 2

/-- The exact product of two elements with its flag: a special product has no finite part (R211, R214). -/
def Elt.mul (a b : Elt) : Elt :=
  if a.sp = 0 ∧ b.sp = 0 then { m := a.m * b.m, e := a.e + b.e, sp := 0 }
  else { m := 0, e := 0, sp := spMul a b }

/-- x > y on exact values; false when either is NaN (R265). -/
def Num.gt : Num → Num → Bool
  | .nan, _ => false
  | _, .nan => false
  | x, y => x.above y

/-- 1 when the condition holds, 0 otherwise: what a comparison writes (R339). -/
def condWord (b : Bool) : W32 := if b then 1 else 0

/-- Signed less-than (CMPLT, BRLT). -/
def ltS (a b : W32) : Bool := a.slt b
/-- Unsigned less-than (CMPLTU, BRLTU). -/
def ltU (a b : W32) : Bool := a.ult b

end Sys2Proof.Machine
end

