-- ==== Sys2Proof/Machine/Accum.lean ====
section
/-! DEFINITION. Anchored accumulation (R188, R209 to R214): one contribution step on an accumulator slot, and the values
that the epilogue reads. -/

namespace Sys2Proof.Machine

/-- The finite part V × 2^A of a cell. -/
def AccSlot.cell (a : AccSlot) (k : Nat) : Int := a.v.get (fun _ => 0) k
/-- The special flag of a cell. -/
def AccSlot.sp (a : AccSlot) (k : Nat) : Nat := a.flag.get (fun _ => 0) k

/-- A slot at the start of an output tile (R210). -/
def AccSlot.start (owner : Nat) : AccSlot := { AccSlot.reset with st := .accum, owner := owner }

/-- x × 2^(e − e0) for e0 ≤ e. -/
def shiftTo (x e e0 : Int) : Int := x * ((2 ^ (e - e0).toNat : Nat) : Int)

/-- ⌊log2 |x × 2^e|⌋ of a nonzero x. -/
def topBit (x e : Int) : Int := (Nat.log2 x.natAbs : Int) + e

/-- The exact sum s of a cell and a contribution as an integer and an exponent (R212). -/
def sumExact (v a m e : Int) : Int × Int := let e0 := min a e; (shiftTo v a e0 + shiftTo m e e0, e0)

/-- m × 2^e as a multiple of 2^A under R188: exact where nothing lies below, else q + 1 exactly when Q < F. -/
def roundTo (m e a : Int) (q : Nat) : Int :=
  if a ≤ e then shiftTo m e a
  else
    let d : Int := ((2 ^ (a - e).toNat : Nat) : Int)
    let f := (m % d) * 65536 / d
    if (q : Int) < f then m / d + 1 else m / d

/-- H of R212: the largest ⌊log2 |s|⌋ over the cells of the tile whose s is nonzero. A cell with |V| of exactly 2^190 has
H = A + 190, so that a step whose contributions are all zero raises the anchor by the formula of R212, while R208 says that a
zero contribution changes no anchor: the model follows R212 (assumption log 109). -/
def anchorNeed (own : Nat → Bool) (v : Nat → Int) (a : Int) (f : Nat → Elt) : Option Int :=
  ((List.range 16384).filter own).foldl (fun acc k =>
    let s := sumExact (v k) a (f k).m (f k).e
    if s.1 = 0 then acc
    else
      match acc with
      | none => some (topBit s.1 s.2)
      | some h => some (max h (topBit s.1 s.2))) none

/-- A after R212. -/
def anchorAfter (a : Int) (h : Option Int) : Int :=
  match h with
  | some x => if x ≤ a + 189 then a else a + 32 * ((x - a - 189 + 31) / 32)
  | none => a

/-- One contribution step (R211, R212): `own` selects the cells of the tile, `f` the contribution and `q`
the draw of each. -/
def AccSlot.step (a : AccSlot) (own : Nat → Bool) (f : Nat → Elt) (q : Nat → Nat) : AccSlot :=
  let n := anchorAfter a.anchor (anchorNeed own a.cell a.anchor f)
  let next := fun k =>
    if own k then
      if n = a.anchor then a.cell k + roundTo (f k).m (f k).e n (q k)
      else let s := sumExact (a.cell k) a.anchor (f k).m (f k).e; roundTo s.1 s.2 n (q k)
    else a.cell k
  { a with
    anchor := n
    raises := if n = a.anchor then a.raises else a.raises + 1
    v := FMap.setRange (fun _ => 0) a.v 0 16384 next
    flag := FMap.setRange (fun _ => 0) a.flag 0 16384 fun k =>
      if own k then spJoin (a.sp k) (f k).sp else a.sp k }

/-- The value of a cell: its flag decides when it is set (R209, R214). -/
def AccSlot.value (a : AccSlot) (k : Nat) : Num :=
  match a.sp k with
  | 0 => .fin ((a.cell k : Rat) * pow2 a.anchor)
  | 1 => .inf false
  | 2 => .inf true
  | _ => .nan

end Sys2Proof.Machine
end

