-- ==== Sys2Proof/Machine/Mason.lean ====
section
/-! DEFINITION. The mason unit: operands as ashlar containers, position codes and slots (R163 to R170, R241, R244, R253),
metadata errors and counters (R249 to R251), selection (R262), and the walk of one output tile into an accumulator slot
(R205, R206, R211, R242, R593). -/

namespace Sys2Proof.Machine

/-! ### Operands -/

/-- An operand of a product: its register, role (0 A; 1 B; 2 B walked transposed, R253) and container header. -/
structure Opnd where
  t    : TReg
  role : Nat
  hdr  : Ash
deriving DecidableEq, Repr

/-- The operand in a tile register as a context sees the engine buffer. -/
def EngSt.opnd (x : EngSt) (ctx : Nat) (t : TReg) (role : Nat) : Opnd :=
  { t := t, role := role, hdr := Ash.of (x.seenLe ctx t.lo 64) }

/-- Bits of an element. -/
def Opnd.bits (o : Opnd) : Nat := elemBits o.t.elem

/-- Codes and slots are the implied ones: a FULL container, or a dense tensor (R169). -/
def Opnd.implied (o : Opnd) : Bool := !o.t.ashlar || o.hdr.full

/-- Extent across the bands as stored. -/
def Opnd.bandExt (o : Opnd) : Nat :=
  if o.t.ashlar then o.hdr.bandExt else if o.role = 0 then o.t.rows else o.t.cols

/-- Extent along the stored K. -/
def Opnd.kExt (o : Opnd) : Nat :=
  if o.t.ashlar then o.hdr.kExt else if o.role = 0 then o.t.cols else o.t.rows

/-- The operand's extent across the command's rows or columns. -/
def Opnd.laneExt (o : Opnd) : Nat := if o.role = 2 then o.kExt else o.bandExt
/-- The operand's extent along the command's K. -/
def Opnd.redExt (o : Opnd) : Nat := if o.role = 2 then o.bandExt else o.kExt

/-- NUM_BANDS. -/
def Opnd.bands (o : Opnd) : Nat := if o.t.ashlar then o.hdr.numBands else ceilDiv o.bandExt 128
/-- NUM_GROUPS. -/
def Opnd.groups (o : Opnd) : Nat := if o.t.ashlar then o.hdr.numGroups else ceilDiv o.kExt 256

/-- A stored code bit: band, group, block row, bit. -/
structure CodePos where
  band : Nat
  grp  : Nat
  row  : Nat
  bit  : Nat
deriving DecidableEq, Repr

/-- The stored bit of lane block `lb` (its index counted over the operand) at bit `j` of command group `g` (R241,
R253). -/
def Opnd.pos (o : Opnd) (lb g j : Nat) : CodePos :=
  if o.role = 2 then { band := 2 * g + j / 4, grp := lb / 8, row := j % 4, bit := lb % 8 }
  else { band := lb / 4, grp := g, row := lb % 4, bit := j }

/-- First byte of a code word. -/
def Opnd.wordAt (o : Opnd) (band grp : Nat) : Nat := o.t.lo + o.hdr.codeOff + (band * o.groups + grp) * 4

/-- The implied code byte of a group (R169). -/
def Opnd.impliedByte (o : Opnd) (grp : Nat) : Nat := 2 ^ min 8 (4 * ceilDiv o.kExt 128 - 8 * grp) - 1

/-- The code word of a band and group; zero where there is none (R593). -/
def EngSt.codeWord (x : EngSt) (ctx : Nat) (o : Opnd) (band grp : Nat) : Nat :=
  if o.bands ≤ band ∨ o.groups ≤ grp then 0
  else if o.implied then o.impliedByte grp * 0x01010101
  else x.seenLe ctx (o.wordAt band grp) 4

/-- Set bits of one quad of one block row of a code word. -/
def quadCount (w q r : Nat) : Nat := popCount (bitsAt w (8 * r + 4 * q) 4)

/-- Entry b of the band index array; the implied one for FULL and dense operands (R166, R169). -/
def EngSt.indexAt (x : EngSt) (ctx : Nat) (o : Opnd) (b : Nat) : Nat :=
  if o.implied then b * 4 * ceilDiv o.kExt 128 * 4 else x.seenLe ctx (o.t.lo + o.hdr.indexOff + b * 4) 4

/-- Set bits of a band in the groups below `g`. -/
def EngSt.bandBits (x : EngSt) (ctx : Nat) (o : Opnd) (b g : Nat) : Nat :=
  ((List.range g).map fun i => popCount (x.codeWord ctx o b i)).sum

/-- The slot of a stored bit (R244). -/
def EngSt.slotOf (x : EngSt) (ctx : Nat) (o : Opnd) (p : CodePos) : Nat :=
  let w := x.codeWord ctx o p.band p.grp
  let q := p.bit / 4
  let quads := ((List.range q).map fun i => ((List.range 4).map (quadCount w i)).sum).sum
  let rows := ((List.range p.row).map (quadCount w q)).sum
  x.indexAt ctx o p.band + x.bandBits ctx o p.band p.grp + quads + rows +
    popCount (bitsAt w (8 * p.row + 4 * q) (p.bit - 4 * q))

/-- The stored bit at a position. -/
def EngSt.stored (x : EngSt) (ctx : Nat) (o : Opnd) (p : CodePos) : Bool :=
  bitAt (x.codeWord ctx o p.band p.grp) (8 * p.row + p.bit)

/-- A position whose K-block begins at or beyond K_EXTENT (R250). -/
def Opnd.beyondK (o : Opnd) (p : CodePos) : Bool := decide (o.kExt ≤ (8 * p.grp + p.bit) * 32)
/-- A position whose block row begins at or beyond BAND_EXTENT. -/
def Opnd.beyondBand (o : Opnd) (p : CodePos) : Bool := decide (o.bandExt ≤ p.band * 128 + p.row * 32)

/-- The code bit of a lane after the clearing of R241 for a command whose K is `k`. -/
def EngSt.kept (x : EngSt) (ctx : Nat) (o : Opnd) (k lb g j : Nat) : Bool :=
  let p := o.pos lb g j
  x.stored ctx o p && !o.beyondK p && !o.beyondBand p && decide ((8 * g + j) * 32 < k)

/-- Stored bits of a lane in a group that R250 counts, among those that no selection clears (R262). -/
def EngSt.dropsOf (x : EngSt) (ctx : Nat) (o : Opnd) (lb g : Nat) (sel : Nat → Bool) : Nat :=
  if o.implied then 0
  else ((List.range 8).filter fun j => let p := o.pos lb g j; x.stored ctx o p && o.beyondK p && sel j).length

/-! ### Elements -/

/-- Bit address of element (i of lane block lb, kk of K-block kb); for a container, of the block at `slot`. -/
def Opnd.eltBit (o : Opnd) (slot lb i kb kk : Nat) : Nat :=
  let b := o.bits
  if o.t.ashlar then
    let w := if o.role = 2 then kk * 32 + i else i * 32 + kk
    (o.t.lo + o.hdr.dataOff) * 8 + slot * 1024 * b + w * b
  else
    let l := lb * 32 + i
    let k := kb * 32 + kk
    o.t.lo * 8 + (if o.role = 0 then blkBit o.t.col o.t.rows o.t.cols b l k else blkBit o.t.col o.t.rows o.t.cols b k l)

/-- Byte address of the scale of index i of a lane's block (R161, R168). -/
def Opnd.scaleByte (o : Opnd) (slot lb i kb : Nat) : Nat :=
  if o.t.ashlar then o.t.lo + o.hdr.scaleOff + slot * 32 + i
  else
    let l := lb * 32 + i
    o.t.scale * 256 + (if o.role = 0 then blkScale o.t.col o.t.rows o.t.cols l (kb * 32)
                       else blkScale o.t.col o.t.rows o.t.cols (kb * 32) l)

/-- The byte ranges that a lane's block is read from: its data, then its scales (R203, R243); of a dense tensor only the
elements within its extents (R162). -/
def Opnd.blockSpans (o : Opnd) (slot lb kb : Nat) : List (Nat × Nat) :=
  let b := o.bits
  if o.t.ashlar then
    (o.t.lo + o.hdr.dataOff + slot * 128 * b, 128 * b) ::
      (if o.t.mx then [(o.t.lo + o.hdr.scaleOff + slot * 32, 32)] else [])
  else
    let kFast := (o.role == 0) != o.t.col
    let ni := min 32 (o.bandExt - lb * 32)
    let nk := min 32 (o.kExt - kb * 32)
    (if kFast then (List.range ni).map fun i => bitSpan (o.eltBit slot lb i kb 0) (nk * b)
     else (List.range nk).map fun kk => bitSpan (o.eltBit slot lb 0 kb kk) (ni * b)) ++
    (if o.t.mx then [(o.scaleByte slot lb 0 kb, ni)] else [])

/-! ### What one code word shows (R249, R251) -/

/-- The code words of a group that a walk over lane blocks `lbs` reads, the prefix of a transposed walk included. -/
def Opnd.words (o : Opnd) (lbs : List Nat) (g : Nat) : List (Nat × Nat) :=
  if o.implied then []
  else
    let l := if o.role = 2 then
        (List.range 2).flatMap fun h => (lbs.map (· / 8)).eraseDups.flatMap fun q =>
          (List.range (q + 1)).map fun i => (2 * g + h, i)
      else (lbs.map (· / 4)).eraseDups.map fun b => (b, g)
    l.filter fun p => decide (p.1 < o.bands) && decide (p.2 < o.groups)

/-- The byte ranges of those code words, of their bands' index entries, and of the next band's entry where the band ends and
R251 compares the two (R203). -/
def Opnd.wordSpans (o : Opnd) (lbs : List Nat) (g : Nat) : List (Nat × Nat) :=
  (o.words lbs g).flatMap fun p =>
    [(o.t.lo + o.hdr.indexOff + p.1 * 4, if p.2 + 1 = o.groups then 8 else 4), (o.wordAt p.1 p.2, 4)]

/-- A nonzero code in a block row at or beyond BAND_EXTENT: detail 0x3 (R251). -/
def EngSt.bad3 (x : EngSt) (ctx : Nat) (o : Opnd) (lbs : List Nat) (g : Nat) : Bool :=
  (o.words lbs g).any fun p => (List.range 4).any fun r =>
    decide (o.bandExt ≤ p.1 * 128 + r * 32) && bitsAt (x.codeWord ctx o p.1 p.2) (8 * r) 8 != 0

/-- The bands whose last group ends with group g of the walk. -/
def Opnd.endedBands (o : Opnd) (lbs : List Nat) (g : Nat) : List Nat :=
  ((o.words lbs g).filter fun p => p.2 + 1 == o.groups).map (·.1)

/-- The index disagrees with the set bits of a band: detail 0x2 (R251). -/
def EngSt.bad2 (x : EngSt) (ctx : Nat) (o : Opnd) (b : Nat) : Bool :=
  (x.indexAt ctx o (b + 1) + 2 ^ 32 - x.indexAt ctx o b) % 2 ^ 32 != x.bandBits ctx o b o.groups % 2 ^ 32

/-- Set bits of each block row that PATTERN declares (R249). -/
def patternBits (p : Nat) : Nat := 8 / 2 ^ p

/-- A code word breaks the declared pattern in the block rows below BAND_EXTENT (R249). -/
def EngSt.breaks (x : EngSt) (ctx : Nat) (o : Opnd) (b g : Nat) : Bool :=
  let w := x.codeWord ctx o b g
  let rows := (List.range 4).filter fun r => decide (b * 128 + r * 32 < o.bandExt)
  !(g + 1 == o.groups && decide (o.kExt < 256 * (g + 1))) &&
    rows.any fun r => popCount (bitsAt w (8 * r) 8) != patternBits o.hdr.pattern ||
      bitsAt w (8 * r) 8 != bitsAt w (8 * rows.headD 0) 8

/-- What an operand adds to MASON_PMISS in a group (R249). -/
def EngSt.missOf (x : EngSt) (ctx : Nat) (o : Opnd) (lbs : List Nat) (g : Nat) : Nat :=
  if o.implied || o.hdr.pattern == 0 then 0
  else
    let ws := if o.role = 2 then (o.words lbs g).filter fun p => (lbs.map (· / 8)).contains p.2 else o.words lbs g
    b2n (ws.any fun p => x.breaks ctx o p.1 p.2)

/-! ### One output tile -/

/-- The geometry of an output tile: lane blocks of both operands, and for each cell whether the tile has it, its lanes, whether
it owns an output element, and that element's coordinates. -/
structure Geo where
  al   : List Nat
  bl   : List Nat
  la   : Nat → Nat
  lb   : Nat → Nat
  cell : Nat → Bool
  own  : Nat → Bool
  row  : Nat → Nat
  col  : Nat → Nat

/-- The tile at (m0, n0) of shape mt × nt in an M × N output (R192, R240). -/
def Geo.tile (m0 n0 mt nt m n : Nat) : Geo :=
  { al := (List.range (mt / 32)).map (m0 / 32 + ·)
    bl := (List.range (nt / 32)).map (n0 / 32 + ·)
    la := fun k => k / 128 / 32
    lb := fun k => k % 128 / 32
    cell := fun k => decide (k / 128 < mt) && decide (k % 128 < nt)
    own := fun k => decide (k / 128 < mt) && decide (k % 128 < nt) && decide (m0 + k / 128 < m) &&
      decide (n0 + k % 128 < n)
    row := fun k => m0 + k / 128
    col := fun k => n0 + k % 128 }

/-- A present block of a mask: row block of the output, column block, and mask slot (R257). -/
structure PackBlk where
  rb   : Nat
  cb   : Nat
  slot : Nat
deriving DecidableEq, Repr

/-- A pack of up to sixteen blocks as one output tile (R257). -/
def Geo.pack (l : List PackBlk) (m n : Nat) : Geo :=
  let q := fun k => k / 128 / 32 * 4 + k % 128 / 32
  let row := fun k => (l.map (·.rb)).getD (q k) 0 * 32 + k / 128 % 32
  let col := fun k => (l.map (·.cb)).getD (q k) 0 * 32 + k % 128 % 32
  { al := l.map (·.rb), bl := l.map (·.cb), la := q, lb := q, row := row, col := col
    cell := fun k => decide (k < 16384) && decide (q k < l.length)
    own := fun k => decide (k < 16384) && decide (q k < l.length) && decide (row k < m) && decide (col k < n) }

/-- The inputs of a walk: the buffers that A and B are read from (one engine's, but for the intermediate of R235), the
context, the operands, the command's K, the geometry, the draws, the selection
bitmap's register with what its bits cover (R239, R261), and whether a shadow is walked too (R264). -/
structure WalkIn where
  xa   : EngSt
  xb   : EngSt
  ctx  : Nat
  a    : Opnd
  b    : Opnd
  k    : Nat
  geo  : Geo
  draw : DrawIn
  selT : Option TReg
  selK : Bool
  span : Nat
  twin : Bool

/-- A random draw for a contribution step (R216). -/
def WalkIn.q (w : WalkIn) (step k : Nat) : Nat := w.draw.q 0 step (w.geo.row k) (w.geo.col k)

/-- A lane of A takes part at bit j of group g. -/
def WalkIn.aBit (w : WalkIn) (i g j : Nat) : Bool := w.xa.kept w.ctx w.a w.k (w.geo.al.getD i 0) g j
/-- A lane of B takes part, before selection. -/
def WalkIn.bBit (w : WalkIn) (i g j : Nat) : Bool := w.xb.kept w.ctx w.b w.k (w.geo.bl.getD i 0) g j
/-- The selection bit that covers a lane of B at bit j of group g (R261). -/
def WalkIn.selIx (w : WalkIn) (i g j : Nat) : Nat := (if w.selK then 8 * g + j else w.geo.bl.getD i 0) / w.span

/-- The bytes of the selection bitmap that a group reads. -/
def WalkIn.selSpans (w : WalkIn) (t : TReg) (g : Nat) : List (Nat × Nat) :=
  (List.range w.geo.bl.length).flatMap fun i => ((List.range 8).filter fun j => w.bBit i g j).map fun j =>
    (t.lo + w.selIx i g j / 8, 1)

/-- A lane of B is selected; `inv` walks the unselected blocks instead (R262, R264). -/
def WalkIn.selBit (w : WalkIn) (inv : Bool) (i g j : Nat) : Bool :=
  match w.selT with
  | none => true
  | some t =>
    let n := w.selIx i g j
    bitAt (w.xb.seen w.ctx (t.lo + n / 8)).toNat (n % 8) != inv

/-- Bit j of the walk code W_g (R241, R262). -/
def WalkIn.walks (w : WalkIn) (inv : Bool) (g j : Nat) : Bool :=
  ((List.range w.geo.al.length).any fun i => w.aBit i g j) &&
  ((List.range w.geo.bl.length).any fun i => w.bBit i g j && w.selBit inv i g j)

/-- The element of A that a cell receives; zero where its lane lacks the bit (R242). -/
def WalkIn.aElt (w : WalkIn) (g j k kk : Nat) : Elt :=
  let i := w.geo.la k
  if w.aBit i g j then
    let lb := w.geo.al.getD i 0
    let s := if w.a.t.ashlar then w.xa.slotOf w.ctx w.a (w.a.pos lb g j) else 0
    decodeElt w.a.t.elem w.a.t.mx (w.xa.seenBits w.ctx (w.a.eltBit s lb (w.geo.row k % 32) (8 * g + j) kk) w.a.bits)
  else Elt.zero

/-- The element of B that a cell receives. -/
def WalkIn.bElt (w : WalkIn) (inv : Bool) (g j k kk : Nat) : Elt :=
  let i := w.geo.lb k
  if w.bBit i g j && w.selBit inv i g j then
    let lb := w.geo.bl.getD i 0
    let s := if w.b.t.ashlar then w.xb.slotOf w.ctx w.b (w.b.pos lb g j) else 0
    decodeElt w.b.t.elem w.b.t.mx (w.xb.seenBits w.ctx (w.b.eltBit s lb (w.geo.col k % 32) (8 * g + j) kk) w.b.bits)
  else Elt.zero

/-- The scale byte of A for a cell: 127 where the operand has none or no block is read. -/
def WalkIn.aScale (w : WalkIn) (g j k : Nat) : Nat :=
  let i := w.geo.la k
  if w.a.t.mx && w.aBit i g j then
    let lb := w.geo.al.getD i 0
    let s := if w.a.t.ashlar then w.xa.slotOf w.ctx w.a (w.a.pos lb g j) else 0
    (w.xa.seen w.ctx (w.a.scaleByte s lb (w.geo.row k % 32) (8 * g + j))).toNat
  else 127

/-- The scale byte of B for a cell. -/
def WalkIn.bScale (w : WalkIn) (inv : Bool) (g j k : Nat) : Nat :=
  let i := w.geo.lb k
  if w.b.t.mx && w.bBit i g j && w.selBit inv i g j then
    let lb := w.geo.bl.getD i 0
    let s := if w.b.t.ashlar then w.xb.slotOf w.ctx w.b (w.b.pos lb g j) else 0
    (w.xb.seen w.ctx (w.b.scaleByte s lb (w.geo.col k % 32) (8 * g + j))).toNat
  else 127

/-- The K indices of a K-block at which a cell's operands both have an element; at every other the contribution is
exactly zero (R162, R593). -/
def WalkIn.ks (w : WalkIn) (g j k : Nat) : List Nat :=
  if w.geo.row k < w.a.laneExt ∧ w.geo.col k < w.b.laneExt then
    (List.range 32).filter fun kk => decide ((8 * g + j) * 32 + kk < min w.k (min w.a.redExt w.b.redExt))
  else []

/-- The sum of the products of a K-block for a cell, in units of 2^-32 (R204). -/
def WalkIn.blockSum (w : WalkIn) (inv : Bool) (g j k : Nat) : Elt :=
  (w.ks g j k).foldl (fun acc kk =>
    let p := (w.aElt g j k kk).mul (w.bElt inv g j k kk)
    { m := acc.m + p.m, e := -32, sp := spJoin acc.sp p.sp }) { m := 0, e := -32, sp := 0 }

/-- The contribution of a K-block under MX32: c of R206, NaN under a NaN scale. -/
def WalkIn.mxContrib (w : WalkIn) (inv : Bool) (g j k : Nat) : Elt :=
  if (w.ks g j k).isEmpty then Elt.zero
  else
    let sa := w.aScale g j k
    let sb := w.bScale inv g j k
    if sa = 255 ∨ sb = 255 then Elt.nan
    else let s := w.blockSum inv g j k; { s with e := s.e + ((sa : Int) - 127) + ((sb : Int) - 127) }

/-- A dyadic rational as an integer times a power of two. -/
def ratElt (x : Rat) : Elt := { m := x.num, e := -(Nat.log2 x.den : Int), sp := 0 }

/-- The split-FP32 product of two elements (R187). -/
def splitElt (a b : Elt) : Elt :=
  if a.sp = 0 ∧ b.sp = 0 then ratElt (splitMul ((a.m : Rat) * pow2 a.e) ((b.m : Rat) * pow2 b.e)) else a.mul b

/-- The contribution of one K index for codes 0x6 to 0x8 (R211). -/
def WalkIn.kContrib (w : WalkIn) (inv : Bool) (g j kk k : Nat) : Elt :=
  if (w.ks g j k).contains kk then
    let a := w.aElt g j k kk
    let b := w.bElt inv g j k kk
    if w.a.t.elem = 8 then splitElt a b else a.mul b
  else Elt.zero

/-- Spills the exact registers of scale mode NONE: the contribution of their segment (R205, R206). -/
def WalkIn.spill (w : WalkIn) (t : TileAcc) : TileAcc :=
  match t.seg with
  | none => t
  | some n =>
    { slot := t.slot.step w.geo.cell
        (fun k => { m := t.ex.get (fun _ => 0) k, e := -32, sp := t.exf.get (fun _ => 0) k }) (w.q (n * 2 ^ 24))
      ex := [], exf := [], seg := none }

/-- Adds a K-block to the exact registers. -/
def WalkIn.exAdd (w : WalkIn) (inv : Bool) (g j : Nat) (t : TileAcc) : TileAcc :=
  { t with
    ex := FMap.setRange (fun _ => 0) t.ex 0 16384 fun k =>
      t.ex.get (fun _ => 0) k + if w.geo.cell k then (w.blockSum inv g j k).m else 0
    exf := FMap.setRange (fun _ => 0) t.exf 0 16384 fun k =>
      spJoin (t.exf.get (fun _ => 0) k) (if w.geo.cell k then (w.blockSum inv g j k).sp else 0)
    seg := some ((8 * g + j) / 0x80000) }

/-- Half `h` of a walk position (R205, R211): sixteen K of codes 0x6 to 0x8; a whole K-block of the other codes at its first
half. -/
def WalkIn.position (w : WalkIn) (inv : Bool) (g j h : Nat) (t : TileAcc) : TileAcc :=
  if 6 ≤ w.a.t.elem then
    (List.range 16).foldl (fun acc i =>
      let kk := 16 * h + i
      { acc with slot := acc.slot.step w.geo.cell (w.kContrib inv g j kk) (w.q ((8 * g + j) * 32 + kk)) }) t
  else if h ≠ 0 then t
  else if w.a.t.mx || w.b.t.mx then
    { t with slot := t.slot.step w.geo.cell (w.mxContrib inv g j) (w.q ((8 * g + j) * 32)) }
  else
    let t1 := if t.seg.isSome && t.seg != some ((8 * g + j) / 0x80000) then w.spill t else t
    w.exAdd inv g j t1

/-- The state of a walk: the command's accumulator and the shadow of R264, what R249 and R250 count, and the fault that
ended it. -/
structure WalkSt where
  main : TileAcc
  shad : TileAcc
  drop : Nat
  miss : Nat
  err  : Option FaultInfo
deriving DecidableEq, Repr

/-- A fault of cause REGION at an address in a tile register's region (R203, R324). -/
def regionInfo (t : TReg) (addr : Nat) : FaultInfo :=
  { FaultInfo.mk0 0x01 with faultAddr := some addr, region := some t.raw }

/-- A fault of cause ASHLAR_META (R251, R324). -/
def metaInfo (t : TReg) (detail : Nat) : FaultInfo :=
  { FaultInfo.mk0 0x02 with detail := some detail, region := some t.raw }

/-- The reads of a walk position: every A lane with the bit, then every B lane with it (R242, R243). -/
def WalkIn.readFault (w : WalkIn) (g j : Nat) : Option FaultInfo :=
  let spans := fun (x : EngSt) (o : Opnd) (lb : Nat) =>
    o.blockSpans (if o.t.ashlar then x.slotOf w.ctx o (o.pos lb g j) else 0) lb (8 * g + j)
  let la := (List.range w.geo.al.length).flatMap fun i =>
    if w.aBit i g j then spans w.xa w.a (w.geo.al.getD i 0) else []
  let lb := (List.range w.geo.bl.length).flatMap fun i =>
    if w.bBit i g j && (w.twin || w.selBit false i g j) then spans w.xb w.b (w.geo.bl.getD i 0) else []
  match w.a.t.out la with
  | some a => some (regionInfo w.a.t a)
  | none => (w.b.t.out lb).map (regionInfo w.b.t)

/-- The faults that the code words of a group show: an access outside the region, then detail 0x3, A before B,
then the selection bitmap. -/
def WalkIn.wordFault (w : WalkIn) (g : Nat) : Option FaultInfo :=
  match w.a.t.out (w.a.wordSpans w.geo.al g) with
  | some a => some (regionInfo w.a.t a)
  | none =>
    match w.b.t.out (w.b.wordSpans w.geo.bl g) with
    | some a => some (regionInfo w.b.t a)
    | none =>
      if w.xa.bad3 w.ctx w.a w.geo.al g then some (metaInfo w.a.t 3)
      else if w.xb.bad3 w.ctx w.b w.geo.bl g then some (metaInfo w.b.t 3)
      else
        match w.selT with
        | some t => (t.out (w.selSpans t g)).map (regionInfo t)
        | none => none

/-- The faults that the end of a group shows: detail 0x2, A before B. -/
def WalkIn.endFault (w : WalkIn) (g : Nat) : Option FaultInfo :=
  if (w.a.endedBands w.geo.al g).any (w.xa.bad2 w.ctx w.a) then some (metaInfo w.a.t 2)
  else if (w.b.endedBands w.geo.bl g).any (w.xb.bad2 w.ctx w.b) then some (metaInfo w.b.t 2)
  else none

/-- The start of a group (R241, R249, R250): its code words are read and judged, its dropped bits and pattern breaks counted. -/
def WalkIn.open (w : WalkIn) (g : Nat) (t : WalkSt) : WalkSt :=
  match w.wordFault g with
  | some i => { t with err := some i }
  | none =>
    { t with
      drop := t.drop + (w.geo.al.map fun lb => w.xa.dropsOf w.ctx w.a lb g fun _ => true).sum +
        ((List.range w.geo.bl.length).map fun i =>
          w.xb.dropsOf w.ctx w.b (w.geo.bl.getD i 0) g fun j => w.selBit false i g j).sum
      miss := t.miss + w.xa.missOf w.ctx w.a w.geo.al g + w.xb.missOf w.ctx w.b w.geo.bl g }

/-- Half `h` of bit `j` of a group's walk (R242). -/
def WalkIn.bit (w : WalkIn) (g j h : Nat) (t : WalkSt) : WalkSt :=
  let m := w.walks false g j
  let v := w.twin && w.walks true g j
  if m || v then
    match (if h = 0 then w.readFault g j else none) with
    | some i => { t with err := some i }
    | none => { t with main := if m then w.position false g j h t.main else t.main,
                       shad := if v then w.position true g j h t.shad else t.shad }
  else t

/-- The walk of sixteen K, the n-th of a tile (R241, R242, R249 to R251). -/
def WalkIn.unit (w : WalkIn) (t : WalkSt) (n : Nat) : WalkSt :=
  let g := n / 16
  let t1 := if t.err.isNone && n % 16 == 0 then w.open g t else t
  let t2 := if t1.err.isNone then w.bit g (n % 16 / 2) (n % 2) t1 else t1
  if t2.err.isNone && n % 16 == 15 then { t2 with err := w.endFault g } else t2

/-- The runs of sixteen K that a tile walks: those of all groups of the command's K (R593). -/
def WalkIn.units (w : WalkIn) : Nat := 16 * ceilDiv w.k 256

/-- A part of a tile's walk, from one run of sixteen K up to another. -/
def WalkIn.part (w : WalkIn) (lo hi : Nat) (main shad : TileAcc) : WalkSt :=
  ((List.range (hi - lo)).map (lo + ·)).foldl w.unit { main := main, shad := shad, drop := 0, miss := 0, err := none }

end Sys2Proof.Machine
end

