-- ==== Sys2Proof/Machine/Epilogue.lean ====
section
/-! DEFINITION. The epilogue (R226 to R233, R592), the predictor's verification sums (R265) and the lintel row functions
(R235), each as a function of exact values. -/

namespace Sys2Proof.Machine

/-! ### Vectors (R227) -/

/-- Bit address of element i of a vector of 32-bit elements in a register's region. -/
def TReg.vecBit (t : TReg) (i : Nat) : Nat :=
  t.lo * 8 + blkBit t.col t.rows t.cols 32 (i / t.cols) (i % t.cols)

/-- Element i of a vector, as its 32 bits. -/
def EngSt.vecRaw (x : EngSt) (ctx : Nat) (t : TReg) (i : Nat) : Nat := x.seenBits ctx (t.vecBit i) 32

/-- Element i of an FP32 vector. -/
def EngSt.vecNum (x : EngSt) (ctx : Nat) (t : TReg) (i : Nat) : Num := elemNum 8 none (x.vecRaw ctx t i)

/-- The first byte outside the region among the reads of the given elements. -/
def TReg.vecOut (t : TReg) (l : List Nat) : Option Nat := t.out (l.map fun i => bitSpan (t.vecBit i) 32)

/-- An FP32 vector under scale mode NONE with at least n elements (R227). -/
def TReg.vecOk (t : TReg) (n : Nat) : Bool :=
  t.plainOk && t.elem == 8 && !t.mx && !t.ashlar && decide (n ≤ t.rows * t.cols)

/-! ### Stages of the epilogue (R226) -/

/-- Scale or bias element for an output element: per row, per column, or none. -/
def EngSt.perRC (x : EngSt) (ctx mode : Nat) (t : TReg) (row col : Nat) (dflt : Num) : Num :=
  match mode with
  | 1 => x.vecNum ctx t row
  | 2 => x.vecNum ctx t col
  | _ => dflt

/-- Stages 1 to 3 on the exact value of one element (R226, R228). -/
def EngSt.stages (x : EngSt) (ctx : Nat) (ep : Epi) (st bt : TReg) (row col : Nat) (v : Num) : Num :=
  let v1 := if ep.scale = 0 then v else v.mul (x.perRC ctx ep.scale st row col (.fin 1))
  let v2 := if ep.bias = 0 then v1 else v1.add (x.perRC ctx ep.bias bt row col (.fin 0))
  activate ep.act (elemNum 6 none ep.alpha) v2

/-- The vector elements that stages 1 and 2 read for the cells of a tile. -/
def stageReads (mode : Nat) (g : Geo) : List Nat :=
  let l := (List.range 16384).filter g.own
  match mode with
  | 1 => (l.map g.row).eraseDups
  | 2 => (l.map g.col).eraseDups
  | _ => []

/-- Where the outputs of a tile go: the cells in store order, the bit address of each, whether the runs of R180 lie along
the rows, the byte address of a cell's scale, and the cells inside the destination's extents (R161, R168, R592). -/
structure OutMap where
  t     : TReg
  cells : List Nat
  addr  : Nat → Nat
  down  : Bool
  scale : Nat → Nat
  fits  : Nat → Bool

/-- The cells of the run of 32 that holds cell k. -/
def runOf (down : Bool) (own : Nat → Bool) (k : Nat) : List Nat :=
  ((List.range 32).map fun i =>
    if down then (k / 128 / 32 * 32 + i) * 128 + k % 128 else k / 128 * 128 + (k % 128 / 32 * 32 + i)).filter own

/-- The encoding and scale byte of a cell (stage 4; R177 to R180, R590). -/
def convCell (c : Conv) (down : Bool) (own : Nat → Bool) (v : Nat → Num) (q : Nat → Nat) (k : Nat) : Nat × Nat :=
  let dq := fun i => if c.rnd then some (q i) else none
  if c.mx then
    let l := runOf down own k
    let p := convertRun c.target (l.map v) (l.map dq) c.sat
    (p.1.getD (l.idxOf k) 0, p.2)
  else (encodeNum c.target (v k) (dq k) c.sat, 0)

/-- A cell's encoding and scale as one number, as the top-k stage keeps it. -/
def packCell (p : Nat × Nat) : Nat := p.1 + p.2 * 2 ^ 32

/-- The value that an encoding stands for in a conversion's target format. -/
def convValue (c : Conv) (p : Nat) : Num :=
  elemNum c.target (if c.mx then some (p / 2 ^ 32) else none) (p % 2 ^ 32)

/-- One store of `w` bits inside a region, or the fault of the first byte outside it (R203, R426). -/
def EngSt.storeBits (x : EngSt) (ctx : Nat) (t : TReg) (ok : Bool) (b w v : Nat) : EngSt × Option FaultInfo :=
  match t.out [bitSpan b w] with
  | some a => (x, some (regionInfo t a))
  | none => if ok then (x.putBits ctx b w v, none) else (x, some (regionInfo t (b / 8)))

/-- Carries out stores in order until one faults (R425, R426). -/
def EngSt.storeAll (f : Nat → EngSt → EngSt × Option FaultInfo) : List Nat → EngSt → EngSt × Option FaultInfo
  | [], x => (x, none)
  | k :: l, x =>
    match f k x with
    | (y, none) => EngSt.storeAll f l y
    | r => r

/-- Writes a tile's outputs: the elements in store order, then under MX32 the scale bytes of their runs. -/
def OutMap.write (o : OutMap) (ctx : Nat) (c : Conv) (own : Nat → Bool) (enc : Nat → Nat × Nat) (x : EngSt) :
    EngSt × Option FaultInfo :=
  let cells := o.cells.filter own
  let r := EngSt.storeAll (fun k y => y.storeBits ctx o.t (o.fits k) (o.addr k) (elemBits c.target) (enc k).1) cells x
  match r with
  | (y, none) =>
    if c.mx then
      EngSt.storeAll (fun k z => z.storeBits ctx o.t (o.fits k) (o.scale k * 8) 8 (enc k).2)
        (cells.filter fun k => (runOf o.down own k).head? == some k) y
    else (y, none)
  | z => z

/-- Cell keys of a tile in blocked-layout byte order (R158, R159, R425). -/
def tileOrder (col : Bool) : List Nat :=
  (List.range 16).flatMap fun st => (List.range 1024).map fun e =>
    let a := st / 4 * 32 + e / 32
    let b := st % 4 * 32 + e % 32
    if col then b * 128 + a else a * 128 + b

/-- The outputs of a dense tile through OUT_T (R592). -/
def OutMap.dense (t : TReg) (g : Geo) (b : Nat) : OutMap :=
  { t := t, cells := tileOrder t.col, down := t.col
    addr := fun k => t.lo * 8 + blkBit t.col t.rows t.cols b (g.row k) (g.col k)
    scale := fun k => t.scale * 256 + blkScale t.col t.rows t.cols (g.row k) (g.col k)
    fits := fun k => decide (g.row k < t.rows) && decide (g.col k < t.cols) }

/-- The outputs of a pack: each block into its data slot of the gradient container, K fastest (R167, R168, R256). -/
def OutMap.pack (t : TReg) (h : Ash) (l : List PackBlk) (b : Nat) : OutMap :=
  let q := fun k => k / 128 / 32 * 4 + k % 128 / 32
  let slot := fun k => (l.map (·.slot)).getD (q k) 0
  { t := t, down := true
    cells := (List.range 16).flatMap fun n => (List.range 1024).map fun e =>
      (n / 4 * 32 + e % 32) * 128 + (n % 4 * 32 + e / 32)
    addr := fun k => (t.lo + h.dataOff) * 8 + slot k * 1024 * b + (k % 128 % 32 * 32 + k / 128 % 32) * b
    scale := fun k => t.lo + h.scaleOff + slot k * 32 + k % 128 % 32
    fits := fun _ => true }

/-! ### Top-k (R232, R233) -/

/-- The index of the best candidate: a later one must rank strictly above to win (R232). -/
def bestOf : List (Nat × Num) → Option (Nat × Num)
  | [] => none
  | c :: t =>
    match bestOf t with
    | none => some c
    | some d => if d.2.above c.2 then some d else some c

/-- The `k` best candidates in rank order. -/
def topK : Nat → List (Nat × Num) → List (Nat × Num)
  | 0, _ => []
  | k + 1, l =>
    match bestOf l with
    | none => []
    | some c => c :: topK k (l.filter fun d => d.1 != c.1)

/-- Writes one row of top-k outputs: the values to TV_T, the indices to TI_T (R233). `cand` are the row's converted
encodings with their columns. Under MX32 values of several runs meet under one scale, which no rule gives: the encodings and the
scale byte are then the free number `d` (assumption log 110). -/
def EngSt.writeTopK (x : EngSt) (ctx : Nat) (c : Conv) (k : Nat) (tv ti : TReg) (row : Nat) (cand : List (Nat × Nat)) (d : Nat) :
    EngSt × Option FaultInfo :=
  let best := topK k (cand.map fun p => (p.1, convValue c p.2))
  let b := elemBits c.target
  let enc := fun i =>
    if c.mx then bitsAt d (b * i) b
    else match best.drop i with
      | p :: _ => ((cand.find? fun q => q.1 == p.1).map (·.2)).getD 0
      | [] => negTop c.target
  let r1 := EngSt.storeAll (fun i y => y.storeBits ctx tv true (tv.lo * 8 + blkBit false 0 128 b row i) b (enc i)) (List.range k) x
  match r1 with
  | (y, none) =>
    let r2 := if c.mx then y.storeBits ctx tv true ((tv.scale * 256 + blkScale false 0 128 row 0) * 8) 8 (bitsAt d 512 8)
      else (y, none)
    match r2 with
    | (z, none) =>
      EngSt.storeAll (fun i u =>
        u.storeBits ctx ti true (ti.lo * 8 + blkBit false 0 128 32 row i) 32
          ((best.map (·.1)).getD i 0xFFFFFFFF)) (List.range k) z
    | r => r
  | r => r

/-! ### Lintel row functions (R235) -/

/-- RNE32(1 / √v); a zero or negative v has no stated result and gives a free value (assumption log 30). -/
def rootInv (d : Nat) (v : Num) : Num :=
  match v with
  | .fin q => if 0 < q then rsqrt32 q else .free d
  | .inf false => .fin 0
  | .inf true => .free d
  | .nan => .nan
  | .free n => .free n

/-- The mean of a list of n values, exactly. -/
def meanOf (l : List Num) : Num := (Num.sum l).mul (.fin (mkRat 1 l.length))

/-- The largest value of a list by the order of R232. -/
def maxOf (l : List Num) : Num :=
  match bestOf (l.map fun v => (0, v)) with
  | some p => p.2
  | none => .nan

/-- EXP of X − m, for a finite m. -/
def expDiff (m : Rat) (v : Num) : Rat :=
  match v with
  | .fin q => expTab (q - m)
  | _ => 0

/-- SOFTMAX over the selected columns; +0 elsewhere. A NaN or +∞ anywhere in the row, or a zero sum, gives NaN in every
element. -/
def softmaxRow (l : List Num) (sel : Nat → Bool) : List Num :=
  let bad := l.any fun v => v == .nan || v == .inf false
  let ix := List.range l.length
  let chosen := (ix.filter sel).map fun i => l.getD i .nan
  match bad, maxOf chosen with
  | false, .fin m =>
    let es := ix.map fun i => if sel i then expDiff m (l.getD i .nan) else 0
    let sum := es.foldl (· + ·) 0
    if sum = 0 then l.map fun _ => .nan else es.map fun e => .fin (e / sum)
  | _, .free n => l.map fun _ => .free n
  | _, _ => l.map fun _ => .nan

/-- The columns that R232 selects. -/
def topSel (k : Nat) (l : List Num) (i : Nat) : Bool := (topK k (l.zipIdx.map fun p => (p.2, p.1))).any fun c => c.1 == i

/-- Y for one row of X (R235); `ga` and `be` are γ and β, `d` the free number for results that no rule states. -/
def lintelRow (f : Lintel) (alpha : Num) (ga be : Nat → Num) (d : Nat) (l : List Num) : List Num :=
  match f.func with
  | 1 => softmaxRow l fun _ => true
  | 2 => let s := topSel f.k l; l.zipIdx.map fun p => if s p.2 then p.1 else .fin 0
  | 3 => softmaxRow l (topSel f.k l)
  | 4 =>
    let r := rootInv d ((meanOf (l.map fun v => v.mul v)).add (elemNum 6 none f.eps))
    l.zipIdx.map fun p => (p.1.mul r).mul (ga p.2)
  | 5 =>
    let mu := (meanOf l).neg
    let r := rootInv d ((meanOf (l.map fun v => (v.add mu).mul (v.add mu))).add (elemNum 6 none f.eps))
    l.zipIdx.map fun p => (((p.1.add mu).mul r).mul (ga p.2)).add (be p.2)
  | _ => l.map (activate f.act alpha)

end Sys2Proof.Machine
end

