-- ==== Sys2Proof/Machine/Matmul.lean ====
section
/-! DEFINITION. MATMUL (R191 to R267, R305, R313, R321, R592, R593): legality, output tiles, lintel courses, packs, and the
command itself. -/

namespace Sys2Proof.Machine

/-! ### Ends of a command's work, shared by every operation -/

/-- The work of a command is over; it waits for its completion. -/
def State.workDone (s : State) (r seq : Nat) : State := s.updCmd r seq fun c => { c with st := .done, started := true }

/-- A command has a fault; it waits to fault. -/
def State.workFault (s : State) (r seq : Nat) (i : FaultInfo) : State :=
  s.updCmd r seq fun c => { c with started := true, fault := some i }

/-- An illegal descriptor that a routine issued faults its call with ROUTINE, detail 0x06 (R356). -/
def State.workIssued (s : State) (r seq : Nat) : State :=
  s.workFault r seq { FaultInfo.mk0 causeRoutine with detail := some 6 }

/-- Whether the command was issued by a routine. -/
def State.seqIssued (s : State) (r seq : Nat) : Bool :=
  match (s.room r).find seq with
  | some c => c.isIssued
  | none => false

/-- The end of a command whose result is undefined (R7, R10): a free choice of a fault ILLEGAL and of completion with an
unspecified status word. -/
def State.workUndef (s : State) (r seq d : Nat) : State :=
  if s.seqIssued r seq then s.workIssued r seq
  else if d % 2 = 0 then s.workFault r seq (FaultInfo.mk0 0x0A)
  else (s.updCmd r seq fun c => { c with undef := true }).workDone r seq

/-! ### The command's fixed inputs -/

/-- What a MATMUL's tiles have in common. -/
structure Mm where
  r    : Nat
  c    : RoomCmd
  e    : Nat
  regs : Nat → TReg
  ec   : ECtl
  mc   : MCtl
  ep   : Epi
  n    : Nat
  k    : Nat

/-- The fixed inputs of a dispatched command on engine `e`. -/
def State.mmOf (s : State) (r : Nat) (c : RoomCmd) (e : Nat) : Mm :=
  let d := c.desc
  { r := r, c := c, e := e
    regs := fun i => TReg.of (((s.eng e).slot c.slot).tile i).toNat
    ec := dECtl d, mc := dMCtl d, ep := dEpi d
    n := (c.shape.map fun p => p.2.1).getD (dN d)
    k := (c.shape.map fun p => p.2.2).getD (dK d) }

/-- The context tag of the engine's contents and of the draws (R39, R216). -/
def Mm.ctx (m : Mm) : Nat := m.c.ctx
/-- LINTEL's control word. -/
def Mm.lt (m : Mm) : Lintel := Lintel.of (dExt m.c.desc)
/-- The mortar control word. -/
def Mm.mo (m : Mm) : MortCtl := MortCtl.of (dExt m.c.desc)
/-- The role of B under PASS (R239, R253). -/
def Mm.roleB (m : Mm) : Nat := if m.mc.pass = 1 then 2 else 1

/-- A register with an instance's BASE. -/
def Mm.based (m : Mm) (i : Nat) (b : Int) : TReg := (m.regs i).atBase b.toNat
/-- A_T of an instance. -/
def Mm.aT (m : Mm) (i : MmInst) : TReg := m.based (dAT m.c.desc) i.aBase
/-- B_T of an instance. -/
def Mm.bT (m : Mm) (i : MmInst) : TReg := m.based (dBT m.c.desc) i.bBase
/-- OUT_T of an instance. -/
def Mm.outT (m : Mm) (i : MmInst) : TReg := m.based (dOutT m.c.desc) i.oBase
/-- The draws of an instance (R216). -/
def Mm.draws (m : Mm) (i : MmInst) : DrawIn := { tag := dTag m.c.desc, ctx := m.ctx, batch := i.batch }

/-- Entry n of a pointer list as an instance (R312). -/
def plistInst (n entry : Nat) : MmInst :=
  { ix := n, aBase := (bitsAt entry 0 32 : Nat), bBase := (bitsAt entry 32 32 : Nat), oBase := (bitsAt entry 64 32 : Nat),
    m := bitsAt entry 96 32, batch := n }

/-- An instance under AGEN (R310, R311), or the only one. -/
def Mm.agenInst (m : Mm) (n : Nat) : MmInst :=
  let d := m.c.desc
  let l := agenRegs (dAgen d) (dAgenWord d) m.c.aff.toNat
    [((m.regs (dAT d)).base : Int), ((m.regs (dBT d)).base : Int), ((m.regs (dOutT d)).base : Int)] n
  { ix := n, aBase := l.getD 0 0, bBase := l.getD 1 0, oBase := l.getD 2 0
    m := (m.c.shape.map fun p => p.1).getD (dM d), batch := 0 }

/-- The instances of a command and whether a beat of its pointer list was poisoned (R312, R313). -/
def State.mmInsts (s : State) (m : Mm) : (List MmInst × Bool) × State :=
  let d := m.c.desc
  if dPlist d then
    let p := s.readVa m.r m.ctx (dAgenWord d) (16 * dRepeat d)
    let n := leOfList p.1.bytes
    (((List.range (dRepeat d)).map fun i => plistInst i (bitsAt n (128 * i) 128), p.1.bad), p.2)
  else (((List.range (dRepeat d)).map m.agenInst, false), s)

/-! ### Legality (R6) -/

/-- The legal pairings of R152 under the shapes of R196. -/
def pairOk (shape a b : Nat) : Bool :=
  ((decide (1 ≤ a) && decide (a ≤ 5) && decide (1 ≤ b) && decide (b ≤ 5)) || (a == b && (a == 0 || decide (6 ≤ a)))) &&
    decide (a ≤ 8) && (if shape = 4 then decide (6 ≤ a) else decide (shape < 4) && decide (a ≤ 5))

/-- The first row of R194: INT8, or a pairing with E4M3 or E5M2. -/
def fullRate (a b : Nat) : Bool := a == 0 || a == 1 || a == 2 || b == 1 || b == 2

/-- An operand's register agrees with its container and its orientation (R161, R202). R202 asks BAND_COLS of an ashlar B under
PASS FORWARD alone; that PASS PACKED asks it too is the model's choice (assumption log 113). -/
def Opnd.ok (o : Opnd) (isA fwd : Bool) : Bool :=
  o.t.plainOk &&
  (if o.t.ashlar then
    o.hdr.extents == (o.t.rows, o.t.cols) && o.hdr.elem == o.t.elem && o.hdr.mx == o.t.mx &&
      !(isA && o.hdr.bandCols) && !(!isA && fwd && !o.hdr.bandCols)
  else !o.t.mx || (o.t.col != isA))

/-- Reserved bits and values of the control words (R219, R227, R234, R239, R270, R305). -/
def mmWordsOk (d : BitVec 2048) : Bool :=
  let ec := dECtl d
  let mc := dMCtl d
  let ep := dEpi d
  let lt := Lintel.of (dExt d)
  !ec.rsv && decide (ec.shape ≤ 4) && !mc.rsv && decide (mc.pass ≤ 2) &&
  !ep.rsv && ep.scale != 3 && ep.bias != 3 && decide (ep.act ≤ 6) && ep.conv.legal && decide (ep.topk ≤ 16) &&
  !(ep.mortar && (ep.topk != 0 || ec.lintel)) &&
  (if ec.lintel then !lt.rsv && decide (1 ≤ lt.func) && decide (lt.func ≤ 6) && lt.conv1.legal &&
      (lt.func != 6 || decide (lt.act ≤ 6)) &&
      (!(lt.func == 2 || lt.func == 3) || (decide (1 ≤ lt.k) && decide (lt.k ≤ 16)))
   else if ep.mortar then !(MortCtl.of (dExt d)).rsv else dExt d == 0) &&
  bitsAt (dRoles d) 12 4 == 0 && bitsAt (dRoles d) 56 8 == 0 && decide ((loadRegs d).map (·.1)).Nodup &&
  decide (dM d < 65536) && decide (dN d < 65536) &&
  (!mc.verify || (mc.selEn && !ec.cont && !ec.hold && !ec.two)) &&
  !(mc.pass == 2 && (ep.scale != 0 || ep.bias != 0 || ep.topk != 0 || ep.mortar || mc.selEn || ec.lintel))

/-- The output tiles of a command as R221 judges them. Those of PASS PACKED are packs (R257), which no extent of the descriptor
counts: the model counts the dense tiles of M × N there too (assumption log 114). -/
def mmTiles (d : BitVec 2048) : Nat :=
  let s := shapeMN (dECtl d).shape
  ceilDiv (dM d) s.1 * ceilDiv (dN d) s.2 * dRepeat d

/-- The parts of legality that no instance changes. -/
def Mm.fixedOk (m : Mm) : Bool :=
  let d := m.c.desc
  headerOk d && mmWordsOk d && agenOk d m.c.aff.toNat && !m.c.badRec &&
  (match m.c.shape with
   | some p => decide (p.1 < 65536) && decide (p.2.1 < 65536)
   | none => true) &&
  (!((m.ec.cont || m.ec.hold) && dM d != 0 && dN d != 0) || mmTiles d == m.ec.slots.length) &&
  (m.ep.scale == 0 || (m.regs m.ep.scaleT).vecOk (if m.ep.scale = 1 then dM d else dN d)) &&
  (m.ep.bias == 0 || (m.regs m.ep.biasT).vecOk (if m.ep.bias = 1 then dM d else dN d)) &&
  (m.ep.topk == 0 || ((m.regs m.ep.tvT).plainOk && (m.regs m.ep.tiT).plainOk &&
    (m.regs m.ep.tvT).elem == m.ep.conv.target && (m.regs m.ep.tvT).mx == m.ep.conv.mx)) &&
  (!m.mc.selEn || (m.regs m.mc.sel).plainOk) && (!m.mc.verify || (m.regs m.mc.ver).plainOk) &&
  (!m.ep.mortar || ((m.regs m.mo.tokT).plainOk && (!m.mo.gateEn || (m.regs m.mo.gateT).plainOk)))

/-- OUT_T agrees with CONV and the extents (R592); not judged under TO_MORTAR, which writes nothing through it (assumption log
91). -/
def Mm.outOk (m : Mm) (i : MmInst) : Bool :=
  let t := m.outT i
  let c := m.ep.conv
  m.ep.mortar ||
    (t.plainOk && t.elem == c.target && t.mx == c.mx && !t.ashlar && decide (dM m.c.desc ≤ t.rows) &&
      decide (dN m.c.desc ≤ t.cols))

/-- A lintel command's further conditions (R227, R236). -/
def Mm.lintelOk (m : Mm) (b b2 : Opnd) : Bool :=
  let f := m.lt
  let n1 := b.laneExt
  let mt := (shapeMN m.ec.shape).1
  let it := m.regs f.interT
  !m.ec.lintel ||
  (decide (n1 ≤ 8192) && decide (mt * pad128 n1 ≤ 262144) && decide (mt * pad128 n1 * 4 ≤ it.size * 256) &&
   it.plainOk && b2.ok false true && b2.redExt == n1 && pairOk m.ec.shape f.conv1.target b2.t.elem &&
   (!(f.func == 4 || f.func == 5) || (m.regs f.gammaT).vecOk n1) && (f.func != 5 || (m.regs f.betaT).vecOk n1))

/-- The mask and gradient containers of PASS PACKED (R256, R259, R592). -/
def Mm.packOk (m : Mm) (x : EngSt) (i : MmInst) (a b : Opnd) : Bool :=
  let mk := x.opnd m.ctx (m.regs m.mc.mask) 1
  let t := m.outT i
  let h := Ash.of (x.seenLe m.ctx t.lo 64)
  m.mc.pass != 2 ||
  ((m.ec.shape == 4 || (m.ec.shape == 0 && fullRate a.t.elem b.t.elem)) &&
   mk.t.plainOk && mk.t.ashlar && mk.hdr.extents == (mk.t.rows, mk.t.cols) && mk.hdr.elem == mk.t.elem &&
   mk.hdr.mx == mk.t.mx && t.plainOk && t.ashlar && h.extents == (t.rows, t.cols) && h.elem == t.elem && h.mx == t.mx &&
   h.sameBut mk.hdr && m.ep.conv.target == h.elem && m.ep.conv.mx == h.mx)

/-- A generated BASE lies in the engine buffer with its region (R314). -/
def baseOk (b : Int) (size : Nat) : Bool := decide (0 ≤ b) && decide (b < 12288) && decide (b + (size : Int) ≤ 12288)

/-- The BASEs of an instance (R314). -/
def Mm.basesOk (m : Mm) (i : MmInst) : Bool :=
  baseOk i.aBase (m.aT i).size && baseOk i.bBase (m.bT i).size && baseOk i.oBase (m.outT i).size

/-- Legality of one instance. -/
def Mm.instOk (m : Mm) (x : EngSt) (i : MmInst) : Bool :=
  let d := m.c.desc
  let a := x.opnd m.ctx (m.aT i) 0
  let b := x.opnd m.ctx (m.bT i) m.roleB
  let b2 := x.opnd m.ctx (m.regs m.lt.b2T) 1
  m.basesOk i && decide (i.m < 65536) && a.ok true true && b.ok false (m.mc.pass != 1) && (m.mc.pass != 1 || b.t.ashlar) &&
  pairOk (dECtl d).shape a.t.elem b.t.elem && (m.mc.pass == 2 || m.outOk i) && m.lintelOk b b2 && m.packOk x i a b

/-- The container in a register breaks a rule of R163 to R171. Its codes and index are judged where its arrays lie in the
region; where one does not, the access to it faults (R203). -/
def EngSt.badAsh (x : EngSt) (ctx : Nat) (t : TReg) : Bool :=
  let h := Ash.of (x.seenLe ctx t.lo 64)
  t.ashlar && (!h.headOk || (h.parts.all (fun p => decide (t.lo + p.1 + p.2 ≤ t.hi)) &&
    !h.legal fun o => x.seenLe ctx (t.lo + o) 4))

/-- Some container that an instance reads breaks a rule of R163 to R171. -/
def Mm.badAsh (m : Mm) (x : EngSt) (i : MmInst) : Bool :=
  x.badAsh m.ctx (m.aT i) || x.badAsh m.ctx (m.bT i) || (m.mc.pass == 2 && x.badAsh m.ctx (m.regs m.mc.mask)) ||
    (m.ec.lintel && x.badAsh m.ctx (m.regs m.lt.b2T))

/-! ### Undefined results (R7, R8) -/

/-- A slot whose contents are free. -/
def freeSlot (st : AccState) (owner d : Nat) : AccSlot :=
  { st := st, owner := owner, anchor := toSigned 10 (bitsAt d 0 10), raises := bitsAt d 10 4
    v := FMap.setRange (fun _ => 0) [] 0 16384 fun k => toSigned 192 (bitsAt d (14 + 194 * k) 192)
    flag := FMap.setRange (fun _ => 0) [] 0 16384 fun k => bitsAt d (14 + 194 * k + 192) 2 }

/-- The regions that the instances and control words of a MATMUL name as destinations; a generated BASE below zero names
none. -/
def Mm.outRegs (m : Mm) (l : List MmInst) : List TReg :=
  ((l.filter fun i => decide (0 ≤ i.oBase)).map m.outT) ++
    (if m.ep.topk = 0 then [] else [m.regs m.ep.tvT, m.regs m.ep.tiT]) ++
    (if m.ec.lintel then [m.regs m.lt.interT] else []) ++ (if m.mc.verify then [m.regs m.mc.ver] else [])

/-- The own output regions of a MATMUL become free (R7, R8): each region with its scale bytes, then the slots. -/
def State.mmSpoil (s : State) (m : Mm) (l : List MmInst) : State :=
  let s1 := (m.outRegs l).foldl (fun st t => st.freeSpace m.r m.e m.ctx 0 t.lo (t.size * 256)) s
  let s2 := m.ec.slots.foldl (fun st n =>
    let d := st.draw
    d.2.setEng m.e ((d.2.eng m.e).setAcc n (if m.ec.hold then freeSlot .held m.ctx d.1 else AccSlot.reset))) s1
  let x := s2.eng m.e
  let x1 := { x with recs := x.recs.filter fun q => !m.ec.slots.contains q.slot }
  s2.setEng m.e (if m.mc.verify then x1.setAcc ((m.ec.slot + 2) % 4) AccSlot.reset else x1)

/-- The accumulator slots a MATMUL claims, its shadow slot included (R222, R264). -/
def mmSlots (d : BitVec 2048) : List Nat :=
  (dECtl d).slots ++ (if (dMCtl d).verify then [((dECtl d).slot + 2) % 4] else [])

/-- The slots that a faulted MATMUL was using return to FREE, but for those whose records the floor stage has not yet taken
(assumption log 34). -/
def State.mmRelease (s : State) (m : Mm) : State :=
  (mmSlots m.c.desc).foldl (fun st n =>
    let x := st.eng m.e
    let a := x.accSlot n
    if a.owner == m.ctx && (a.st == .accum || a.st == .drain) && !(x.recs.any fun q => q.slot == n)
    then st.setEng m.e (x.setAcc n AccSlot.reset) else st) s

/-! ### Counters -/

/-- The inbox that a command's dropped bits count at, if any (R250): its own, or that of the CALL that issued it. -/
def RoomCmd.dropInbox (c : RoomCmd) : Option Nat :=
  match c.src with
  | .inbox i => some i
  | _ => c.home

/-- Counts dropped bits and pattern breaks of a walk (R249, R250, R252). CTX of MASON_DROP_FW is free under the firmware
context. -/
def State.countWalk (s : State) (m : Mm) (drop miss : Nat) : State :=
  let e5 := m.e % 5
  let s1 := s.count (F.MASON_PMISS.COUNT m.r e5) miss
  if drop = 0 then s1
  else
    match m.c.dropInbox with
    | some i => (s1.count (F.MASON_DROP.COUNT m.r e5 i) drop).fset (F.MASON_DROP.CTX m.r e5 i) m.ctx
    | none =>
      let s2 := (s1.count (F.MASON_DROP_FW.COUNT m.r e5) drop).fset (F.MASON_DROP_FW.FWCTX m.r e5)
        (b2n (decide (m.ctx = fwCtx)))
      if m.ctx = fwCtx then s2.draw.2.fset (F.MASON_DROP_FW.CTX m.r e5) s2.draw.1
      else s2.fset (F.MASON_DROP_FW.CTX m.r e5) m.ctx

/-! ### Tiles -/

/-- A MATMUL at work: its progress, the tiles of the instance that an earlier part of the work has finished, the K-steps left
until it breaks off, whether it has stopped for now, and the fault that ended it. -/
structure MmSt where
  s    : State
  p    : MmProg
  pass : Nat
  fuel : Option Nat
  halt : Bool
  err  : Option FaultInfo

/-- No tile begins or goes on any more. -/
def MmSt.stopped (t : MmSt) : Bool := t.halt || t.err.isSome

/-- Work that an earlier part has finished, of `n` tiles, is passed over; other work is done. -/
def MmSt.steps (t : MmSt) (n : Nat) (f : MmSt → MmSt) : MmSt :=
  if t.stopped then t else if n ≤ t.pass then { t with pass := t.pass - n } else f t

/-- Where in the command a fault occurred (R324). -/
def FaultInfo.atTile (f : FaultInfo) (i : MmInst) (m0 n0 : Nat) : FaultInfo :=
  { f with inst := some i.ix, tileRow := some m0, tileCol := some n0 }

/-- The walk of a tile of A × B with the command's mason control (R241, R262, R264). -/
def Mm.walkIn (m : Mm) (x : EngSt) (i : MmInst) (g : Geo) : WalkIn :=
  { xa := x, xb := x, ctx := m.ctx, a := x.opnd m.ctx (m.aT i) 0, b := x.opnd m.ctx (m.bT i) m.roleB, k := m.k, geo := g
    draw := m.draws i, selT := if m.mc.selEn then some (m.regs m.mc.sel) else none, selK := m.mc.selK, span := m.mc.span
    twin := m.mc.verify }

/-- The accumulator slot of the tile about to begin. -/
def Mm.slotFor (m : Mm) (n : Nat) : Nat := m.ec.slots.getD (n % m.ec.slots.length) 0

/-- A slot as its tile begins: INIT, or CONT on a slot that the context holds (R210, R220, R223). -/
def Mm.beginSlot (m : Mm) (a : AccSlot) : AccSlot :=
  if m.ec.cont && a.st == .held && a.owner == m.ctx then { a with st := .accum } else AccSlot.start m.ctx

/-- The runs of sixteen K in a K-step (R195). -/
def Mm.kUnits (m : Mm) : Nat :=
  match m.ec.shape with
  | 0 => 2
  | 3 => 8
  | 4 => 1
  | _ => 4

/-- Goes on with the walk of a tile, from its start or from the K-step that an earlier part reached, until its end or the break;
`main` and `shad` are its slots at its start. At its end come the last spills (R205) and `f`, and the tile is finished. -/
def Mm.walkTile (m : Mm) (w : WalkIn) (i : MmInst) (m0 n0 : Nat) (main shad : AccSlot) (t : MmSt)
    (f : TileAcc → TileAcc → MmSt → MmSt) : MmSt :=
  let u := m.kUnits
  let hi := match t.fuel with
    | none => w.units
    | some n => min w.units (t.p.pos + n * u)
  let a := if t.p.pos = 0 then (TileAcc.begin main, TileAcc.begin shad) else (t.p.main, t.p.shad)
  let r := w.part t.p.pos hi a.1 a.2
  let used := ceilDiv (hi - t.p.pos) u
  let t1 := { t with s := t.s.countWalk m r.drop r.miss, fuel := t.fuel.map (· - used), err := r.err.map fun e => e.atTile i m0 n0 }
  if r.err.isSome || decide (hi < w.units) then
    { t1 with p := { t1.p with pos := hi, main := r.main, shad := r.shad }, halt := true }
  else
    let t2 := f (w.spill r.main) (w.spill r.shad) t1
    { t2 with p := { t2.p with pos := 0, done := t2.p.done + 1 }, err := t2.err.map fun e => e.atTile i m0 n0 }

/-- A tile would begin beyond the one for each slot that a CONT or HOLD command may cover (R221). -/
def Mm.tooMany (m : Mm) (n : Nat) : Bool := (m.ec.cont || m.ec.hold) && decide (m.ec.slots.length ≤ n)

/-- Adds |V × 2^A| of a tile's cells to the sums of their rows (R265). -/
def sumRows (f : FMap Num) (g : Geo) (a : AccSlot) : FMap Num :=
  ((List.range 16384).filter g.own).foldl (fun acc k =>
    FMap.set (fun _ => Num.fin 0) acc (g.row k) ((FMap.get (fun _ => Num.fin 0) acc (g.row k)).add (a.value k).abs)) f

/-- The engine records of a finished tile, in row order (R271); the fault of a token or gate outside its region. -/
def Mm.records (m : Mm) (x : EngSt) (g : Geo) (m0 n0 mrows slot : Nat) (a : AccSlot) :
    List EngineRec × Option FaultInfo :=
  let rows := (List.range (shapeMN m.ec.shape).1).filter fun r => decide (m0 + r < mrows)
  let tk := m.regs m.mo.tokT
  let gt := m.regs m.mo.gateT
  let off := n0 % 128
  match tk.vecOut (rows.map (m0 + ·)), (if m.mo.gateEn then gt.vecOut (rows.map (m0 + ·)) else none) with
  | some b, _ => ([], some (regionInfo tk b))
  | none, some b => ([], some (regionInfo gt b))
  | none, none =>
    (rows.map fun r =>
      { slot := slot, ctx := m.ctx, merge := m.mo.merge, token := x.vecRaw m.ctx tk (m0 + r)
        gate := if m.mo.gateEn then x.vecRaw m.ctx gt (m0 + r) else 0x3F800000
        slab := m.mo.slab + n0 / 128, anchor := a.anchor
        v := FMap.setRange (fun _ => 0) [] 0 128 fun c =>
          if off ≤ c ∧ g.own (r * 128 + (c - off)) then a.cell (r * 128 + (c - off)) else 0
        flag := FMap.setRange (fun _ => 0) [] 0 128 fun c =>
          if off ≤ c ∧ g.own (r * 128 + (c - off)) then a.sp (r * 128 + (c - off)) else 0 }, none)

/-- What FINISH does with a tile in an accumulator slot: records, or the epilogue and its stores (R220, R226, R231,
R271, R592). -/
def Mm.finish (m : Mm) (i : MmInst) (g : Geo) (o : OutMap) (m0 n0 slot : Nat) (a : AccSlot) (t : MmSt) : MmSt :=
  let x := t.s.eng m.e
  if m.ep.mortar then
    let p := m.records x g m0 n0 i.m slot a
    let x1 := { x.setAcc slot (if p.1.isEmpty then AccSlot.reset else { a with st := .drain }) with recs := x.recs ++ p.1 }
    { t with s := t.s.setEng m.e x1, err := p.2 }
  else
    let st := m.regs m.ep.scaleT
    let bt := m.regs m.ep.biasT
    let rs := st.vecOut (stageReads m.ep.scale g)
    let rb := bt.vecOut (stageReads m.ep.bias g)
    match rs, rb with
    | some b, _ => { t with s := t.s.setEng m.e (x.setAcc slot { a with st := .drain }), err := some (regionInfo st b) }
    | none, some b =>
      { t with s := t.s.setEng m.e (x.setAcc slot { a with st := .drain }), err := some (regionInfo bt b) }
    | none, none =>
      let val := fun k => x.stages m.ctx m.ep st bt (g.row k) (g.col k) (a.value k)
      let q := fun k => (m.draws i).q 1 0 (g.row k) (g.col k)
      let enc := convCell m.ep.conv o.down g.own val q
      let x1 := x.setAcc slot AccSlot.reset
      let w := if m.ep.topkOnly then (x1, none) else o.write m.ctx m.ep.conv g.own enc x1
      let cv := if m.ep.topk = 0 then t.p.conv
        else ((List.range 16384).filter g.own).foldl (fun acc k =>
          FMap.set (fun _ => 0) acc (g.row k * 65536 + g.col k) (packCell (enc k))) t.p.conv
      { t with s := t.s.setEng m.e w.1, p := { t.p with conv := cv }, err := w.2 }

/-- HOLD keeps a finished tile in its slot; FINISH ends it (R220). -/
def Mm.holdOrFinish (m : Mm) (i : MmInst) (g : Geo) (o : OutMap) (m0 n0 slot : Nat) (a : AccSlot) (t : MmSt) : MmSt :=
  if m.ec.hold then { t with s := t.s.setEng m.e ((t.s.eng m.e).setAcc slot { a with st := .held }) }
  else m.finish i g o m0 n0 slot a t

/-- A tile in a slot of the command begins or goes on: not beyond the tiles that R221 allows, not past a break point, and not in a
slot whose last tile the floor stage has not yet taken (R238, R271). -/
def Mm.enter (m : Mm) (i : MmInst) (m0 n0 : Nat) (f : Nat → MmSt → MmSt) (t : MmSt) : MmSt :=
  t.steps 1 fun t =>
    let n := m.slotFor t.p.tiles
    let fresh := decide (t.p.pos = 0)
    if fresh && m.tooMany t.p.tiles then { t with err := some ((FaultInfo.mk0 0x01).atTile i m0 n0) }
    else if t.fuel = some 0 then { t with halt := true }
    else if fresh && ((t.s.eng m.e).accSlot n).st == .drain then { t with halt := true, p := { t.p with wait := true } }
    else f n t

/-- What a slot holds while a tile is in progress in it, and after a fault of its walk. -/
def Mm.showSlot (m : Mm) (n : Nat) (t : MmSt) : MmSt :=
  if t.p.pos = 0 && t.err.isNone then t
  else
    let x := (t.s.eng m.e).setAcc n t.p.main.slot
    { t with s := t.s.setEng m.e (if m.mc.verify then x.setAcc ((m.ec.slot + 2) % 4) t.p.shad.slot else x) }

/-- One output tile of A × B: walk, counters, slot, and FINISH or HOLD (R193, R220, R238). -/
def Mm.tile (m : Mm) (i : MmInst) (g : Geo) (o : OutMap) (m0 n0 : Nat) : MmSt → MmSt :=
  m.enter i m0 n0 fun n t =>
    let x := t.s.eng m.e
    let t1 := m.walkTile (m.walkIn x i g) i m0 n0 (m.beginSlot (x.accSlot n)) (AccSlot.start m.ctx) t fun a b t1 =>
      let sums := if m.mc.verify then
          { t1.p with kept := sumRows t1.p.kept g a.slot, skip := sumRows t1.p.skip g b.slot } else t1.p
      m.holdOrFinish i g o m0 n0 n a.slot { t1 with p := { sums with tiles := sums.tiles + 1 } }
    if t1.halt then m.showSlot n t1 else t1

/-! ### Ends of a course (R233, R265) -/

/-- The top-k outputs of the rows of a course (R233, R425). -/
def Mm.topkRows (m : Mm) (i : MmInst) (m0 n0 : Nat) (rows : List Nat) (t : MmSt) : MmSt :=
  rows.foldl (fun acc row =>
    if acc.err.isSome then acc
    else
      let cand := (List.range m.n).map fun c => (c, FMap.get (fun _ => 0) acc.p.conv (row * 65536 + c))
      let d := if m.ep.conv.mx then acc.s.draw else (0, acc.s)
      let w := (d.2.eng m.e).writeTopK m.ctx m.ep.conv m.ep.topk (m.regs m.ep.tvT) (m.regs m.ep.tiT) row cand d.1
      { acc with s := d.2.setEng m.e w.1, err := w.2.map fun f => f.atTile i m0 n0 }) t

/-- The verification record of one row with its counters (R265). -/
def Mm.verifyRow (m : Mm) (i : MmInst) (m0 n0 row : Nat) (t : MmSt) : MmSt :=
  if t.err.isSome then t
  else
    let kn := rne32Enc (FMap.get (fun _ => Num.fin 0) t.p.kept row)
    let sn := rne32Enc (FMap.get (fun _ => Num.fin 0) t.p.skip row)
    let v := m.regs m.mc.ver
    let w := EngSt.storeAll (fun h y => y.storeBits m.ctx v true ((v.lo + 8 * row + 4 * h) * 8) 32
      (if h = 0 then kn else sn)) [0, 1] (t.s.eng m.e)
    let s1 := t.s.setEng m.e w.1
    match w.2 with
    | some f => { t with s := s1, err := some (f.atTile i m0 n0) }
    | none =>
      let kv := elemNum 8 none kn
      let sv := elemNum 8 none sn
      let th := elemNum 8 none (s1.fget (F.PRED_THRESH.THRESH m.r))
      let s2 := s1.count (F.PRED_ROWS.COUNT m.r (m.e % 5)) 1
      { t with s := if sv.gt (th.mul (kv.add sv)) then s2.count (F.PRED_MISS.COUNT m.r (m.e % 5)) 1 else s2 }

/-- What follows the last tile of a course. -/
def Mm.courseEnd (m : Mm) (i : MmInst) (m0 n0 : Nat) (t : MmSt) : MmSt :=
  let rows := ((List.range (shapeMN m.ec.shape).1).map (m0 + ·)).filter fun r => decide (r < i.m)
  let t1 := if m.mc.verify then rows.foldl (fun acc r => m.verifyRow i m0 n0 r acc) t else t
  let t2 := if m.ep.topk != 0 && !m.ec.hold then m.topkRows i m0 n0 rows t1 else t1
  { t2 with p := { t2.p with conv := [], kept := [], skip := [], xs := [], ys := [], rowed := false } }

/-! ### Lintel courses (R235) -/

/-- Where element (r, c) of the intermediate lies in its region, in elements: R158 with big tiles of mt rows (assumption
log 33). -/
def interIx (mt r c : Nat) : Nat := (c / 128 * (mt / 8) + (r / 32 * 4 + c % 128 / 32)) * 1024 + (r % 32 * 32 + c % 32)

/-- Byte of the scale of the run that holds element (r, c) of the intermediate, from SCALE_BASE. -/
def interScale (mt r c : Nat) : Nat := (c / 128 * (mt / 8) + (r / 32 * 4 + c % 128 / 32)) * 32 + r % 32

/-- One tile of X = A × B1 in FP32 encodings, with the first product's conversion (R235): ROUND 0, and SAT 0, which no rule
states (assumption log 115), so that an overflow becomes an infinity. Keys are row × 2^16 + column, rows counted within the
course. -/
def Mm.firstTile (m : Mm) (i : MmInst) (m0 n1 j : Nat) (t : MmSt) : MmSt :=
  t.steps 1 fun t =>
    if t.fuel = some 0 then { t with halt := true }
    else
      let sh := shapeMN m.ec.shape
      let g := Geo.tile m0 (j * sh.2) sh.1 sh.2 i.m n1
      m.walkTile (m.walkIn (t.s.eng m.e) i g) i m0 (j * sh.2) (AccSlot.start m.ctx) (AccSlot.start m.ctx) t fun a b t1 =>
        let xs := ((List.range 16384).filter g.own).foldl (fun acc k =>
          FMap.set (fun _ => 0) acc (k / 128 * 65536 + g.col k) (rne32Enc (a.slot.value k))) t1.p.xs
        let p := if m.mc.verify then
            { t1.p with kept := sumRows t1.p.kept g a.slot, skip := sumRows t1.p.skip g b.slot } else t1.p
        { t1 with p := { p with xs := xs } }

/-- The bytes of γ and β that a course reads lie in their regions. -/
def Mm.lintelReads (m : Mm) (n1 : Nat) : Option FaultInfo :=
  let f := m.lt
  let ga := m.regs f.gammaT
  let be := m.regs f.betaT
  match (if f.func = 4 ∨ f.func = 5 then ga.vecOut (List.range n1) else none),
        (if f.func = 5 then be.vecOut (List.range n1) else none) with
  | some a, _ => some (regionInfo ga a)
  | none, some a => some (regionInfo be a)
  | none, none => none

/-- Y of a course under CONV1: the encoding and scale of each element (R235). -/
def Mm.rowsY (m : Mm) (i : MmInst) (m0 n1 d : Nat) (x : EngSt) (xs : FMap Nat) : FMap Nat :=
  let f := m.lt
  let mt := (shapeMN m.ec.shape).1
  let rows := (List.range mt).filter fun r => decide (m0 + r < i.m)
  rows.foldl (fun acc r =>
    let y := lintelRow f (elemNum 6 none m.ep.alpha) (x.vecNum m.ctx (m.regs f.gammaT)) (x.vecNum m.ctx (m.regs f.betaT)) d
      ((List.range n1).map fun c => elemNum 8 none (FMap.get (fun _ => 0) xs (r * 65536 + c)))
    let q := fun c => if f.conv1.rnd then some ((m.draws i).q 2 0 (m0 + r) c) else none
    (List.range n1).foldl (fun acc2 c =>
      let e := if f.conv1.mx then
          let run := (List.range 32).filterMap fun j => let k := c / 32 * 32 + j; if k < n1 then some k else none
          let p := convertRun f.conv1.target (run.map fun k => y.getD k .nan) (run.map q) f.conv1.sat
          packCell (p.1.getD (c % 32) 0, p.2)
        else encodeNum f.conv1.target (y.getD c .nan) (q c) f.conv1.sat
      FMap.set (fun _ => 0) acc2 (r * 65536 + c) e) acc) []

/-- Writes X, then Y with its scale bytes, into the region of INTER_T (R235). -/
def Mm.writeInter (m : Mm) (n1 rows : Nat) (x : EngSt) (xs ys : FMap Nat) : EngSt × Option FaultInfo :=
  let f := m.lt
  let t := m.regs f.interT
  let mt := (shapeMN m.ec.shape).1
  let keys := (List.range rows).flatMap fun r => (List.range n1).map fun c => r * 65536 + c
  let b := elemBits f.conv1.target
  let put := fun (w : Nat) (v : FMap Nat) (k : Nat) (y : EngSt) => y.storeBits m.ctx t true
    (t.lo * 8 + interIx mt (k / 65536) (k % 65536) * w) w (FMap.get (fun _ => 0) v k % 2 ^ 32)
  match EngSt.storeAll (put 32 xs) keys x with
  | (y, none) =>
    match EngSt.storeAll (put b ys) keys y with
    | (z, none) =>
      if f.conv1.mx then
        EngSt.storeAll (fun k u => u.storeBits m.ctx t true ((t.scale * 256 + interScale mt (k / 65536) (k % 65536)) * 8) 8
          (FMap.get (fun _ => 0) ys k / 2 ^ 32)) (keys.filter fun k => k % 32 == 0) z
      else (z, none)
    | r => r
  | r => r

/-- The intermediate as the second product's A operand (R234): a dense matrix of the command's rows in a buffer of its
own, with its scale bytes apart from its data. -/
def interOpnd (m : Mm) (mrows n1 : Nat) : Opnd :=
  let f := m.lt
  { t := { TReg.of 0 with elem := f.conv1.target, mx := f.conv1.mx, rows := mrows, cols := n1, size := 2 ^ 40,
                          scale := 2 ^ 39 }
    role := 0, hdr := Ash.of 0 }

/-- That buffer, holding the rows of the course at m0. -/
def interBuf (m : Mm) (m0 rows mrows n1 : Nat) (ys : FMap Nat) : EngSt :=
  let f := m.lt
  let b := elemBits f.conv1.target
  let keys := (List.range rows).flatMap fun r => (List.range n1).map fun c => r * 65536 + c
  keys.foldl (fun x k =>
    let v := FMap.get (fun _ => 0) ys k
    let row := m0 + k / 65536
    let x1 := x.putBits m.ctx (blkBit false mrows n1 b row (k % 65536)) b v
    if f.conv1.mx then x1.putBits m.ctx ((2 ^ 39 * 256 + blkScale false mrows n1 row (k % 65536)) * 8) 8 (v / 2 ^ 32)
    else x1) EngSt.reset

/-- The walk of a tile of Y × B2 (R235). -/
def Mm.walkTwo (m : Mm) (x ib : EngSt) (i : MmInst) (n1 : Nat) (g : Geo) : WalkIn :=
  { xa := ib, xb := x, ctx := m.ctx, a := interOpnd m i.m n1, b := x.opnd m.ctx (m.regs m.lt.b2T) 1, k := n1, geo := g
    draw := m.draws i, selT := none, selK := false, span := 1, twin := false }

/-- One tile of Y × B2 with HOLD or FINISH. -/
def Mm.secondTile (m : Mm) (i : MmInst) (ib : EngSt) (n1 m0 n0 : Nat) : MmSt → MmSt :=
  m.enter i m0 n0 fun n t =>
    let sh := shapeMN m.ec.shape
    let g := Geo.tile m0 n0 sh.1 sh.2 i.m m.n
    let x := t.s.eng m.e
    let t1 := m.walkTile (m.walkTwo x ib i n1 g) i m0 n0 (m.beginSlot (x.accSlot n)) AccSlot.reset t fun a _ t1 =>
      m.holdOrFinish i g (OutMap.dense (m.outT i) g (elemBits m.ep.conv.target)) m0 n0 n a.slot
        { t1 with p := { t1.p with tiles := t1.p.tiles + 1 } }
    if t1.halt then m.showSlot n t1 else t1

/-- The row function of a course (R235): Y from X, into INTER_T. -/
def Mm.rowStage (m : Mm) (i : MmInst) (m0 n1 : Nat) (t : MmSt) : MmSt :=
  if t.stopped || t.p.rowed then t
  else
    match m.lintelReads n1 with
    | some f => { t with err := some (f.atTile i m0 0) }
    | none =>
      let d := t.s.draw
      let ys := m.rowsY i m0 n1 d.1 (d.2.eng m.e) t.p.xs
      let w := m.writeInter n1 (min (shapeMN m.ec.shape).1 (i.m - m0)) (d.2.eng m.e) t.p.xs ys
      { t with s := d.2.setEng m.e w.1, p := { t.p with ys := ys, rowed := true }, err := w.2.map fun f => f.atTile i m0 0 }

/-- One course of a lintel command (R235): the first product, the row function, and the tiles of Y × B2. -/
def Mm.lintelCourse (m : Mm) (i : MmInst) (m0 : Nat) (t : MmSt) : MmSt :=
  let sh := shapeMN m.ec.shape
  let n1 := ((t.s.eng m.e).opnd m.ctx (m.bT i) m.roleB).laneExt
  let one := ceilDiv n1 sh.2
  let two := ceilDiv m.n sh.2
  t.steps (one + two) fun t =>
    let t1 := m.rowStage i m0 n1 ((List.range one).foldl (fun acc j => m.firstTile i m0 n1 j acc) t)
    let ib := interBuf m m0 (min sh.1 (i.m - m0)) i.m n1 t1.p.ys
    let t2 := (List.range two).foldl (fun acc j => m.secondTile i ib n1 m0 (j * sh.2) acc) t1
    if t2.stopped then t2 else m.courseEnd i m0 0 t2

/-! ### Dense courses and packs -/

/-- One course of a dense product: its tiles in ascending column origin, then its end (R193). -/
def Mm.course (m : Mm) (i : MmInst) (m0 : Nat) (t : MmSt) : MmSt :=
  let sh := shapeMN m.ec.shape
  let k := ceilDiv m.n sh.2
  t.steps k fun t =>
    let t1 := (List.range k).foldl (fun acc j =>
      let g := Geo.tile m0 (j * sh.2) sh.1 sh.2 i.m m.n
      m.tile i g (OutMap.dense (m.outT i) g (elemBits m.ep.conv.target)) m0 (j * sh.2) acc) t
    if t1.stopped then t1 else m.courseEnd i m0 ((k - 1) * sh.2) t1

/-- The present blocks of a window of the mask in slot order (R167, R257). -/
def Mm.window (m : Mm) (x : EngSt) (band wgrp : Nat) : List PackBlk :=
  let o := x.opnd m.ctx (m.regs m.mc.mask) 1
  (List.range 4).flatMap fun dg => (List.range 2).flatMap fun q => (List.range 4).flatMap fun r =>
    (List.range 4).filterMap fun j =>
      let p : CodePos := { band := band, grp := 4 * wgrp + dg, row := r, bit := 4 * q + j }
      if x.stored m.ctx o p && !o.beyondK p && !o.beyondBand p then
        some { rb := 8 * p.grp + p.bit, cb := band * 4 + r, slot := x.slotOf m.ctx o p }
      else none

/-- The code words of the mask that a window reads: an access outside the region, then detail 0x3, and detail 0x2 where the
window ends its band (R251). -/
def Mm.windowFault (m : Mm) (x : EngSt) (band wgrp : Nat) : Option FaultInfo :=
  let o := x.opnd m.ctx (m.regs m.mc.mask) 1
  let gs := (List.range 4).map (4 * wgrp + ·)
  match o.t.out (gs.flatMap fun g => o.wordSpans [band * 4] g) with
  | some a => some (regionInfo o.t a)
  | none =>
    if gs.any fun g => x.bad3 m.ctx o [band * 4] g then some (metaInfo o.t 3)
    else if gs.any fun g => (o.endedBands [band * 4] g).any (x.bad2 m.ctx o) then some (metaInfo o.t 2)
    else none

/-- Cuts a window's blocks into packs of sixteen: one pack where there is none (R258). -/
def sixteens (l : List PackBlk) : List (List PackBlk) :=
  (List.range (max 1 (ceilDiv l.length 16))).map fun i => (l.drop (16 * i)).take 16

/-- One window of PASS PACKED: its packs in slot order (R257, R258). The origin of a pack is that of its window (assumption log
91). -/
def Mm.packWindow (m : Mm) (i : MmInst) (wgrp band : Nat) (t : MmSt) : MmSt :=
  let x := t.s.eng m.e
  let packs := sixteens (m.window x band wgrp)
  t.steps packs.length fun t =>
    match m.windowFault x band wgrp with
    | some f => { t with err := some (f.atTile i (wgrp * 1024) (band * 128)) }
    | none =>
      let mk := (x.opnd m.ctx (m.regs m.mc.mask) 1).hdr
      let ot := m.outT i
      packs.foldl (fun acc l =>
        let g := Geo.pack l (min i.m mk.kExt) (min m.n mk.bandExt)
        let o := OutMap.pack ot (Ash.of ((acc.s.eng m.e).seenLe m.ctx ot.lo 64)) l (elemBits m.ep.conv.target)
        m.tile i g o (wgrp * 1024) (band * 128) acc) t

/-! ### Instances and the command -/

/-- The metadata errors of the fill of an instance, in the order of R251. -/
def Mm.fillFault (m : Mm) (x : EngSt) (i : MmInst) : Option FaultInfo :=
  let bad := fun (t : TReg) => t.ashlar && (Ash.of (x.seenLe m.ctx t.lo 64)).bad1
  let a := m.aT i
  let b := m.bT i
  let k := m.regs m.mc.mask
  let b2 := m.regs m.lt.b2T
  let hb := Ash.of (x.seenLe m.ctx b.lo 64)
  if bad a then some (metaInfo a 1)
  else if bad b then some (metaInfo b 1)
  else if m.mc.pass = 1 ∧ (512 < hb.numBands ∨ hb.mx) then some (metaInfo b 4)
  else if m.mc.pass = 2 ∧ bad k then some (metaInfo k 1)
  else if m.ec.lintel ∧ bad b2 then some (metaInfo b2 1)
  else none

/-- One instance of a MATMUL (R193, R313): nothing where an extent is zero (R321). The windows of PASS PACKED come in ascending
row origin, then column origin. -/
def Mm.oneInst (m : Mm) (i : MmInst) (t : MmSt) : MmSt :=
  if t.stopped || i.m == 0 || m.n == 0 then t
  else
    let x := t.s.eng m.e
    match m.fillFault x i with
    | some f => { t with err := some (f.atTile i 0 0) }
    | none =>
      let sh := shapeMN m.ec.shape
      if m.mc.pass = 2 then
        let h := (x.opnd m.ctx (m.regs m.mc.mask) 1).hdr
        (List.range (ceilDiv h.numGroups 4)).foldl (fun acc w =>
          (List.range h.numBands).foldl (fun acc2 b => m.packWindow i w b acc2) acc) t
      else
        (List.range (ceilDiv i.m sh.1)).foldl (fun acc j =>
          if m.ec.lintel then m.lintelCourse i (j * sh.1) acc else m.course i (j * sh.1) acc) t

/-- Runs the instances in order, until the work stops; the first illegal one ends the command with an undefined result, `false`
(R7, R314). -/
def Mm.runInsts (m : Mm) : List MmInst → MmSt → MmSt × Bool
  | [], t => (t, true)
  | i :: l, t =>
    let x := t.s.eng m.e
    if t.stopped then (t, true)
    else if t.p.judged || m.instOk x i then
      let t1 := m.oneInst i (if t.p.judged then t else { t with p := { t.p with judged := true, bad := t.p.bad || m.badAsh x i } })
      if t1.stopped then (t1, true)
      else m.runInsts l { t1 with pass := 0, p := { t1.p with inst := t1.p.inst + 1, judged := false, done := 0 } }
    else (t, false)

/-- The merge that a TO_MORTAR command names is open for its context (R270). -/
def State.mergeMine (s : State) (m : Mm) : Bool :=
  match s.mo.merges.get (fun _ => none) m.mo.merge with
  | some g => g.ctx == m.ctx
  | none => false

/-- A MATMUL's progress is over. -/
def State.dropProg (s : State) (m : Mm) : State := s.updCmd m.r m.c.seq fun c => { c with prog := none }

/-- An illegal MATMUL: its own output regions become free, and it faults or completes (R7, R10). -/
def State.mmIllegal (s : State) (m : Mm) (l : List MmInst) : State :=
  let s0 := s.dropProg m
  if m.c.isIssued then s0.workIssued m.r m.c.seq
  else
    let s1 := s0.mmSpoil m l
    (s1.draw.2).workUndef m.r m.c.seq s1.draw.1

/-- The end of a part of a MATMUL's work: a fault, an undefined result, a break, the wait for the floor stage (R271), or the wait
for completion. The outputs of a command that faults with ASHLAR_META are unspecified (R7, R251). -/
def State.mmEnd (t : MmSt) (legal : Bool) (m : Mm) : State :=
  let l := t.p.insts
  match t.err with
  | some f =>
    let s1 := t.s.dropProg m
    if f.cause = 0x02 then (s1.mmSpoil m l).workFault m.r m.c.seq f
    else if t.p.bad then t.s.mmIllegal m l
    else (s1.mmRelease m).workFault m.r m.c.seq f
  | none =>
    if !legal || (t.p.bad && !t.halt) then t.s.mmIllegal m l
    else if t.halt || (t.s.eng m.e).recs.any (fun q => m.ec.slots.contains q.slot) then
      t.s.updCmd m.r m.c.seq fun c => { c with
        started := true
        prog := some { t.p with wait := t.p.wait || !t.halt, ended := !t.halt } }
    else (t.s.dropProg m).workDone m.r m.c.seq

/-- Goes on with a MATMUL for `n` K-steps, or as far as it can go. -/
def State.goMatmul (s : State) (m : Mm) (p : MmProg) (n : Option Nat) : State :=
  let q := m.runInsts (p.insts.drop p.inst)
    { s := s, p := { p with wait := false }, pass := p.done, fuel := n, halt := false, err := none }
  State.mmEnd q.1 q.2 m

/-- A MATMUL begins: its pointer list is read and the command judged (R6, R312, R321). A CONT or HOLD command whose descriptor's M
or N is zero covers no tile whatever its runtime extents are (R221). -/
def State.startMatmul (s : State) (m : Mm) (n : Option Nat) : State :=
  let p := s.mmInsts m
  let l := p.1.1
  let empty := m.n == 0 || (l.all fun i => i.m == 0) ||
    ((m.ec.cont || m.ec.hold) && (dM m.c.desc == 0 || dN m.c.desc == 0))
  if p.1.2 then p.2.workFault m.r m.c.seq (FaultInfo.mk0 0x0C)
  else if !m.fixedOk || (m.ep.mortar && !p.2.mergeMine m) || (empty && !(l.all m.basesOk)) then p.2.mmIllegal m l
  else if empty then (p.2.updCmd m.r m.c.seq fun c => { c with noWrite := true }).workDone m.r m.c.seq
  else p.2.goMatmul m (MmProg.start l) n

/-- The engine clocks run and no power transition stops the tasks (R559). -/
def State.enginesOn (s : State) : Bool := s.running && s.fget F.PWR_STATUS.STATE == 0 && s.pwr.trans.isNone

/-- A dispatched command of opcode `op` whose work has not begun and whose context is active on its engine (R418). -/
def State.startable (s : State) (c : CmdRef) (op : Nat) : Option (RoomCmd × Nat) :=
  match s.cmd c with
  | some d =>
    match d.eng with
    | some e => if dOpcode d.desc = op ∧ d.st = .running ∧ !d.started ∧ d.fault.isNone ∧ (s.eng e).active = some d.ctx ∧
          s.enginesOn
        then some (d, e) else none
    | none => none
  | none => none

/-- No earlier MATMUL of the same context waits for the array of engine `e` (R418). -/
def State.arrayFree (s : State) (r e : Nat) (d : RoomCmd) : Bool :=
  (s.room r).cmds.all fun k => !(decide (k.seq < d.seq) && dOpcode k.desc == 2 && k.eng == some e && k.st == .running &&
    k.fault.isNone && k.ctx == d.ctx)

/-- A MATMUL that the array may serve now (R418): dispatched, in the active context, not at its end, and no switch waits for its
break point (R421). -/
def State.matmulGoes (s : State) (c : CmdRef) : Option (RoomCmd × Nat) :=
  match s.cmd c with
  | some d =>
    match d.eng with
    | some e => if dOpcode d.desc = 2 ∧ d.st = .running ∧ d.fault.isNone ∧ (d.started = false ∨ d.prog.isSome) ∧
          (s.eng e).active = some d.ctx ∧ (s.eng e).wantSw = false ∧ s.enginesOn
        then some (d, e) else none
    | none => none
  | none => none

/-- MATMUL (R193, R207, R220, R226, R242, R305, R313, R321, R421): the array works on the command's instances, as far as it can go
or for so many K-steps. A later MATMUL goes on where this one stopped. -/
def execMatmul (c : ArrayRun) (s : State) : Host.Outcome State Fault Refusal :=
  .next (match s.matmulGoes c.ref with
    | some (d, e) =>
      if s.arrayFree c.ref.room.val e d then
        let m := s.mmOf c.ref.room.val d e
        match d.prog with
        | some p => if p.ended then s else s.goMatmul m p c.upto
        | none => s.startMatmul m c.upto
      else s
    | none => s)

end Sys2Proof.Machine
end

