-- ==== Sys2Proof/Machine/Commands.lean ====
section
/-! DEFINITION. Dispatch, completion and faults of commands in a room: dependencies (R297, R298), the scoreboard (R315 to
R318, R357), address blocks and runtime shapes (R311, R320), breaks (R330), task slots (R37), SYNC (R295), latch writes
(R301) and the firmware port (R328 to R333). -/

namespace Sys2Proof.Machine

/-! ### Dependencies (R296 to R298) -/

/-- No earlier command of the same context and stream with the tag is still in a room, and none of them has faulted
(R297, R298, R327). -/
def State.tagFree (s : State) (c : RoomCmd) (tag : Nat) : Bool :=
  (s.rooms.all fun x => x.2.cmds.all fun d => !(d.ctx == c.ctx && d.isTenant == c.isTenant && dTag d.desc == tag &&
    decide (d.ord < c.ord))) &&
  ((s.ctx c.ctx).deadTags.all fun t => !(t.1 == tag && decide (t.2.1 < c.ord) && decide (t.2.2 < 100) == c.isTenant))

/-- A latch that the context may name; the firmware context names every latch (R300, R329). -/
def State.latchIn (s : State) (ctx l : Nat) : Bool :=
  ctx == fwCtx || (decide ((s.ctx ctx).latchFirst ≤ l) && decide (l ≤ (s.ctx ctx).latchLast))

/-- Dependency i of a command is satisfied. A latch outside the context's range is not awaited: it faults the command at
dispatch (R300). -/
def State.depDone (s : State) (c : RoomCmd) (i : Nat) : Bool :=
  let e := dDep c.desc i
  match bitsAt e 0 2 with
  | 0 => true
  | 1 => s.tagFree c (bitsAt e 32 32)
  | _ => bitAt c.depSat.toNat i || !s.latchIn c.ctx (bitsAt e 2 14)

/-- Every dependency is satisfied (R298). -/
def State.depsDone (s : State) (c : RoomCmd) : Bool := (List.range 4).all (s.depDone c)

/-- A dependency or a signal names a latch outside the context's range (R300). -/
def State.latchBad (s : State) (c : RoomCmd) : Bool :=
  ((List.range 4).any fun i => let e := dDep c.desc i; decide (2 ≤ bitsAt e 0 2) && !s.latchIn c.ctx (bitsAt e 2 14)) ||
  ((List.range 2).any fun i => let e := dSig c.desc i; bitsAt e 0 2 != 0 && !s.latchIn c.ctx (bitsAt e 2 14))

/-! ### Scoreboard regions (R316) -/

/-- The engine that a command runs on: the bound engine of its call, or the one PLACE names (R63, R356). -/
def State.engineOf (s : State) (r : Nat) (c : RoomCmd) : Option Nat :=
  match c.src with
  | .issued _ _ => c.eng
  | _ => s.physEng r (plEng (dPlace c.desc))

/-- The affine block of a command, when it names one (R311). -/
def State.affOf (s : State) (r : Nat) (c : RoomCmd) : SRead × State :=
  if dAgen c.desc = 2 then s.readVa r c.ctx (dAgenWord c.desc) 64 else (SRead.empty, s)

/-- A tile register as the command's slot will hold it: the slot's own for an issued command, zero otherwise, then what
LOAD_EN loads (R200, R306, R356). -/
def RoomCmd.regAt (c : RoomCmd) (t : TaskSlot) (i : Nat) : Nat :=
  let old := match c.src with
    | .issued _ _ => (t.tile i).toNat
    | _ => 0
  if dOpcode c.desc = 2 then (loadRegs c.desc).foldl (fun acc p => if p.1 = i then p.2 else acc) old else old

/-- A region of `size` units from the hull [lo, hi] of a base. -/
def hullRegion (space eng : Nat) (h : Int × Int) (size : Nat) (wr : Bool) : Region :=
  { space := space, eng := eng, lo := h.1.toNat, hi := (h.2 + (size : Int)).toNat, wr := wr }

/-- The hull of a pointer list's 32-bit field at byte `off` of each entry (R312). -/
def plistHull (n rep off : Nat) : Int × Int :=
  let v := fun i => ((bitsAt n (128 * i + 8 * off) 32 : Nat) : Int)
  ((List.range rep).foldl (fun a i => min a (v i)) (v 0), (List.range rep).foldl (fun a i => max a (v i)) (v 0))

/-- The hull of address register r of a command: over its pointer list, or over AGEN's instances. -/
def cmdHull (c : RoomCmd) (aff : Nat) (plist : Nat) (off : Nat) (base : Nat) (r : Nat) : Int × Int :=
  if dPlist c.desc then plistHull plist (dRepeat c.desc) off
  else agenHull (dAgen c.desc) (dAgenWord c.desc) aff (dRepeat c.desc) (base : Int) r

/-- The tile registers that a MATMUL's control words name as sources, and those it names as destinations (R316). -/
def mmNamed (d : BitVec 2048) : List Nat × List Nat :=
  let ec := dECtl d
  let mc := dMCtl d
  let ep := dEpi d
  let lt := Lintel.of (dExt d)
  let mo := MortCtl.of (dExt d)
  let opt := fun (b : Bool) (n : Nat) => if b then [n] else []
  (opt (ep.scale != 0) ep.scaleT ++ opt (ep.bias != 0) ep.biasT ++ opt mc.selEn mc.sel ++ opt (mc.pass == 2) mc.mask ++
    opt (ec.lintel && (lt.func == 4 || lt.func == 5)) lt.gammaT ++ opt (ec.lintel && lt.func == 5) lt.betaT ++
    opt ec.lintel lt.b2T ++ opt ep.mortar mo.tokT ++ opt (ep.mortar && mo.gateEn) mo.gateT,
   opt (ep.topk != 0) ep.tvT ++ opt (ep.topk != 0) ep.tiT ++ opt ec.lintel lt.interT ++ opt mc.verify mc.ver)

/-- Regions of a MATMUL on engine e (R316, R357). -/
def mmRegions (c : RoomCmd) (e : Nat) (t : TaskSlot) (aff plist : Nat) : List Region :=
  let d := c.desc
  let tr := fun i => TReg.of (c.regAt t i)
  let part := fun (wr : Bool) (i : Nat) => hullRegion 0 e ((tr i).base, (tr i).base) (tr i).size wr
  let nm := mmNamed d
  let issued := match c.src with
    | .issued _ _ => true
    | _ => false
  let treg := fun (wr : Bool) (i : Nat) => { space := 3, eng := e, lo := c.slot * 16 + i, hi := c.slot * 16 + i + 1, wr := wr : Region }
  [hullRegion 0 e (cmdHull c aff plist 0 (tr (dAT d)).base 0) (tr (dAT d)).size false,
   hullRegion 0 e (cmdHull c aff plist 4 (tr (dBT d)).base 1) (tr (dBT d)).size false,
   hullRegion 0 e (cmdHull c aff plist 8 (tr (dOutT d)).base 2) (tr (dOutT d)).size true] ++
  nm.1.map (part false) ++ nm.2.map (part true) ++
  (mmSlots d).map (fun n => { space := 2, eng := e, lo := n, hi := n + 1, wr := true : Region }) ++
  (if issued then ([dAT d, dBT d, dOutT d] ++ nm.1 ++ nm.2).map (treg false) ++ (loadRegs d).map (fun p => treg true p.1)
   else [])

/-- Regions of a data move (R316): the room store is one for the whole room. -/
def moveRegions (s : State) (r : Nat) (c : RoomCmd) (e aff plist : Nat) : List Region :=
  let d := c.desc
  let sp := fun (n : Nat) => if n = 1 then (1, 0) else (0, e)
  match dOpcode d with
  | 3 => let p := sp (dSpace d); [hullRegion p.1 p.2 (cmdHull c aff plist 8 (dBase d) 0) (dSize d) true]
  | 4 => let p := sp (dSpace d); [hullRegion p.1 p.2 (cmdHull c aff plist 8 (dBase d) 0) (dSize d) false]
  | 5 => let p := sp (dGSpace d); [hullRegion p.1 p.2 (cmdHull c aff 0 0 (dGBase d) 0) (dGSize d) true]
  | 6 => let p := sp (dGSpace d); [hullRegion p.1 p.2 (cmdHull c aff 0 0 (dGBase d) 0) (dGSize d) false]
  | 7 =>
    let src := TReg.of (dSrc d)
    hullRegion 0 e (cmdHull c aff 0 0 src.base 0) src.size false ::
      (match s.physRoom (plFloor (dDst d)) (plRoom (dDst d)) with
       | some q =>
         if q = r then
           match s.physEng r (plEng (dDst d)) with
           | some e2 => [hullRegion 0 e2 (cmdHull c aff 0 0 (dDstBase d) 1) (dDstSize d) true]
           | none => []
         else []
       | none => [])
  | _ => []

/-- The regions of a command: those of its dispatch, or those it would have now. -/
def State.cmdRegions (s : State) (r : Nat) (c : RoomCmd) : List Region :=
  if c.st = .running ∨ c.st = .done then c.regions
  else
    match s.engineOf r c with
    | none => []
    | some e =>
      let aff := leOfList (s.affOf r c).1.bytes
      let pl := if dPlist c.desc then leOfList (s.readVa r c.ctx (dAgenWord c.desc) (16 * dRepeat c.desc)).1.bytes else 0
      if dOpcode c.desc = 2 then mmRegions c e ((s.eng e).slot c.slot) aff pl else moveRegions s r c e aff pl

/-- Two regions conflict: they overlap and one of them is written (R317). -/
def Region.clash (a b : Region) : Bool :=
  a.space == b.space && a.eng == b.eng && decide (a.lo < b.hi) && decide (b.lo < a.hi) && (a.wr || b.wr)

/-- A TLOAD in flight on a tile register that the command names (R357). -/
def RoomSt.tloadClash (x : RoomSt) (l : List Region) : Bool :=
  x.tloads.any fun t => l.any fun g => g.space == 3 && g.eng == t.eng && decide (g.lo = t.slot * 16 + t.treg)

/-- No earlier command of the room that has not ended conflicts (R317). -/
def State.boardFree (s : State) (r : Nat) (c : RoomCmd) (l : List Region) : Bool :=
  (s.room r).cmds.all (fun d => !decide (d.seq < c.seq) || !((s.cmdRegions r d).any fun a => l.any (a.clash ·))) &&
    !(s.room r).tloadClash l

/-- The accumulator slots that a MATMUL names are FREE or HELD by its context, and a shadow slot is FREE (R222, R264). -/
def State.slotsFree (s : State) (c : RoomCmd) (e : Nat) : Bool :=
  dOpcode c.desc != 2 ||
  (((dECtl c.desc).slots.all fun n =>
      let a := (s.eng e).accSlot n
      a.st == .free || (a.st == .held && a.owner == c.ctx)) &&
   (!(dMCtl c.desc).verify || ((s.eng e).accSlot (((dECtl c.desc).slot + 2) % 4)).st == .free))

/-! ### What stops all dispatch -/

/-- The package dispatches commands: it runs in ACTIVE with no transition, memory enabled, and no seal fault that stops
dispatch (R131, R442, R559, R561). -/
def State.mayDispatch (s : State) : Bool :=
  s.running && s.fget F.PWR_STATUS.STATE == 0 && s.pwr.trans.isNone && s.flag F.MEM_CTRL.EN &&
    !(s.flag F.SEAL_STATUS.FAULT && s.flag F.SEAL_CTRL.FAULT_ACTION)

/-- Entry `n` of a bank's routine table (R342). -/
def routineEntry (m : FMap Byte) (n : Nat) : Nat := Mem.leNat m (2 * n) 2

/-- A routine-table entry names a routine: VALID with an entry in the code (R342). -/
def entryOk (e : Nat) : Bool := bitAt e 15 && decide (0x800 ≤ bitsAt e 0 13)

/-- The active bank holds a valid routine 0 (R380). -/
def State.hasService (s : State) (r : Nat) : Bool :=
  entryOk (routineEntry ((s.room r).bank (s.fget (F.RS_CTRL.ACTIVE r))) 0)

/-- Room `r` dispatches commands (R72, R380, R566). -/
def State.roomOpen (s : State) (r : Nat) : Bool :=
  s.mayDispatch && !s.roomFenced r && !s.roomFenceReq r && !s.roomOut r && s.hasService r

/-- The firmware stream of a room may dispatch the command: it is not halted, no fault waits, and the port's commands go
in queue order (R328 to R330, R562). -/
def State.fwOpen (s : State) (r : Nat) (c : RoomCmd) : Bool :=
  c.isTenant ||
  (!s.pwr.fwHalt && !s.flag (F.FW_STATUS.FAULTED r) && !s.flag (F.BRK_STATUS.HALTED r) &&
    (c.src != .fw || (s.room r).cmds.all fun d => !(d.src == .fw && decide (d.seq < c.seq) && (d.st == .waiting || d.st == .held))))

/-- A context that has faulted or is stopped dispatches no tenant command (R323, R523). -/
def State.ctxOpen (s : State) (c : RoomCmd) : Bool :=
  !c.isTenant || (!(s.ctx c.ctx).faulted && !(s.ctx c.ctx).stopped)

/-! ### Conditions of single operations -/

/-- A CALL runs in the room (R348). -/
def RoomSt.callRuns (x : RoomSt) : Bool := x.cmds.any fun d => d.calls

/-- The merge object that a MORTAR_OPEN names (R268). -/
def State.openNames (s : State) (r : Nat) (c : RoomCmd) : Nat :=
  leOfList ((s.readVa r c.ctx (dMcb c.desc) 1).1.bytes)

/-- A MORTAR_OPEN's object is free and no other dispatched MORTAR_OPEN is about to open it (R269). -/
def State.openFree (s : State) (r : Nat) (c : RoomCmd) : Bool :=
  let k := s.openNames r c
  (s.mo.merges.get (fun _ => none) k).isNone &&
  s.rooms.all fun x => x.2.cmds.all fun d =>
    !(dOpcode d.desc == 8 && d.st == .running && !d.started && s.openNames x.1 d == k)

/-- The further conditions of dispatch by operation (R269, R270, R348). -/
def State.opOpen (s : State) (r : Nat) (c : RoomCmd) : Bool :=
  match dOpcode c.desc with
  | 2 => !(dEpi c.desc).mortar ||
      (s.mo.merges.get (fun _ => none) (MortCtl.of (dExt c.desc)).merge).isSome
  | 8 => s.openFree r c
  | 9 => !(s.room r).callRuns
  | _ => true

/-- The lowest free task slot of an engine. -/
def EngSt.freeSlotOf (x : EngSt) : Option Nat := (List.range 4).find? fun n => !(x.slot n).used

/-- The task slot a command would take: its bound slot, or a free one. -/
def State.taskSlotFor (s : State) (c : RoomCmd) (e : Nat) : Option Nat :=
  match c.src with
  | .issued _ _ => some c.slot
  | _ => (s.eng e).freeSlotOf

/-! ### Breaks (R330) -/

/-- A break matches the next firmware command of the room. -/
def State.breaksAt (s : State) (r : Nat) (c : RoomCmd) : Bool :=
  let x := s.room r
  let tagHit := dTag c.desc == s.fget (F.BRK_TAG.TAG r)
  match s.fget (F.BRK_CTRL.MODE r) with
  | 1 => !x.brkFired && x.brkSeen + 1 == s.fget (F.BRK_COUNT.COUNT r)
  | 2 => tagHit
  | 3 => !x.brkFired && tagHit && decide (s.fget (F.BRK_COUNT.COUNT r) ≤ x.brkSeen)
  | _ => false

/-- The break: the command is held, HIT and HALTED set, the management core is interrupted. -/
def State.takeBreak (s : State) (r : Nat) (c : RoomCmd) : State :=
  let x := s.room r
  let s1 := (s.setRoom r { x with brkFired := true }).updCmd r c.seq fun d => { d with st := .held }
  ((s1.fset (F.BRK_STATUS.HIT r) 1).fset (F.BRK_STATUS.HALTED r) 1).mgmtIrq r

/-! ### Dispatch (R317, R320, R323, R326, R334) -/

/-- Counts a dispatch (R330, R371). -/
def State.countDispatch (s : State) (r : Nat) (c : RoomCmd) : State :=
  let s1 := if c.isTenant then s
    else
      let x := s.room r
      (s.setRoom r { x with brkSeen := x.brkSeen + 1 }).count (F.BRK_STATUS.DISPATCHED r) 1
  if s1.flag (F.CC_ROLE.UNVERIFIED r) then s1.count (F.LS_UNVER_DISPATCH.COUNT r) 1 else s1

/-- The flue record of a dispatch (R326). -/
def State.flueDispatch (s : State) (r seq : Nat) : State :=
  match (s.room r).find seq with
  | some c => if c.isTenant && dTrace c.desc then s.flueCmd 1 0 c c.physRec else s
  | none => s

/-- Places a command in a task slot (R200, R306, R418): an empty engine takes the command's context as active. -/
def State.placeTask (s : State) (c : RoomCmd) (e n : Nat) : State :=
  let x := s.eng e
  let act := x.active.getD c.ctx
  let old := x.slot n
  let fresh := match c.src with
    | .issued _ _ => old
    | _ => TaskSlot.empty
  let regs := if dOpcode c.desc = 2 then loadRegs c.desc else []
  let t := regs.foldl (fun a p => a.setTile p.1 (BitVec.ofNat 128 p.2)) fresh
  s.setEng e ({ x with active := some act }.setSlot n { t with ctx := c.ctx, cmd := some c.seq, used := true })

/-- The runtime shape of a command, when SHAPE_RT is set on an operation that has one (R320). -/
def State.shapeOf (s : State) (r : Nat) (c : RoomCmd) : (Option (Nat × Nat × Nat) × Bool × Bool) × State :=
  if dShapeRt c.desc ∧ 2 ≤ dOpcode c.desc ∧ dOpcode c.desc ≤ 6 then
    let p := s.readVa r c.ctx (dShapeAddr c.desc) 16
    let n := leOfList p.1.bytes
    ((some (bitsAt n 0 32, bitsAt n 32 32, bitsAt n 64 32), p.1.bad, bitsAt n 96 32 == 0), p.2)
  else ((none, false, true), s)

/-- The physical engine that DST of a HALO names (R63, R64). -/
def State.haloDst (s : State) (d : BitVec 2048) : Option Nat :=
  let b := dDst d
  if plLegal b then (s.physRoom (plFloor b) (plRoom b)).bind fun q => s.physEng q (plEng b) else none

/-- Dispatches a command whose conditions hold, on engine `e` and task slot `n` where it has them. -/
def State.doDispatch (s : State) (r : Nat) (c : RoomCmd) (en : Option (Nat × Nat)) : State :=
  let sh := s.shapeOf r c
  let af := sh.2.affOf r c
  let upd := fun (d : RoomCmd) => { d with
    st := .running, tDispatch := s.ts.toNat, eng := en.elim d.eng fun p => some p.1, slot := en.elim d.slot (·.2)
    dst := if dOpcode d.desc = 7 then s.haloDst d.desc else none, badRec := !sh.1.2.2
    regions := s.cmdRegions r c, aff := BitVec.ofNat 512 (leOfList af.1.bytes), shape := sh.1.1 }
  let s1 := af.2.updCmd r c.seq upd
  let s2 := match en with
    | some p => s1.placeTask c p.1 p.2
    | none => s1
  let s3 := (s2.countDispatch r c).flueDispatch r c.seq
  if sh.1.2.1 || af.1.bad then s3.workFault r c.seq (FaultInfo.mk0 causePoison)
  else if !(decide (1 ≤ dOpcode c.desc) && decide (dOpcode c.desc ≤ 9)) then s3.draw.2.workUndef r c.seq s3.draw.1
  else s3

/-- What dispatch makes of a ready command now: it waits (R317, R222); it faults; it goes, to an engine and task slot where its
operation has them. -/
inductive Verdict where
  | wait
  | fault (i : FaultInfo)
  | go (en : Option (Nat × Nat))
deriving DecidableEq, Repr

/-- The verdict once no unit holds the command back: LATCH_RANGE faults at dispatch (R300). -/
def State.judged (s : State) (c : RoomCmd) (v : Verdict) : Verdict :=
  if s.latchBad c then .fault (FaultInfo.mk0 causeLatchRange) else v

/-- The verdict on a command that runs on engine `e`: a command that a fenced engine would run faults when only the fence is
left to judge (R586); a requested fence, a conflict on the board, a named accumulator slot in use and full task slots keep it
waiting (R72, R222, R317). -/
def State.judgeOn (s : State) (r : Nat) (c : RoomCmd) (e : Nat) : Verdict :=
  if !s.boardFree r c (s.cmdRegions r c) then .wait
  else if s.engFenced e then s.judged c (.fault (fenceInfo causeUnitFence (physPlace e)))
  else if s.engFenceReq e || !s.slotsFree c e then .wait
  else
    match s.taskSlotFor c e with
    | some n => s.judged c (.go (some (e, n)))
    | none => .wait

/-- The verdict on a ready command whose stream is open, past the break registers; a PLACE without an engine faults (R64). -/
def State.verdict (s : State) (r : Nat) (c : RoomCmd) : Verdict :=
  if usesEngine (dOpcode c.desc) then
    match s.engineOf r c with
    | some e => s.judgeOn r c e
    | none => .fault placeInfo
  else s.judged c (.go none)

/-- Carries out the verdict on a ready command. -/
def State.dispatchReady (s : State) (r : Nat) (c : RoomCmd) : State :=
  match s.verdict r c with
  | .wait => s
  | .fault i => s.workFault r c.seq i
  | .go en => s.doDispatch r c en

/-- Conditions of dispatch that do not depend on units (R298, R323, R328, R380). -/
def State.mayGo (s : State) (r : Nat) (c : RoomCmd) : Bool :=
  s.roomOpen r && s.ctxOpen c && s.fwOpen r c && s.depsDone c && s.opOpen r c

/-- COMMAND_DISPATCH (R317, R330): a ready command without a conflict goes to a task slot, is held at a break, or faults. -/
def execCommandDispatch (c : CmdRef) (s : State) : Host.Outcome State Fault Refusal :=
  .next (match s.cmd c with
    | some d =>
      let r := c.room.val
      if d.st = .waiting ∧ d.fault.isNone ∧ s.mayGo r d then
        if !d.isTenant && !d.passed && s.breaksAt r d && s.verdict r d != .wait then s.takeBreak r d else s.dispatchReady r d
      else s
    | none => s)

/-! ### Completion and faults -/

/-- Commands that a CALL's routine issued and that have not ended (R346). -/
def RoomSt.callOpen (x : RoomSt) : Bool := x.cmds.any fun d => match d.src with
  | .issued 0 t => decide (t < 65536)
  | _ => false

/-- A command whose work is over: for a CALL, its routine returned zero and everything it issued has ended (R346). -/
def RoomSt.complete (x : RoomSt) (c : RoomCmd) : Bool :=
  c.fault.isNone &&
  if dOpcode c.desc = 9 ∧ c.st = .running then
    match x.callSt with
    | some k => k.ret == some 0 && !x.callOpen && !x.reading.any (fun p => p.level == 0 && decide (p.ticket < 65536))
    | none => false
  else c.st == .done

/-- COMMAND_COMPLETE (R302, R346). -/
def execCommandComplete (c : CmdRef) (s : State) : Host.Outcome State Fault Refusal :=
  .next (match s.cmd c with
    | some d => if (s.room c.room.val).complete d then s.cmdComplete c.room.val d else s
    | none => s)

/-- The fault a command has: one that its work met, or a nonzero status of its routine (R346, R347). -/
def RoomSt.faultOf (x : RoomSt) (c : RoomCmd) : Option FaultInfo :=
  match c.fault with
  | some i => some i
  | none =>
    if dOpcode c.desc = 9 ∧ c.st = .running then
      match x.callSt with
      | some k =>
        match k.ret with
        | some n => if n = 0 then none
            else some { FaultInfo.mk0 causeRoutine with detail := some 4, faultAddr := some n }
        | none => none
      | none => none
    else none

/-- COMMAND_FAULT (R323, R324, R329, R347). -/
def execCommandFault (c : CmdRef) (s : State) : Host.Outcome State Fault Refusal :=
  .next (match s.cmd c with
    | some d =>
      match (s.room c.room.val).faultOf d with
      | some i => s.cmdFault c.room.val d i
      | none => s
    | none => s)

/-- A dispatched command of an operation without an engine whose work has not begun. -/
def State.plainStart (s : State) (c : CmdRef) (op : Nat) : Option RoomCmd :=
  match s.cmd c with
  | some d => if dOpcode d.desc = op ∧ d.st = .running ∧ !d.started ∧ d.fault.isNone then some d else none
  | none => none

/-- Every earlier command of the same context in the room has ended (R295). -/
def RoomSt.earlierDone (x : RoomSt) (c : RoomCmd) : Bool :=
  x.cmds.all fun d => !(d.ctx == c.ctx && d.isTenant == c.isTenant && decide (d.ord < c.ord))

/-- SYNC (R295): its work is over once the earlier commands of its context in its room have completed; it waits for ever
on one that faulted. -/
def execSync (c : CmdRef) (s : State) : Host.Outcome State Fault Refusal :=
  .next (match s.plainStart c 1 with
    | some d =>
      let r := c.room.val
      if !syncLegal d.desc then s.draw.2.workUndef r d.seq s.draw.1
      else if (s.room r).earlierDone d && (s.ctx d.ctx).deadTags.all (fun t => !(t.2.2 == d.deadAt r && decide (t.2.1 < d.ord)))
      then s.workDone r d.seq
      else s
    | none => s)

/-! ### Latch writes (R301) -/

/-- LATCH_VAL_WRITE (R301, R83): SET of the latch that the requester's LATCH_SEL names. -/
def execLatchValWrite (w : BusWr) (s : State) : Host.Outcome State Fault Refusal :=
  .next (s.openWrite Off.LATCH_VAL w fun s1 =>
    s1.applySignal 2 (s1.fget (F.LATCH_SEL.LATCH.forReq w.req)) w.val.toNat)

/-! ### The firmware port (R328 to R333) -/

/-- The descriptor in FW_DESC. -/
def State.fwDesc (s : State) (r : Nat) : BitVec 2048 :=
  BitVec.ofNat 2048 ((List.range 64).foldl (fun acc w => acc + (s.reg (Off.FW_DESC r w)).toNat * 2 ^ (32 * w)) 0)

/-- The fault of a firmware command whose PLACE names no unit in service (R55, R64, R329, R566, R586), judged at the copy, which
is its delivery. The room that runs it is that of the port it was written to, whose fence it meets as well (assumption log 105). -/
def State.fwPlaceFault (s : State) (r place : Nat) : Option FaultInfo :=
  if !plLegal place then some (FaultInfo.mk0 causeIllegal)
  else if !s.dieUp (plDie place) || !s.dieUp (roomDie r) then some (FaultInfo.mk0 causeDieFence)
  else match s.physRoom (plFloor place) (plRoom place) with
    | none => some placeInfo
    | some q =>
      if s.roomFenced q then some (fenceInfo causeUnitFence (s.placeIn q (plEng place)))
      else if s.roomFenced r then some (fenceInfo causeUnitFence (s.placeIn r (plEng place)))
      else if s.roomOut q then some placeInfo else none

/-- A GO write of room `r` (R328, R329): DROP while the queue is full, REFUSED for a context that is not LIVE, and else the
copy into the firmware queue, where a command without a unit in service ends at once; GO has cleared when the copy is over. -/
def State.fwCopy (s : State) (r : Nat) : State :=
  let x := s.room r
  let ctx := if s.flag (F.FW_CTRL.CTX_EN r) then s.fget (F.FW_CTRL.CTX r) else fwCtx
  if 16 ≤ x.fwDepth then s.fset (F.FW_STATUS.DROP r) 1
  else if ctx ≠ fwCtx ∧ !(s.ctx ctx).live then s.fset (F.FW_STATUS.REFUSED r) 1
  else
    let s1 := s.enterRoom r .fw ctx (s.fwDesc r) 0xFFFFFFFF
    match s.fwPlaceFault r (dPlace (s.fwDesc r)) with
    | some i => s1.faultCmds r (fun c => c.seq == x.nextSeq) fun _ => i
    | none => s1

/-- FW_GO (R328, R329, R333): a write of FW_CTRL by the management core; CTX_EN and CTX of the same write govern the copy. -/
def execFwGo (r : RoomIx) (w : BusWr) (s : State) : Host.Outcome State Fault Refusal :=
  .next (s.busWrite (Off.FW_CTRL r.val) w fun s1 =>
    let s2 := s1.writePlain (Off.FW_CTRL r.val) w.val.toNat false
    if bitAt w.val.toNat 0 then s2.fwCopy r.val else s2)

/-- BRK_MODE_WRITE (R330, R331): MODE takes the value and the count of dispatched commands starts again. -/
def execBrkModeWrite (r : RoomIx) (w : BusWr) (s : State) : Host.Outcome State Fault Refusal :=
  .next (s.openWrite (Off.BRK_CTRL r.val) w fun s1 =>
    let s2 := (s1.fset (F.BRK_CTRL.MODE r.val) (w.val.toNat % 4)).fset (F.BRK_STATUS.DISPATCHED r.val) 0
    s2.setRoom r.val { s2.room r.val with brkSeen := 0, brkFired := false })

/-- RESUME (R330): HALTED clears and the held command is dispatched, past its break and under the conditions of every dispatch
(R72, R131, R328, R329, R348, R442). Where one of them does not hold, it waits for it like any command, with its break behind
it. -/
def State.resume (s : State) (r : Nat) : State :=
  let s1 := s.fset (F.BRK_STATUS.HALTED r) 0
  match (s1.room r).cmds.find? fun c => c.st == .held with
  | some c =>
    let d := { c with st := .waiting, passed := true }
    let s2 := s1.updCmd r c.seq fun _ => d
    if d.fault.isNone ∧ s2.mayGo r d then s2.dispatchReady r d else s2
  | none => s1

/-- BRK_RESUME (R330, R331). -/
def execBrkResume (r : RoomIx) (w : BusWr) (s : State) : Host.Outcome State Fault Refusal :=
  .next (s.openWrite (Off.BRK_CTRL r.val) w fun s1 =>
    if bitAt w.val.toNat 2 then s1.resume r.val else s1)

end Sys2Proof.Machine
end

