-- ==== Sys2Proof/Machine/Moves.lean ====
section
/-! DEFINITION. Data moves (R307, R308, R320, R321, R393, R397, R594): the blocks of LOAD, STORE, GATHER and SCATTER, which
their streams then move, and HALO (R46, R47), which moves within the rooms at once. -/

namespace Sys2Proof.Machine

/-! ### Pieces of a move -/

/-- Where a piece's bits lie at the far end: a bit address, a value in place of it (grout, R162), or a value that no rule
states. -/
inductive PSrc where
  | bit (b : Nat)
  | val (v : Nat)
  | free
deriving DecidableEq, Repr

/-- A piece of a move: first bit in the region, the far end, number of bits, the small tiles it lies in (equal for
pieces that may form one block, R397), and what its bits are. -/
structure Piece where
  loc  : Nat
  far  : PSrc
  n    : Nat
  key  : Nat × Nat
  kind : BlockKind
deriving DecidableEq, Repr

/-- The small tiles of a rows × cols matrix, as (row, column) of their first elements in oriented extents, in the order of
R158. -/
def tileOrigins (rows cols : Nat) : List (Nat × Nat) :=
  (List.range (ceilDiv rows 128)).flatMap fun i => (List.range (ceilDiv cols 128)).flatMap fun j =>
    (List.range 4).flatMap fun p => (List.range 4).filterMap fun q =>
      if i * 128 + p * 32 < rows ∧ j * 128 + q * 32 < cols then some (i * 128 + p * 32, j * 128 + q * 32) else none

/-- (row, column) from the slower and faster coordinate of an order (R159). -/
def orient (col : Bool) (a b : Nat) : Nat × Nat := if col then (b, a) else (a, b)

/-- The runs of 32 of a rows × cols matrix in the order of R158 and R159: slower coordinate, first faster coordinate and
number of elements inside the extents. -/
def runsOf (col : Bool) (rows cols : Nat) : List (Nat × Nat × Nat) :=
  let e := orient col rows cols
  (tileOrigins e.1 e.2).flatMap fun t => (List.range (min 32 (e.1 - t.1))).map fun i => (t.1 + i, t.2, min 32 (e.2 - t.2))

/-- A matrix in the blocked layout: order, extents, bits per element, element code, bit address of its data and byte
address of its scales. -/
structure Grid where
  col   : Bool
  rows  : Nat
  cols  : Nat
  code  : Nat
  mx    : Bool
  base  : Nat
  scale : Nat
deriving DecidableEq, Repr

/-- Bit address of an element. -/
def Grid.bit (g : Grid) (r c : Nat) : Nat := g.base + blkBit g.col g.rows g.cols (elemBits g.code) r c
/-- Byte address of the scale of an element. -/
def Grid.sc (g : Grid) (r c : Nat) : Nat := g.scale + blkScale g.col g.rows g.cols r c
/-- The small tile of an element, counted through the matrix. -/
def Grid.tile (g : Grid) (r c : Nat) : Nat :=
  if g.col then blkTile (pad128 g.rows) c r else blkTile (pad128 g.cols) r c

/-- The region of a move as a matrix at byte `lo`: its scale bytes follow its data from the next 256-byte boundary
(R308). -/
def regionGrid (col : Bool) (rows cols code : Nat) (mx : Bool) (lo : Nat) : Grid :=
  { col := col, rows := rows, cols := cols, code := code, mx := mx, base := lo * 8
    scale := lo + ceilDiv (blkBytes rows cols (elemBits code)) 256 * 256 }

/-- Element (r, c) of a region drawn from position `far r c` of a tensor, or grout where it has none. -/
def elemPiece (reg ten : Grid) (far : Nat → Nat → Option (Nat × Nat)) (grout tag : Nat) (r c : Nat) : Piece :=
  { loc := reg.bit r c, n := elemBits reg.code, kind := .data reg.code 0
    key := (reg.tile r c, match far r c with
      | some p => ten.tile p.1 p.2 + tag
      | none => 0)
    far := match far r c with
      | some p => .bit (ten.bit p.1 p.2)
      | none => .val grout }

/-- The scale of a run of the region: the one scale byte that all its elements have in the tensor, that of grout (R174), or
one that no rule states. -/
def scalePiece (reg ten : Grid) (far : Nat → Nat → Option (Nat × Nat)) (u : Nat × Nat × Nat) : Piece :=
  let at' := fun i => orient reg.col u.1 (u.2.1 + i)
  let src := ((List.range u.2.2).map fun i =>
    match far (at' i).1 (at' i).2 with
    | some p => PSrc.bit (ten.sc p.1 p.2 * 8)
    | none => .val 0x7F).eraseDups
  { loc := reg.sc (at' 0).1 (at' 0).2 * 8, n := 8, key := (0, 0)
    far := match src with
      | [x] => x
      | _ => .free
    kind := match src with
      | [_] => .scale
      | _ => .free }

/-- Every piece of a move between a region and a tensor, in region order, the scale bytes last. `tag` keeps apart the
gathered rows or columns of one tile (R397). -/
def gridPieces (reg ten : Grid) (far : Nat → Nat → Option (Nat × Nat)) (tag : Nat → Nat → Nat) (grout : Nat) : List Piece :=
  let us := runsOf reg.col reg.rows reg.cols
  (us.flatMap fun u => (List.range u.2.2).map fun i =>
    let p := orient reg.col u.1 (u.2.1 + i)
    elemPiece reg ten far grout (tag p.1 p.2) p.1 p.2) ++
  (if reg.mx then us.map (scalePiece reg ten far) else [])

/-! ### From pieces to blocks -/

/-- A piece that goes on where another ends, in the same tiles. -/
def Piece.joins (a b : Piece) : Bool :=
  a.key == b.key && a.kind == b.kind && a.loc + a.n == b.loc &&
    match a.far, b.far with
    | .bit x, .bit y => x + a.n == y
    | _, _ => false

/-- Joins adjoining pieces. -/
def joinPieces : List Piece → List Piece
  | [] => []
  | p :: t =>
    match joinPieces t with
    | q :: u => if p.joins q then { p with n := p.n + q.n } :: u else p :: q :: u
    | [] => [p]

/-- What the rest of a cut run holds: elements go on where the cut fell in one (R594). -/
def BlockKind.after (k : BlockKind) (n : Nat) : BlockKind :=
  match k with
  | .data code ph => .data code ((ph + n) % elemBits code)
  | x => x

/-- Cuts a run of bits at the edges of 4 KiB pages of the virtual address (R397, R594). -/
def cutPages (space : Nat) (kind : BlockKind) : Nat → Nat → Nat → Nat → List Block
  | 0, _, _, _ => []
  | fuel + 1, va, loc, n =>
    if n = 0 then []
    else
      let k := min n (32768 - va % 32768)
      { va := va, loc := loc, nbits := k, space := space, kind := kind } ::
        cutPages space (BlockKind.after kind k) fuel (va + k) (loc + k) (n - k)

/-- The blocks of joined pieces; a piece without an address moves in no block. -/
def blocksOf (space : Nat) (l : List Piece) : List Block :=
  l.flatMap fun p =>
    match p.far with
    | .bit b => cutPages space p.kind (p.n / 32768 + 2) b p.loc p.n
    | _ => []

/-- The tile number that marks the pieces of a container. -/
def wholeKey : Nat := 2 ^ 200

/-- The pieces before the first access to a byte outside [lo, hi), and that byte (R203); a container's pieces move up to
the edge. -/
def takeInside (lo hi : Nat) : List Piece → List Piece × Option Nat
  | [] => ([], none)
  | p :: t =>
    let sp := bitSpan p.loc p.n
    match firstOut lo hi [sp] with
    | some a => (if p.key.1 = wholeKey ∧ p.loc / 8 < a then [{ p with n := a * 8 - p.loc }] else [], some a)
    | none => let q := takeInside lo hi t; (p :: q.1, q.2)

/-! ### Spaces and regions -/

/-- Units of 256 bytes that software addresses in a space (R202, R307). -/
def spaceTop (space : Nat) : Nat := if space = 1 then 64512 else 12288

/-- Byte `a` of the engine buffer (as the context reads it, R39) or of the room store. -/
def State.spaceByte (s : State) (r e ctx space a : Nat) : Byte :=
  if space = 1 then Mem.byte (s.room r).store a else (s.eng e).seen ctx a

/-- Writes the `w` bits of `v` at a bit address of a space (R591). -/
def State.putSpace (s : State) (r e ctx space b w v : Nat) : State :=
  if space = 1 then
    let x := s.room r
    s.setRoom r { x with store := Mem.writeBits x.store b w (fun i => bitAt v i) }
  else s.setEng e ((s.eng e).putBits ctx b w v)

/-- The `w` bits at a bit address of a space. -/
def State.getSpace (s : State) (r e ctx space b w : Nat) : Nat :=
  let sp := bitSpan b w
  bitsAt (leOfList ((List.range sp.2).map fun i => s.spaceByte r e ctx space (sp.1 + i))) (b % 8) w

/-- A generated BASE of a memory body lies with its region in its space (R314). -/
def moveBaseOk (space : Nat) (b : Int) (size : Nat) : Bool :=
  decide (0 ≤ b) && decide (b < (spaceTop space : Int)) && decide (b + (size : Int) ≤ (spaceTop space : Int))

/-- The fault of an access outside a memory body's region (R324): BASE, SPACE and SIZE. -/
def moveRegion (space base size inst addr : Nat) : FaultInfo :=
  { FaultInfo.mk0 causeRegion with
    inst := some inst, faultAddr := some addr, region := some (base % 2 ^ 32 + space * 2 ^ 32 + size * 2 ^ 64) }

/-- The bytes of a block's address range with the block's bits in place of theirs (R591). -/
def mergeBits (old : List Byte) (ph n v : Nat) : List Byte :=
  leList (setBitsNat (leOfList old) ph n v) old.length

/-- Free bits over a range within one page that an undefined command names as its destination, where it translates; nothing
else changes, no translation is cached, and the other bits of its bytes stay (R7, R8, R9, R591). -/
def State.spoilBits (s : State) (r ctx b n : Nat) : State :=
  let x := s.xlateOnly r ctx (b / 8) true
  match x.1 with
  | .ok pa =>
    let k := (bitSpan b n).2
    if x.2.isFar pa || x.2.wallBlocks pa k then x.2
    else
      let d := x.2.draw
      let old := (List.range k).map fun i => d.2.physByte (pa + i)
      d.2.physWrite pa (mergeBits old (b % 8) n d.1)
  | .bad _ _ => x.2

/-- Free bits over the ranges of blocks. -/
def State.spoilBlocks (s : State) (r ctx : Nat) (l : List Block) : State :=
  l.foldl (fun st b => st.spoilBits r ctx b.va b.nbits) s

/-- Free bytes over a range of virtual addresses. -/
def State.spoilVa (s : State) (r ctx va n : Nat) : State :=
  (pageChunks (n / 4096 + 2) va n).foldl (fun st c => st.spoilBits r ctx (c.1 * 8) (c.2 * 8)) s

/-! ### Structures of a move -/

/-- Reads `n` bytes of a structure, or says which address does not translate, so that the stream parks on it (R411). -/
def State.readOrPark (s : State) (r ctx va n : Nat) : (SRead × Option Nat) × State :=
  (pageChunks (n / 4096 + 2) va n).foldl (fun (acc : (SRead × Option Nat) × State) c =>
    if acc.1.2.isSome then acc
    else
      let x := acc.2.xlate r ctx c.1 false
      match x.1 with
      | .ok pa =>
        let q := x.2.readPiece pa c.2
        ((acc.1.1.append q.1, none), q.2)
      | .bad _ _ => ((acc.1.1, some c.1), x.2)) ((SRead.empty, none), s)

/-- A stream for a command, not yet issuing. -/
def State.addStream (s : State) (c : RoomCmd) (e : Nat) (isWrite : Bool) (bs : List Block) (ashlar : Bool)
    (err : Option FaultInfo) : State :=
  let x := s.eng e
  let isMove := dOpcode c.desc == 3
  let st : Stream :=
    { id := x.nextId, cmd := c.seq, slot := c.slot, ctx := c.ctx, isWrite := isWrite, blocks := bs, nextK := 0, flight := [],
      park := none, walking := false, resumed := false, retain := isMove && bitAt (dLflags c.desc) 0
      release := isMove && bitAt (dLflags c.desc) 1, ashlar := ashlar, err := err }
  s.setEng e { x with streams := x.streams ++ [st], nextId := x.nextId + 1 }

/-- The move waits for the structure at `va`: a stream of one block that moves nothing, after which the command starts
again. -/
def State.parkOn (s : State) (r : Nat) (c : RoomCmd) (e va : Nat) : State :=
  (s.addStream c e false [{ va := va * 8, loc := 0, nbits := 8, space := 0, kind := .look }] false none).updCmd r c.seq
    fun d => { d with started := true }

/-- The work of a move begins: its stream, or its end where nothing is to be streamed (R398). -/
def State.startMove (s : State) (r : Nat) (c : RoomCmd) (e : Nat) (isWrite : Bool) (bs : List Block) (ashlar : Bool)
    (err : Option FaultInfo) : State :=
  if bs.isEmpty then
    match err with
    | some f => s.workFault r c.seq f
    | none => s.workDone r c.seq
  else (s.addStream c e isWrite bs ashlar err).updCmd r c.seq fun d => { d with started := true }

/-- A move over no rows or columns completes with NO_WRITE (R321). -/
def State.moveNothing (s : State) (r : Nat) (c : RoomCmd) : State :=
  (s.updCmd r c.seq fun d => { d with noWrite := true }).workDone r c.seq

/-! ### LOAD and STORE -/

/-- One instance of a LOAD or STORE (R310 to R313): number, tensor descriptor, BASE, ROW0, COL0 and ROWS. -/
structure MvInst where
  ix   : Nat
  td   : Nat
  base : Int
  row0 : Int
  col0 : Int
  rows : Nat
deriving DecidableEq, Repr

/-- ROWS of a command: the runtime value under SHAPE_RT (R320). -/
def RoomCmd.rowsOf (c : RoomCmd) : Nat := (c.shape.map fun p => p.1).getD (dRows c.desc)
/-- COLS of a command. -/
def RoomCmd.colsOf (c : RoomCmd) : Nat := (c.shape.map fun p => p.2.1).getD (dCols c.desc)

/-- Entry n of a pointer list as an instance (R312). -/
def mvEntry (d : BitVec 2048) (n entry : Nat) : MvInst :=
  { ix := n, td := bitsAt entry 0 64, base := (bitsAt entry 64 32 : Nat), row0 := (dRow0 d : Nat), col0 := (dCol0 d : Nat)
    rows := bitsAt entry 96 32 }

/-- The instances of a LOAD or STORE, with its pointer list's contents when it has one. -/
def mvInsts (c : RoomCmd) (plist : Nat) : List MvInst :=
  let d := c.desc
  if dPlist d then (List.range (dRepeat d)).map fun n => mvEntry d n (bitsAt plist (128 * n) 128)
  else (List.range (dRepeat d)).map fun n =>
    let l := agenRegs (dAgen d) (dAgenWord d) c.aff.toNat [(dBase d : Int), (dRow0 d : Int), (dCol0 d : Int)] n
    { ix := n, td := dTd d, base := l.getD 0 0, row0 := l.getD 1 0, col0 := l.getD 2 0, rows := c.rowsOf }

/-- Reserved bits and values of a LOAD or STORE body (R307). -/
def moveWordsOk (d : BitVec 2048) : Bool :=
  headerOk d && decide (dSpace d ≤ 1) && decide (dLflags d < 4) && dField d 0x4A 2 == 0 && dField d 0x68 4 == 0 &&
    dField d 0x80 128 == 0

/-- The window of an instance lies in the tensor, begins and, for a STORE, ends at a run (R308). -/
def windowOk (store : Bool) (t : Tensor) (i : MvInst) (cols : Nat) : Bool :=
  decide (0 ≤ i.row0) && decide (0 ≤ i.col0) && decide (i.row0 + (i.rows : Int) ≤ (t.rows : Int)) &&
  decide (i.col0 + (cols : Int) ≤ (t.cols : Int)) &&
  (!t.mx ||
    (let o : Int := if t.col then i.row0 else i.col0
     let n := if t.col then i.rows else cols
     let ext := if t.col then t.rows else t.cols
     o % 32 == 0 && (!store || n % 32 == 0 || o + (n : Int) == (ext : Int))))

/-- What an instance of a LOAD or STORE names: its tensor descriptor, and for a container the header and its 32-bit words by
offset. -/
structure MvTd where
  t    : Tensor
  h    : Ash
  word : Nat → Nat

/-- An instance of a LOAD or STORE is legal (R6, R163 to R171, R307, R308, R314). -/
def mvLegal (store : Bool) (d : BitVec 2048) (m : MvTd) (i : MvInst) (cols : Nat) : Bool :=
  moveBaseOk (dSpace d) i.base (dSize d) && i.td % 64 == 0 && m.t.ok && decide (dMat d < m.t.mats) &&
  (if m.t.ashlar then i.row0 == 0 && i.col0 == 0 && m.h.extents == (i.rows, cols) && m.h.legal m.word &&
     m.t.elem == m.h.elem && m.t.mx == m.h.mx
   else windowOk store m.t i cols)

/-- The tensor's matrix MAT as a grid over virtual addresses (R160, R161). -/
def Tensor.grid (t : Tensor) (mat : Nat) : Grid :=
  { col := t.col, rows := t.rows, cols := t.cols, code := t.elem, mx := t.mx, base := (t.addr + mat * t.stride) * 8
    scale := t.scale + mat * (pad128 t.rows * pad128 t.cols / 32) }

/-- The pieces of a dense window (R308). -/
def windowPieces (t : Tensor) (mat : Nat) (i : MvInst) (cols : Nat) : List Piece :=
  gridPieces (regionGrid t.col i.rows cols t.elem t.mx (i.base.toNat * 256)) (t.grid mat)
    (fun r c => some (i.row0.toNat + r, i.col0.toNat + c)) (fun _ _ => 0) 0

/-- Inserts a number into an ascending list. -/
def insertAsc (n : Nat) : List Nat → List Nat
  | [] => [n]
  | m :: t => if n ≤ m then n :: m :: t else m :: insertAsc n t

/-- What the bytes from offset `o` of a container hold: elements, scale bytes, or its header and arrays (R163). -/
def Ash.kindAt (h : Ash) (o : Nat) : BlockKind :=
  if h.dataOff ≤ o ∧ o < h.dataOff + h.blocks * 128 * elemBits h.elem then .data h.elem ((o - h.dataOff) * 8 % elemBits h.elem)
  else if h.mx ∧ h.scaleOff ≤ o ∧ o < h.scaleOff + h.blocks * 32 then .scale
  else .raw

/-- The offsets at which a container's contents change, in order (R163). -/
def Ash.cuts (h : Ash) : List Nat :=
  let n := h.bytes
  ([h.dataOff, h.dataOff + h.blocks * 128 * elemBits h.elem, h.scaleOff, h.scaleOff + h.blocks * 32, n].map
    (min n ·)).foldl (fun l x => insertAsc x l) [0]

/-- The pieces of a whole container (R308), by what they hold. -/
def containerPieces (t : Tensor) (h : Ash) (i : MvInst) : List Piece :=
  (h.cuts.zip (h.cuts.drop 1)).filterMap fun p =>
    if p.1 < p.2 then
      some { loc := (i.base.toNat * 256 + p.1) * 8, far := .bit ((t.addr + p.1) * 8), n := (p.2 - p.1) * 8, key := (wholeKey, p.1)
             kind := h.kindAt p.1 }
    else none

/-- The pieces of one instance up to the first access outside its region, and the fault there. -/
def mvPieces (d : BitVec 2048) (t : Tensor) (h : Ash) (cols : Nat) (i : MvInst) : List Piece × Option FaultInfo :=
  let lo := i.base.toNat * 256
  let l := if t.ashlar then containerPieces t h i
    else if i.rows = 0 ∨ cols = 0 then [] else windowPieces t (dMat d) i cols
  let p := takeInside lo (lo + dSize d * 256) l
  (p.1, p.2.map (moveRegion (dSpace d) i.base.toNat (dSize d) i.ix))

/-- What the instances name; the first address that does not translate; poison (R324). -/
structure MvRead where
  tds  : List MvTd
  wait : Option Nat
  bad  : Bool

/-- The 32-bit word at offset `o` of bytes that begin at offset `lo` (R23). -/
def wordIn (lo : Nat) (l : List Byte) (o : Nat) : Nat := leOfList ((l.drop (o - lo)).take 4)

/-- The bytes of a container from offset `o`: at the tensor's address for a LOAD, in the region for a STORE (R308). -/
def State.partBytes (s : State) (r : Nat) (c : RoomCmd) (e : Nat) (t : Tensor) (i : MvInst) (o n : Nat) :
    (SRead × Option Nat) × State :=
  if dOpcode c.desc = 4 then
    let l := (List.range n).map fun k => s.spaceByte r e c.ctx (dSpace c.desc) (i.base.toNat * 256 + o + k)
    (({ bytes := l, clean := l, beats := 0 }, none), s)
  else s.readOrPark r c.ctx (t.addr + o) n

/-- The code and index arrays of a container as its words by offset. -/
def Ash.words (h : Ash) (codes index : List Byte) (o : Nat) : Nat :=
  if h.codeOff ≤ o ∧ o < h.codeOff + codes.length then wordIn h.codeOff codes o else wordIn h.indexOff index o

/-- Reads what a container names: its header, and the code and index arrays of one whose header is legal and not FULL. -/
def State.readBox (s : State) (r : Nat) (c : RoomCmd) (e : Nat) (t : Tensor) (i : MvInst) : (MvTd × Option Nat) × State :=
  let p := s.partBytes r c e t i 0 64
  let h := Ash.of (leOfList p.1.1.bytes)
  if p.1.2.isSome || !h.headOk || h.full then (({ t := t, h := h, word := fun _ => 0 }, p.1.2), p.2)
  else
    let q := p.2.partBytes r c e t i h.codeOff (h.numBands * h.numGroups * 4)
    let u := q.2.partBytes r c e t i h.indexOff ((h.numBands + 1) * 4)
    (({ t := t, h := h, word := h.words q.1.1.bytes u.1.1.bytes }, q.1.2 <|> u.1.2), u.2)

/-- Reads what one instance names. -/
def State.readInst (s : State) (r : Nat) (c : RoomCmd) (e : Nat) (acc : MvRead) (i : MvInst) : MvRead × State :=
  if acc.wait.isSome then (acc, s)
  else
    let p := s.readOrPark r c.ctx i.td 64
    match p.1.2 with
    | some va => ({ acc with wait := some va }, p.2)
    | none =>
      let t := Tensor.of (leOfList p.1.1.bytes)
      let m := if t.ashlar then p.2.readBox r c e t i
        else (({ t := t, h := Ash.of 0, word := fun _ => 0 }, none), p.2)
      match m.1.2 with
      | some va => ({ acc with wait := some va }, m.2)
      | none => ({ acc with tds := acc.tds ++ [m.1.1], bad := acc.bad || p.1.1.bad }, m.2)

/-- Reads the tensor descriptors of the instances: one for a command without a pointer list, one for each entry
otherwise. -/
def State.readMoves (s : State) (r : Nat) (c : RoomCmd) (e : Nat) (l : List MvInst) : MvRead × State :=
  (if dPlist c.desc || dOpcode c.desc == 4 then l else l.take 1).foldl
    (fun (a : MvRead × State) i => a.2.readInst r c e a.1 i) ({ tds := [], wait := none, bad := false }, s)

/-- What an instance names. -/
def MvRead.tdOf (m : MvRead) (i : MvInst) : MvTd :=
  m.tds.getD (if m.tds.length = 1 then 0 else i.ix) { t := Tensor.of 0, h := Ash.of 0, word := fun _ => 0 }

/-- The bits of memory that the window of an illegal STORE names: the elements inside the tensor and their scale bytes. -/
def windowDest (t : Tensor) (mat : Nat) (i : MvInst) (cols : Nat) : List Piece :=
  let g := t.grid mat
  let cell := fun (r c : Nat) =>
    let p : Int × Int := (i.row0 + (r : Int), i.col0 + (c : Int))
    if 0 ≤ p.1 ∧ p.1 < (t.rows : Int) ∧ 0 ≤ p.2 ∧ p.2 < (t.cols : Int) then some (p.1.toNat, p.2.toNat) else none
  let l := (List.range i.rows).flatMap fun r => (List.range cols).filterMap (cell r)
  let piece := fun (b n : Nat) => { loc := b, far := .bit b, n := n, key := (0, 0), kind := .free : Piece }
  (l.map fun p => piece (g.bit p.1 p.2) (elemBits t.elem)) ++
    (if t.mx then ((l.map fun p => g.sc p.1 p.2).eraseDups.map fun a => piece (a * 8) 8) else [])

/-- An illegal LOAD or STORE: its destination becomes free, and it faults or completes (R7, R8, R10). -/
def State.mvIllegal (s : State) (r : Nat) (c : RoomCmd) (e : Nat) (m : MvRead) (l : List MvInst) : State :=
  if c.isIssued then s.workIssued r c.seq else
  let one := fun (st : State) (i : MvInst) =>
    let d := m.tdOf i
    if d.t.ashlar then st.spoilVa r c.ctx d.t.addr d.h.bytes
    else st.spoilBlocks r c.ctx (blocksOf 0 (joinPieces (windowDest d.t (dMat c.desc) i c.colsOf)))
  let s1 := if dOpcode c.desc = 3 then s.freeRegions r e c.ctx (dSpace c.desc) (dSize c.desc) (l.map fun i => i.base)
    else l.foldl one s
  s1.draw.2.workUndef r c.seq s1.draw.1

/-- The words of the moved data as fill requests (R393), in the region's byte order; a word of 65,536 or above is
ignored. -/
def State.fillBlocks (s : State) (r e ctx space : Nat) (l : List Piece) : List Block :=
  let bits := l.foldl (fun (acc : Nat × Nat) p => (acc.1 + s.getSpace r e ctx space p.loc p.n * 2 ^ acc.2, acc.2 + p.n)) (0, 0)
  (List.range (bits.2 / 32)).filterMap fun i =>
    let w := bitsAt bits.1 (32 * i) 32
    if w < 65536 then some { va := 0, loc := 0, nbits := 0, space := space, kind := .fill w } else none

/-- The blocks of one instance: fill requests for a STORE whose tensor lies in the fill window (R393). -/
def State.instBlocks (s : State) (r : Nat) (c : RoomCmd) (e : Nat) (t : Tensor) (l : List Piece) : List Block :=
  if dOpcode c.desc == 4 && vaWindow (vaBits t.addr) == 3 then s.fillBlocks r e c.ctx (dSpace c.desc) l
  else blocksOf (dSpace c.desc) (joinPieces l)

/-- The blocks of the instances in order, up to the first access outside a region, and the fault there. -/
def State.mvBlocks (s : State) (r : Nat) (c : RoomCmd) (e : Nat) (m : MvRead) : List MvInst → List Block × Option FaultInfo
  | [] => ([], none)
  | i :: l =>
    let d := m.tdOf i
    let p := mvPieces c.desc d.t d.h c.colsOf i
    let b := s.instBlocks r c e d.t p.1
    match p.2 with
    | some f => (b, some f)
    | none => let q := State.mvBlocks s r c e m l; (b ++ q.1, q.2)

/-- The whole move of a legal LOAD or STORE. -/
def State.mvRun (s : State) (r : Nat) (c : RoomCmd) (e : Nat) (m : MvRead) (l : List MvInst) : State :=
  let p := s.mvBlocks r c e m l
  s.startMove r c e (dOpcode c.desc == 4) p.1 (m.tds.any fun d => d.t.ashlar) p.2

/-- The work of a LOAD or STORE on engine e. -/
def State.moveWork (s : State) (r : Nat) (c : RoomCmd) (e : Nat) : State :=
  let d := c.desc
  let pl := if dPlist d then s.readOrPark r c.ctx (dAgenWord d) (16 * dRepeat d) else ((SRead.empty, none), s)
  match pl.1.2 with
  | some va => pl.2.parkOn r c e va
  | none =>
    let l := mvInsts c (leOfList pl.1.1.bytes)
    let m := pl.2.readMoves r c e l
    match m.1.wait with
    | some va => m.2.parkOn r c e va
    | none =>
      if m.1.bad || pl.1.1.bad then m.2.workFault r c.seq (FaultInfo.mk0 causePoison)
      else if !(!c.badRec && moveWordsOk d && agenOk d c.aff.toNat &&
          l.all fun i => mvLegal (dOpcode d == 4) d (m.1.tdOf i) i c.colsOf) then
        m.2.mvIllegal r c e m.1 l
      else if c.colsOf == 0 || l.all fun i => i.rows == 0 then m.2.moveNothing r c
      else m.2.mvRun r c e m.1 l

/-- LOAD (R307, R308, R313, R321, R397): the blocks of the move become a stream of the engine. -/
def execLoad (c : CmdRef) (s : State) : Host.Outcome State Fault Refusal :=
  .next (match s.startable c 3 with
    | some (d, e) => s.moveWork c.room.val d e
    | none => s)

/-- STORE (R307, R308, R313, R321, R393, R397). -/
def execStore (c : CmdRef) (s : State) : Host.Outcome State Fault Refusal :=
  .next (match s.startable c 4 with
    | some (d, e) => s.moveWork c.room.val d e
    | none => s)

/-! ### GATHER and SCATTER -/

/-- IDX_COUNT of a command, or its runtime value (R320). -/
def RoomCmd.idxCount (c : RoomCmd) : Nat := (c.shape.map fun p => p.1).getD (dIdxCount c.desc)

/-- A GATHER or SCATTER without reserved encodings in its descriptor (R294, R307). -/
def gsWordsOk (d : BitVec 2048) : Bool :=
  headerOk d && !dPlist d && decide (dDim d ≤ 1) && decide (dGSpace d ≤ 1) && dField d 0x56 2 == 0 && dField d 0x60 12 == 0 &&
    dField d 0x80 128 == 0 && dTd d % 64 == 0 && dIdxAddr d % 4 == 0 && decide (dIdxCount d < 65536)

/-- Legality of a GATHER or SCATTER but for its generated registers (R309, R320). -/
def gatherOk (c : RoomCmd) (t : Tensor) : Bool :=
  let d := c.desc
  !c.badRec && gsWordsOk d && agenOk d c.aff.toNat && agenBlank d c.aff.toNat 2 && decide (c.idxCount < 65536) && t.ok && !t.ashlar

/-- The address registers of an instance: BASE and IDX_ADDR in units of 4 bytes (R309). -/
def gatherRegs (c : RoomCmd) (n : Nat) : List Int :=
  let d := c.desc
  agenRegs (dAgen d) (dAgenWord d) c.aff.toNat [(dGBase d : Int), ((dIdxAddr d / 4 : Nat) : Int), 0] n

/-- Index i of an array read as a little-endian number. -/
def idxAt (arr i : Nat) : Nat := bitsAt arr (32 * i) 32

/-- The region of a GATHER or SCATTER: its rows or columns in index order (R308). -/
def gatherGrid (t : Tensor) (dim count lo : Nat) : Grid :=
  if dim = 0 then regionGrid t.col count t.cols t.elem t.mx lo else regionGrid t.col t.rows count t.elem t.mx lo

/-- The position in the tensor that an element of the region stands for; none for an index outside the extent. -/
def gatherFar (t : Tensor) (dim arr : Nat) (r c : Nat) : Option (Nat × Nat) :=
  if dim = 0 then (if idxAt arr r < t.rows then some (idxAt arr r, c) else none)
  else (if idxAt arr c < t.cols then some (r, idxAt arr c) else none)

/-- The pieces of one GATHER instance in region order; each gathered row or column has its own blocks (R397). -/
def gatherPieces (t : Tensor) (dim count arr lo : Nat) : List Piece :=
  gridPieces (gatherGrid t dim count lo) (t.grid 0) (gatherFar t dim arr)
    (fun r c => (if dim = 0 then r else c) * 2 ^ 64) (groutEnc t.elem t.grout)

/-- The pieces of index position p of a SCATTER in region order, its scale bytes last; where the runs of the tensor
cross the scattered rows or columns, no rule gives their scale bytes, which become free. -/
def scatterAt (t : Tensor) (dim count arr lo p : Nat) : List Piece :=
  let reg := gatherGrid t dim count lo
  let far := gatherFar t dim arr
  let n := if dim = 0 then t.cols else t.rows
  let pos := fun i => if dim = 0 then (p, i) else (i, p)
  let along := t.col == decide (dim = 1)
  let el := (List.range n).filterMap fun i =>
    let q := pos i
    (far q.1 q.2).map fun _ => elemPiece reg (t.grid 0) far 0 0 q.1 q.2
  let sc := if !t.mx then []
    else if along then
      ((List.range n).filter (· % 32 == 0)).filterMap fun i =>
        let q := pos i
        (far q.1 q.2).map fun w => { loc := reg.sc q.1 q.2 * 8, far := .bit ((t.grid 0).sc w.1 w.2 * 8), n := 8, key := (0, 0), kind := .scale : Piece }
    else
      (List.range n).filterMap fun i =>
        let q := pos i
        (far q.1 q.2).map fun w => { loc := reg.bit q.1 q.2, far := .bit ((t.grid 0).sc w.1 w.2 * 8), n := 8, key := (1, i), kind := .free : Piece }
  el ++ sc

/-- The pieces of one SCATTER instance, in ascending index position (R308). -/
def scatterPieces (t : Tensor) (dim count arr lo : Nat) : List Piece := (List.range count).flatMap (scatterAt t dim count arr lo)

/-- Counts poisoned beats read into an engine (R389). -/
def State.notePoison (s : State) (n : Nat) : State :=
  if n = 0 then s else (s.countSat F.POISON_COUNT.COUNT n).fset F.MEM_STATUS.POISON 1

/-- The address of an instance's index array. -/
def idxVa (c : RoomCmd) (n : Nat) : Nat := (((gatherRegs c n).getD 1 0 * 4) % (2 ^ 64 : Int)).toNat

/-- The index arrays of the instances; the first address that does not translate. An index of a poisoned beat reads as zero,
a format without NaN, and each such beat is counted (R389). -/
def State.readIdx (s : State) (r : Nat) (c : RoomCmd) : (List Nat × Option Nat) × State :=
  (List.range (dRepeat c.desc)).foldl (fun (a : (List Nat × Option Nat) × State) n =>
    if a.1.2.isSome then a
    else
      let p := a.2.readOrPark r c.ctx (idxVa c n) (4 * c.idxCount)
      match p.1.2 with
      | some w => ((a.1.1, some w), p.2)
      | none => ((a.1.1 ++ [leOfList p.1.1.clean], none), p.2.notePoison p.1.1.beats)) (([], none), s)

/-- The pieces of an instance up to the first access outside its region, and the fault there. -/
def gsPieces (c : RoomCmd) (t : Tensor) (arrs : List Nat) (n : Nat) : List Piece × Option FaultInfo :=
  let d := c.desc
  let b := ((gatherRegs c n).getD 0 0).toNat
  let f := if dOpcode d = 5 then gatherPieces else scatterPieces
  let p := takeInside (b * 256) ((b + dGSize d) * 256) (f t (dDim d) c.idxCount (arrs.getD n 0) (b * 256))
  (p.1, p.2.map (moveRegion (dGSpace d) b (dGSize d) n))

/-- Pieces of all instances up to the first fault. -/
def allGs (c : RoomCmd) (t : Tensor) (arrs : List Nat) : List Nat → List Piece × Option FaultInfo
  | [] => ([], none)
  | n :: l =>
    match gsPieces c t arrs n with
    | (p, some e) => (p, some e)
    | (p, none) => let q := allGs c t arrs l; (p ++ q.1, q.2)

/-- Writes the grout of a GATHER's pieces, and free scale bytes where no rule gives them, into its region (R162, R308). -/
def State.putGrout (s : State) (r e ctx space : Nat) (l : List Piece) : State :=
  l.foldl (fun st p =>
    match p.far with
    | .val v => st.putSpace r e ctx space p.loc p.n v
    | .free => st.draw.2.putSpace r e ctx space p.loc p.n st.draw.1
    | .bit _ => st) s

/-- The bits of memory that instance n of an illegal SCATTER names: the rows or columns at its indices, with their scale
bytes. -/
def State.scatterDest (s : State) (r : Nat) (c : RoomCmd) (t : Tensor) (n : Nat) : List Block :=
  let arr := leOfList (s.readVa r c.ctx (idxVa c n) (4 * c.idxCount)).1.clean
  blocksOf 0 (joinPieces (scatterPieces t (dDim c.desc) c.idxCount arr 0))

/-- An illegal GATHER or SCATTER: its destinations become free, and it faults or completes (R7, R8, R10). -/
def State.gsIllegal (s : State) (r : Nat) (c : RoomCmd) (e : Nat) (t : Tensor) : State :=
  if c.isIssued then s.workIssued r c.seq else
  let n := List.range (dRepeat c.desc)
  let s1 := if dOpcode c.desc = 5 then
      s.freeRegions r e c.ctx (dGSpace c.desc) (dGSize c.desc) (n.map fun i => (gatherRegs c i).getD 0 0)
    else n.foldl (fun st i => st.spoilBlocks r c.ctx (s.scatterDest r c t i)) s
  s1.draw.2.workUndef r c.seq s1.draw.1

/-- The work of a GATHER or SCATTER on engine e. -/
def State.gsWork (s : State) (r : Nat) (c : RoomCmd) (e : Nat) : State :=
  let d := c.desc
  let p := s.readOrPark r c.ctx (dTd d) 64
  match p.1.2 with
  | some va => p.2.parkOn r c e va
  | none =>
    let t := Tensor.of (leOfList p.1.1.bytes)
    if p.1.1.bad then p.2.workFault r c.seq (FaultInfo.mk0 causePoison)
    else if !(gatherOk c t && (List.range (dRepeat d)).all fun n =>
        moveBaseOk (dGSpace d) ((gatherRegs c n).getD 0 0) (dGSize d)) then p.2.gsIllegal r c e t
    else if c.idxCount = 0 then p.2.moveNothing r c
    else
      let ix := p.2.readIdx r c
      match ix.1.2 with
      | some va => ix.2.parkOn r c e va
      | none =>
        let q := allGs c t ix.1.1 (List.range (dRepeat d))
        let s1 := if dOpcode d = 5 then ix.2.putGrout r e c.ctx (dGSpace d) q.1 else ix.2
        s1.startMove r c e (dOpcode d == 6) (blocksOf (dGSpace d) (joinPieces q.1)) false q.2

/-- GATHER (R307, R308, R320, R397). -/
def execGather (c : CmdRef) (s : State) : Host.Outcome State Fault Refusal :=
  .next (match s.startable c 5 with
    | some (d, e) => s.gsWork c.room.val d e
    | none => s)

/-- SCATTER (R307, R308, R320, R397). -/
def execScatter (c : CmdRef) (s : State) : Host.Outcome State Fault Refusal :=
  .next (match s.startable c 6 with
    | some (d, e) => s.gsWork c.room.val d e
    | none => s)

/-! ### HALO (R46, R47, R308) -/

/-- The pair of engines of a HALO is one that R47 allows: of one room, or of two rooms of one floor whose logical indices differ by
one. -/
def haloPair (d : BitVec 2048) : Bool :=
  let a := dPlace d
  let b := dDst d
  plLegal b && plFloor a == plFloor b &&
    (plRoom a == plRoom b || plRoom a + 1 == plRoom b || plRoom b + 1 == plRoom a)

/-- The address registers of a HALO's instance: SRC.BASE and DST_BASE (R309). -/
def haloRegs (c : RoomCmd) (n : Nat) : List Int :=
  let d := c.desc
  agenRegs (dAgen d) (dAgenWord d) c.aff.toNat [((TReg.of (dSrc d)).base : Int), (dDstBase d : Int), 0] n

/-- A HALO without reserved encodings in its descriptor, between engines that R47 allows (R294, R307, R308). -/
def haloWordsOk (d : BitVec 2048) : Bool :=
  let t := TReg.of (dSrc d)
  haloPair d && headerOk d && !dPlist d && decide (dSide d ≤ 3) && decide (1 ≤ dWidth d) && decide (dWidth d ≤ 32) &&
    decide (dHMode d ≤ 1) && dField d 0x5D 3 == 0 && dField d 0x68 4 == 0 && dField d 0x70 8 == 0 && dField d 0x80 128 == 0 &&
    t.plainOk && !t.ashlar && groutLegal t.elem (dHGrout d)

/-- Legality of a HALO (R309, R314). -/
def haloOk (c : RoomCmd) : Bool :=
  let d := c.desc
  haloWordsOk d && agenOk d c.aff.toNat && agenBlank d c.aff.toNat 2 &&
    (List.range (dRepeat d)).all fun n =>
      baseOk ((haloRegs c n).getD 0 0) (TReg.of (dSrc d)).size && moveBaseOk 0 ((haloRegs c n).getD 1 0) (dDstSize d)

/-- The source element of element (r, c) of the strip: at SIDE, and none beyond the source's extent (R162, R308). -/
def haloFar (t : TReg) (side w mode : Nat) (r c : Nat) : Option (Nat × Nat) :=
  if mode = 1 then none
  else
    let p : Int × Int := match side with
      | 0 => ((r : Int), (c : Int))
      | 1 => ((t.rows : Int) - (w : Int) + (r : Int), (c : Int))
      | 2 => ((r : Int), (c : Int))
      | _ => ((r : Int), (t.cols : Int) - (w : Int) + (c : Int))
    if 0 ≤ p.1 ∧ p.1 < (t.rows : Int) ∧ 0 ≤ p.2 ∧ p.2 < (t.cols : Int) then some (p.1.toNat, p.2.toNat) else none

/-- The strip's pieces between the destination region at byte `lo` and the source register. -/
def haloPieces (t : TReg) (d : BitVec 2048) (lo : Nat) : List Piece :=
  let w := dWidth d
  let e := if dSide d < 2 then (w, t.cols) else (t.rows, w)
  let src : Grid := { col := t.col, rows := t.rows, cols := t.cols, code := t.elem, mx := t.mx, base := t.lo * 8, scale := t.scale * 256 }
  gridPieces (regionGrid t.col e.1 e.2 t.elem t.mx lo) src (haloFar t (dSide d) w (dHMode d)) (fun _ _ => 0)
    (groutEnc t.elem (dHGrout d))

/-- One piece of a HALO: the source's region is checked, then the destination's, and the bits are written (R203). -/
def State.haloPiece (s : State) (ctx e e2 : Nat) (t : TReg) (lo size inst : Nat) (p : Piece) : State × Option FaultInfo :=
  let s1 := s.draw
  let v := match p.far with
    | .bit b => ((s.eng e).seenBits ctx b p.n, t.out [bitSpan b p.n], s)
    | .val v => (v, none, s)
    | .free => (s1.1, none, s1.2)
  match v.2.1, firstOut (lo * 256) ((lo + size) * 256) [bitSpan p.loc p.n] with
  | some a, _ => (s, some { regionInfo t a with inst := some inst })
  | none, some a => (s, some (moveRegion 0 lo size inst a))
  | none, none => (v.2.2.setEng e2 ((v.2.2.eng e2).putBits ctx p.loc p.n v.1), none)

/-- The pieces of a HALO in order, up to the first fault. -/
def State.haloAll (ctx e e2 : Nat) (t : TReg) (lo size inst : Nat) : List Piece → State → State × Option FaultInfo
  | [], s => (s, none)
  | p :: l, s =>
    match s.haloPiece ctx e e2 t lo size inst p with
    | (s1, none) => State.haloAll ctx e e2 t lo size inst l s1
    | r => r

/-- The instances of a HALO in order, up to the first fault. -/
def State.haloInsts (c : RoomCmd) (e e2 : Nat) : List Nat → State → State × Option FaultInfo
  | [], s => (s, none)
  | n :: l, s =>
    let b := haloRegs c n
    let t := (TReg.of (dSrc c.desc)).atBase (b.getD 0 0).toNat
    let lo := (b.getD 1 0).toNat
    match State.haloAll c.ctx e e2 t lo (dDstSize c.desc) n (haloPieces t c.desc (lo * 256)) s with
    | (s1, none) => State.haloInsts c e e2 l s1
    | r => r

/-- The destination bases of a HALO's instances. -/
def haloBases (c : RoomCmd) : List Int := (List.range (dRepeat c.desc)).map fun n => (haloRegs c n).getD 1 0

/-- The destination regions of a HALO become free. -/
def State.freeHalo (s : State) (c : RoomCmd) : State :=
  match c.dst with
  | some e2 => s.freeRegions (engRoom e2) e2 c.ctx 0 (dDstSize c.desc) (haloBases c)
  | none => s

/-- The commands of the destination room that touch the destination regions of a HALO from another room and that no dependency
holds back: none orders them against it (R319). -/
def State.haloRivals (s : State) (c : RoomCmd) (e2 : Nat) : List RoomCmd :=
  let mine := (haloBases c).map fun b => hullRegion 0 e2 (b, b) (dDstSize c.desc) true
  (s.room (engRoom e2)).cmds.filter fun d =>
    (d.st == .running || d.st == .done || s.depsDone d) &&
      (s.cmdRegions (engRoom e2) d).any fun g => mine.any (g.clash ·)

/-- A HALO into another room that nothing orders against that room's commands: its result and theirs are undefined (R319;
assumption log 85). -/
def State.haloRaces (s : State) (r : Nat) (c : RoomCmd) (e2 : Nat) : State :=
  let l := s.haloRivals c e2
  if engRoom e2 = r ∨ l.isEmpty then s
  else
    let s1 := (s.freeHalo c).updCmd r c.seq fun d => { d with undef := true }
    l.foldl (fun st d => (st.freeParts (engRoom e2) d.ctx (st.cmdRegions (engRoom e2) d)).updCmd (engRoom e2) d.seq
      fun x => { x with undef := true }) s1

/-- An illegal HALO (R7, R8, R10, R47). -/
def State.haloIllegal (s : State) (r : Nat) (c : RoomCmd) : State :=
  if c.isIssued then s.workIssued r c.seq else
  let s1 := s.freeHalo c
  s1.draw.2.workUndef r c.seq s1.draw.1

/-- The work of a HALO on engine e: it moves strip by strip, unless it is illegal or names no unit (R64). -/
def State.haloWork (s : State) (r : Nat) (c : RoomCmd) (e : Nat) : State :=
  match c.dst with
  | none => s.haloIllegal r c
  | some e2 =>
    if !haloOk c then s.haloIllegal r c
    else
      match State.haloInsts c e e2 (List.range (dRepeat c.desc)) s with
      | (s1, none) => (s1.haloRaces r c e2).workDone r c.seq
      | (s1, some f) => s1.workFault r c.seq f

/-- HALO (R46, R47, R308): a strip of the source region, or grout, goes to the destination region. -/
def execHalo (c : CmdRef) (s : State) : Host.Outcome State Fault Refusal :=
  .next (match s.startable c 7 with
    | some (d, e) => s.haloWork c.room.val d e
    | none => s)

end Sys2Proof.Machine
end

