-- ==== Sys2Proof/Machine/Streams.lean ====
section
/-! DEFINITION. Streams of an engine: issue and completion of blocks (R397, R398, R411, R389), parking and the fault ring
(R410 to R415), larder fills (R393 to R396), cellar bursts (R416, R417), invalidation (R405 to R407), routes at the
source (R448 to R450), and the switching of an engine's active context (R418 to R424). -/

namespace Sys2Proof.Machine

/-! ### Routes (R448 to R450, R408) -/

/-- The route to package p as a floor knows it: its copy, or the register where it holds none; a stale copy gives a free
choice (R408, R449). The floor keeps a copy of what it reads. -/
def State.floorRoute (s : State) (f p : Nat) : W32 × State :=
  let k := f * 64 + p
  let now := s.reg (Off.ROUTE p)
  match s.link.routeC.get (fun _ => none) k with
  | some v =>
    if v = now then (v, s)
    else
      let d := s.draw
      (if d.1 % 2 = 0 then v else now, d.2)
  | none => (now, { s with link := { s.link with routeC := s.link.routeC.set (fun _ => none) k (some now) } })

/-- VALID of a ROUTE entry. -/
def routeValid (v : W32) : Bool := bitAt v.toNat 0
/-- The port of a ROUTE entry: ring A or B, east or west (R448, R499). -/
def routePort (v : W32) : Nat := bitsAt v.toNat 1 1 * 2 + bitsAt v.toNat 2 1

/-- The positions in a port's bypassed span (R447, R473). -/
def State.span (s : State) (q : Nat) : List Nat :=
  let n := s.fget F.RING_CFG.RING_SIZE
  let me := s.pkgNum
  if q = 4 then []
  else (List.range (s.fget (F.PORT_STATE.BYPASSED q))).map fun i =>
    if q % 2 = 0 then (me + i + 1) % n else (me + (n - (i + 1) % n)) % n

/-- There is no path to package p by a route (R450). -/
def State.noPath (s : State) (v : W32) (p : Nat) : Bool := !routeValid v || (s.span (routePort v)).contains p

/-! ### Streams and their tasks -/

/-- The stream that a reference names. -/
def State.stream (s : State) (t : StreamRef) : Option Stream := (s.eng t.eng.val).streams.find? fun x => x.id == t.id

/-- Changes a stream. -/
def State.updStream (s : State) (t : StreamRef) (f : Stream → Stream) : State :=
  let x := s.eng t.eng.val
  s.setEng t.eng.val { x with streams := x.streams.map fun y => if y.id = t.id then f y else y }

/-- The command of a stream. -/
def State.streamCmd (s : State) (t : StreamRef) (st : Stream) : Option RoomCmd := (s.room (engRoom t.eng.val)).find st.cmd

/-- A flue record of a tenant's task (R424, R327). -/
def State.flueTask (s : State) (ty : Nat) (c : RoomCmd) : State := if c.isTenant then s.flueCmd ty 0 c c.physRec else s

/-! ### The end of a stream (R203, R398) -/

/-- Writes the value of a block into its region, or nothing for the read of a structure. -/
def State.landRead (s : State) (t : StreamRef) (st : Stream) (b : Block) (v : Nat) : State :=
  match b.kind with
  | .look => s
  | _ => s.putSpace (engRoom t.eng.val) t.eng.val st.ctx b.space b.loc b.nbits v

/-- Takes an ended stream away; its command's work is over, or meets its region fault, or starts again after the read of a
structure (R203, R398, R426). -/
def State.endStream (s : State) (t : StreamRef) (st : Stream) (look : Bool) : State :=
  let x := s.eng t.eng.val
  let r := engRoom t.eng.val
  let s1 := s.setEng t.eng.val { x with streams := x.streams.filter fun y => y.id != t.id }
  if look then s1.updCmd r st.cmd fun c => { c with started := false }
  else
    match st.err with
    | some f => s1.workFault r st.cmd f
    | none => s1.workDone r st.cmd

/-- Ends a stream with nothing left to issue and nothing in flight. -/
def State.checkStream (s : State) (t : StreamRef) (look : Bool) : State :=
  match s.stream t with
  | some st => if st.blocks.isEmpty && st.flight.isEmpty && st.park.isNone then s.endStream t st look else s
  | none => s

/-! ### Parking (R410 to R413) -/

/-- The lowest park ticket not in use (R412). -/
def State.freeTicket (s : State) : Option Nat := (List.range 1024).find? fun n => s.ms.tickets.all fun t => t.num != n

/-- The fault-ring record of a park (R413), its ticket still zero. CTX of the firmware context is free. -/
def State.parkRecord (s : State) (t : StreamRef) (st : Stream) (c : RoomCmd) (ty level va : Nat) : BitVec 512 × State :=
  let p := if st.ctx = fwCtx then s.draw else (st.ctx, s)
  let win := vaWindow (vaBits va) == 2 && st.ctx != fwCtx
  (BitVec.ofNat 512 (ty + (b2n st.isWrite + 2 * b2n win) * 2 ^ 8 + p.1 % 2048 * 2 ^ 16 + dTag c.desc * 2 ^ 32 +
    vaBits va * 2 ^ 64 + physPlace t.eng.val * 2 ^ 144 + dPlace c.desc * 2 ^ 160 + level * 2 ^ 176 +
    c.qidxRec * 2 ^ 192 + s.ts.toNat * 2 ^ 256), p.2)

/-- Gives a record and its stream a ticket; the record then waits to be written (R412). -/
def State.giveTicket (s : State) (t : StreamRef) (ctx : Nat) (rec64 : BitVec 512) : State :=
  match s.freeTicket with
  | none => { s with ms := { s.ms with noTicket := s.ms.noTicket ++ [(t, rec64)] } }
  | some n =>
    let k : Ticket := { num := n, stream := t, ctx := ctx, record := rec64 ||| BitVec.ofNat 512 (n * 2 ^ 128), written := false }
    let s1 := s.updStream t fun y => { y with park := y.park.map fun p => { p with ticket := some n } }
    { s1 with ms := { s1.ms with tickets := s1.ms.tickets ++ [k], xfWait := s1.ms.xfWait ++ [n] } }

/-- A block of the firmware context that meets no path, no data or a blocked window: its stream never parks (R329), so that the
access is one that no memory backs (R384): a read gives zeros, a write is dropped, UNBACKED sets (assumption log 106). -/
def State.passUnbacked (s : State) (t : StreamRef) (st : Stream) : State :=
  match st.blocks with
  | [] => s
  | b :: _ =>
    let s1 := (s.fset F.MEM_STATUS.UNBACKED 1).updStream t fun y => { y with
      blocks := y.blocks.drop 1, nextK := y.nextK + 1, walking := false }
    (if st.isWrite then s1 else s1.landRead t st b 0).checkStream t (b.kind == .look)

/-- A stream parks at its next block (R411, R412, R424). -/
def State.parkStream (s : State) (t : StreamRef) (ty level : Nat) : State :=
  match s.stream t with
  | none => s
  | some st =>
    if st.ctx = fwCtx then s.passUnbacked t st else
    match s.streamCmd t st with
    | none => s
    | some c =>
      let va := (st.blocks.headD { va := 0, loc := 0, nbits := 0, space := 0, kind := .raw }).va / 8
      let s1 := s.updStream t fun y => { y with park := some { ty := ty, level := level, ticket := none }, walking := false }
      let r := s1.parkRecord t st c ty level va
      (r.2.giveTicket t st.ctx r.1).flueTask 4 c

/-- Block k of a stream, issued before, is to be issued again, and the stream parks on it (R417, R483, R487). -/
def State.parkBlock (s : State) (t : StreamRef) (k ty : Nat) : State :=
  match s.stream t with
  | none => s
  | some st =>
    match st.flight.find? fun f => f.k == k with
    | none => s
    | some f =>
      let s1 := s.updStream t fun y => { y with
        blocks := f.blk :: y.blocks, flight := y.flight.filter fun g => g.k != k }
      if st.park.isSome then s1 else s1.parkStream t ty 0xFF

/-! ### Larder fills (R393 to R396) -/

/-- Counts a dropped fill request. -/
def State.fillDrop (s : State) : State := s.countSat F.FILL_COUNTS.FILL_DROP 1

/-- A fill request of a context for expert x (R394); none while the package holds 256 fills. -/
def State.fillRequest (s : State) (ctx x : Nat) : Option State :=
  let e := s.ledgerMem x
  if !s.flag F.MEM_CTRL.LEDGER_EN || ldOwner e != ctx || ldState e != 2 || !ldFillOk e then some s.fillDrop
  else if s.ms.fills.any fun f => f.expert == x then some s
  else if 256 ≤ s.ms.fills.length then none
  else some { s with ms := { s.ms with
    fills := s.ms.fills ++ [{ expert := x, entry := e, seq := s.ms.burstSeq }], burstSeq := s.ms.burstSeq + 1 } }

/-- The poison marks of copied beats travel with them (R389). -/
def State.copyPoison (s : State) (src dst n : Nat) : State :=
  (List.range (n / 64)).foldl (fun st i =>
    if st.poisoned (src + i * 64)
    then { st with ms := { st.ms with poison := st.ms.poison.set (fun _ => false) (st.foldAddr (dst + i * 64) / 64) true } }
    else st) s

/-- LARDER_FILL_END (R394 to R396): the copy, then the compare-and-write of the ledger entry. Blocked windows abandon the
fill (R495). -/
def execLarderFillEnd (x : BitVec 16) (s : State) : Host.Outcome State Fault Refusal :=
  .next (match s.ms.fills.find? fun f => f.expert == x.toNat with
    | none => s
    | some f =>
      let n := ldSize f.entry * 4096
      let dst := ldLarder f.entry
      if s.wallBlocks dst n then s.abandonFill x.toNat
      else
        let p := s.physRead (ldCellar f.entry) n
        let s1 := (p.2.physWrite dst p.1).copyPoison (ldCellar f.entry) dst n
        let s2 := { s1 with ms := { s1.ms with fills := s1.ms.fills.filter fun g => g.expert != x.toNat } }
        if s2.ledgerMem x.toNat = f.entry then
          (s2.physWrite (s2.ledgerBase + x.toNat * 32) [1]).dropLedger fun _ y => y == x.toNat
        else s2.countSat F.FILL_COUNTS.FILL_FAIL 1)

/-! ### Floor caches (R48, R325, R361, R389) -/

/-- The 64-byte beat of an address within its 4 KiB block. -/
def beatOf (a : Nat) : Nat := a / 64 % 64

/-- The poisoned beats that a range of one block touches. -/
def State.badIn (s : State) (a n : Nat) : List Nat :=
  (List.range (if n = 0 then 0 else (a + n - 1) / 64 + 1 - a / 64)).filterMap fun i =>
    if s.poisoned ((a / 64 + i) * 64) then some (beatOf ((a / 64 + i) * 64)) else none

/-- Byte `o` of a line's block, if a read has brought it. -/
def Line.byte (x : Line) (o : Nat) : Option Byte :=
  (x.data.find? fun p => decide (p.1 ≤ o) && decide (o < p.1 + p.2.length)).map fun p => listByte p.2 (o - p.1)

/-- The line of floor `f` that holds block `b`. -/
def State.line (s : State) (f b : Nat) : Option Line := (s.ms.lines.get (fun _ => []) f).find? fun x => x.blk == b

/-- A read of `n` bytes at address `a` that the cache of floor `f` serves, with the poisoned beats it touches: every byte lies in
its line (R325). -/
def State.lineHit (s : State) (f a n : Nat) : Option (List Byte × List Nat) :=
  match s.line f (a / 4096) with
  | none => none
  | some x =>
    let l := (List.range n).map fun i => x.byte (a % 4096 + i)
    if l.all Option.isSome then
      some (l.map fun b => b.getD 0, x.bad.filter fun k => (List.range n).any fun i => beatOf (a + i) == k)
    else none

/-- Lines outside the retained partition that a floor cache holds: 224 MiB less the 192 MiB of the partition, and less the
16.875 MiB of the mortar reservations while a merge is open (R3, R274, R325). -/
def State.plainLines (s : State) : Nat := if s.mo.merges.all fun p => p.2.isNone then 8192 else 3872

/-- Puts a line at the most recent end of floor `f`; each partition gives up its least recently used lines (R325). -/
def State.putLine (s : State) (f : Nat) (x : Line) : State :=
  let l := x :: (s.ms.lines.get (fun _ => []) f).filter fun y => y.blk != x.blk
  let l1 := (l.filter fun y => y.keep.isSome).take 49152 ++ (l.filter fun y => y.keep.isNone).take s.plainLines
  { s with ms := { s.ms with lines := s.ms.lines.set (fun _ => []) f l1 } }

/-- The floor cache after `data` is read at address `a`: the line holds it, and is retained as `keep` makes of what it was. -/
def State.fillLine (s : State) (f a : Nat) (data : List Byte) (bad : List Nat) (keep : Option Nat → Option Nat) : State :=
  let old := (s.line f (a / 4096)).getD { blk := a / 4096, keep := none, data := [], bad := [] }
  let new := if (s.lineHit f a data.length).isSome then old.data else (a % 4096, data) :: old.data
  s.putLine f { old with keep := keep old.keep, data := new, bad := (old.bad ++ bad).eraseDups }

/-- The floor cache after a block of a stream is read (R325): retained under RETAIN, no longer retained after RELEASE. -/
def State.cacheRead (s : State) (fl : Nat) (st : Stream) (f : InFlight) (data : List Byte) (bad : List Nat) : State :=
  if f.blk.kind = .look then s
  else s.fillLine fl (s.foldAddr (bitSpan f.pa f.blk.nbits).1) data bad fun k =>
    if st.retain then some st.ctx else if st.release then none else k

/-! ### Issue (R398, R411, R418) -/

/-- A stream has one of the eight stream units of its engine (R398): the oldest streams that are not parked have them. -/
def EngSt.hasUnit (x : EngSt) (id : Nat) : Bool := ((x.streams.filter fun t => t.park.isNone).take 8).any fun t => t.id == id

/-- A stream may issue: it is not parked, no walk of it is in progress, it has a stream unit, fewer than 16 blocks are in flight,
its context runs on its engine, and no switch waits for its break point (R398, R418, R421). -/
def State.mayIssue (s : State) (t : StreamRef) (st : Stream) : Bool :=
  let x := s.eng t.eng.val
  st.park.isNone && !st.walking && x.hasUnit st.id && decide (st.flight.length < 16) && s.enginesOn &&
    x.active == some st.ctx && !x.wantSw &&
    match s.streamCmd t st with
    | some c => c.fault.isNone
    | none => false

/-- A translation cache of the room or its floor answers for the address (R403, R404). -/
def State.cached (s : State) (r ctx va : Nat) : Bool :=
  let v := vaBits va
  ctx == fwCtx || vaWindow v == 3 ||
  (if vaWindow v < 2 then
    (tlbFind (s.ms.roomTlb.get (fun _ => []) r) ctx v).isSome || (tlbFind (s.ms.floorTlb.get (fun _ => []) (roomFloor r)) ctx v).isSome
   else (ledgerFind (s.ms.ledgerC.get (fun _ => []) (roomFloor r)) ctx (bitsAt v 39 16)).isSome)

/-- The bits of a block in its engine buffer or room store, and free ones where no rule states them (R39). -/
def State.outBits (s : State) (e c : Nat) (b : Block) : Nat × State :=
  match b.kind with
  | .free => s.draw
  | _ => (s.getSpace (engRoom e) e c b.space b.loc b.nbits, s)

/-- The bytes that the block at bit address `pa` touches: first byte and count. -/
def blockSpan (pa n : Nat) : Nat × Nat := bitSpan pa n

/-- The request that a block of another package becomes (R481, R463): RD_REQ, or WR with the block's bytes. The bits of a remote
byte beside a sub-byte element are those that the byte holds there (R591), which this package's state does not: free values stand
for them (assumption log 86). A floor cache keeps no line of a block that is written (R325). -/
def State.sendFar (s : State) (t : StreamRef) (st : Stream) (c : RoomCmd) (b : Block) (pa : Nat) : Nat × State :=
  let sp := blockSpan pa b.nbits
  let dst := remotePkg sp.1
  let vc := if st.isWrite then 2 else 0
  let q := (s.nextBseq dst vc).1
  let base := { Msg.blank (if st.isWrite then 3 else 1) vc dst with
    ptag := b2n st.ashlar, stag := dTag c.desc, addr := remoteOff sp.1, ctx := st.ctx % 2048, origin := some (t, st.nextK) }
  if st.isWrite then
    let f := s.freeBytes sp.2
    let v := (f.2.dropWritten sp.1 sp.2).outBits t.eng.val st.ctx b
    (q, v.2.originate { base with data := mergeBits f.1 (pa % 8) b.nbits v.1 })
  else (q, s.originate { base with aux := sp.2 })

/-- A read of a populated cellar port (R416). -/
def State.isCellar (s : State) (a : Nat) : Bool := decide (0x100000000000 ≤ a) && decide (a < 0x140000000000) && s.backed a

/-- Puts the head block of a stream in flight, translated to byte address `pa`: a read that the floor cache holds goes no further
(R325). -/
def State.launch (s : State) (t : StreamRef) (st : Stream) (c : RoomCmd) (b : Block) (pa : Nat) : State :=
  let bit := pa * 8 + b.va % 8
  let use := s.usedBy (engRoom t.eng.val) st.ctx (b.va / 8)
  let go := fun (s1 : State) (reach : Reach) =>
    let s2 := s1.updStream t fun y => { y with
      blocks := y.blocks.drop 1, nextK := y.nextK + 1, resumed := false, walking := false
      flight := y.flight ++ [{ k := y.nextK, blk := b, pa := bit, reach := reach, use := use }] }
    if st.resumed then s2.flueTask 5 c else s2
  match if st.isWrite then none else s.lineHit (engFloor t.eng.val) (s.foldAddr pa) (blockSpan bit b.nbits).2 with
  | some h => go s (.floor h.1 h.2)
  | none =>
    if s.isFar pa then
      let q := s.sendFar t st c b bit
      go q.2 (.remote q.1)
    else if !st.isWrite && s.isCellar (s.foldAddr pa) then
      let port := (s.foldAddr pa - 0x100000000000) / 0x20000000000
      let q := s.ms.burstSeq
      go { s with ms := { s.ms with burstSeq := q + 1, bursts := s.ms.bursts ++
        [{ port := port, seq := q, strm := t, k := st.nextK, need := (blockSpan bit b.nbits).2, got := 0 }] } } (.cellar port q)
    else go s .here

/-- The head block of a stream is translated: it parks, or it issues (R410, R450, R495). A write to an expert that is being
filled abandons the fill (R396). -/
def State.issueBlock (s : State) (t : StreamRef) (st : Stream) (c : RoomCmd) (b : Block) : State :=
  let e := t.eng.val
  let va := b.va / 8
  let x := s.xlate (engRoom e) st.ctx va st.isWrite
  match x.1 with
  | .bad ty level => x.2.parkStream t ty level
  | .ok pa =>
    let s1 := if st.isWrite then x.2.wroteExpert st.ctx va else x.2
    if s1.isFar pa then
      let rt := s1.floorRoute (engFloor e) (remotePkg pa)
      if rt.2.noPath rt.1 (remotePkg pa) then rt.2.parkStream t xfUnreachable 0xFF else rt.2.launch t st c b pa
    else if st.isWrite && s1.wallBlocks pa (blockSpan (b.va % 8) b.nbits).2 then s1.parkStream t xfProtected 0xFF
    else s1.launch t st c b pa

/-- STREAM_BLOCK_ISSUE (R398, R393): a fill request is made; any other block is translated at once when a cache answers,
and a walk starts otherwise. -/
def execStreamBlockIssue (t : StreamRef) (s : State) : Host.Outcome State Fault Refusal :=
  .next (match s.stream t with
    | none => s
    | some st =>
      match s.streamCmd t st, st.blocks with
      | some c, b :: _ =>
        if s.mayIssue t st then
          match b.kind with
          | .fill x =>
            match s.fillRequest st.ctx x with
            | some s1 => (s1.updStream t fun y => { y with blocks := y.blocks.drop 1 }).checkStream t false
            | none => s
          | _ =>
            if s.cached (engRoom t.eng.val) st.ctx (b.va / 8) then s.issueBlock t st c b
            else s.updStream t fun y => { y with walking := true }
        else s
      | _, _ => s)

/-- TRANSLATION_WALK_END (R399 to R404): the walk or ledger read of a stream ends with a translation, with which the block
issues, or with a fault. A block whose context no longer runs translates again later (R421). -/
def execTranslationWalkEnd (t : StreamRef) (s : State) : Host.Outcome State Fault Refusal :=
  .next (match s.stream t with
    | none => s
    | some st =>
      if st.walking then
        let s1 := s.updStream t fun y => { y with walking := false }
        match s1.streamCmd t st, st.blocks with
        | some c, b :: _ => if s1.mayIssue t { st with walking := false } then s1.issueBlock t st c b else s1
        | _, _ => s1
      else s)

/-! ### Completion (R389, R398, R425, R490) -/

/-- The bits of a block at bit address `pa` whose bytes are `data`, poison replaced (R389): canonical NaN or zero for
elements, 0xFF for scale bytes, the free bits of `d` for the rest of a container. -/
def blockBits (b : Block) (pa : Nat) (data : List Byte) (bad : List Nat) (d : Nat) : Nat :=
  let v := bitsAt (leOfList data) (pa % 8) b.nbits
  let badBit := fun i => bad.contains (beatOf ((pa + i) / 8))
  let bit := fun i =>
    match b.kind with
    | .data code ph =>
      let w := elemBits code
      let j := (i + ph) / w
      if (List.range w).any fun m => decide (ph ≤ j * w + m) && decide (j * w + m < ph + b.nbits) && badBit (j * w + m - ph) then
        bitAt (((fmtOf code).bind fun f => f.qnan).getD 0) ((i + ph) % w)
      else bitAt v i
    | .scale => if badBit i then true else bitAt v i
    | _ => if badBit i then bitAt d i else bitAt v i
  if bad.isEmpty then v else (List.range b.nbits).foldl (fun acc i => acc + b2n (bit i) * 2 ^ i) 0

/-- Writes a block that has arrived into its region; each poisoned beat is counted (R389). -/
def State.takeBlock (s : State) (t : StreamRef) (st : Stream) (f : InFlight) (data : List Byte) (bad : List Nat) : State :=
  let s1 := if bad.isEmpty then s else s.draw.2.notePoison bad.length
  s1.landRead t st f.blk (blockBits f.blk f.pa data bad s.draw.1)

/-- Takes block k out of flight and ends the stream with its last block. -/
def State.retire (s : State) (t : StreamRef) (k : Nat) (look : Bool) : State :=
  (s.updStream t fun y => { y with flight := y.flight.filter fun g => g.k != k }).checkStream t look

/-- A write of a window waits while the mirror queue holds 16 MiB (R494). -/
def State.wallFull (s : State) (a n : Nat) : Bool :=
  s.wallCaptures &&
    decide (0x1000000 < s.link.wall.openBytes + ((s.link.wall.sent.map fun p => (p.2.map fun w => w.2.length).sum).sum) + n) &&
    (List.range n).any fun i => s.inWall (a + i)

/-- The data of a cellar burst has arrived whole (R416). -/
def State.burstWhole (s : State) (f : InFlight) : Bool :=
  match f.reach with
  | .cellar p q => s.ms.bursts.any fun b => b.port == p && b.seq == q && decide (b.need ≤ b.got)
  | .here => true
  | .floor _ _ => true
  | .remote _ => false

/-- What a block in flight brings: its bytes and poisoned beats, from the floor cache or from memory. -/
def State.blockData (s : State) (f : InFlight) : (List Byte × List Nat) × State :=
  match f.reach with
  | .floor d bad => ((d, bad), s)
  | _ =>
    let sp := blockSpan f.pa f.blk.nbits
    let p := s.physRead sp.1 sp.2
    ((p.1, s.badIn sp.1 sp.2), p.2)

/-- A read block completes with the bytes and poisoned beats of its range; the floor cache keeps them. -/
def State.completeRead (s : State) (t : StreamRef) (st : Stream) (f : InFlight) (data : List Byte) (bad : List Nat) : State :=
  let s1 := (s.cacheRead (engFloor t.eng.val) st f data bad).takeBlock t st f data bad
  let s2 := match f.reach with
    | .cellar p q => { s1 with ms := { s1.ms with bursts := s1.ms.bursts.filter fun b => !(b.port == p && b.seq == q) } }
    | _ => s1
  s2.retire t f.k (f.blk.kind == .look)

/-- A write block completes: its bits are written (R591); a window that has become blocked parks it (R495). A block that
overlaps an earlier one of its stream waits for it (R308 SCATTER). -/
def State.completeWrite (s : State) (t : StreamRef) (st : Stream) (f : InFlight) : State :=
  let sp := blockSpan f.pa f.blk.nbits
  if st.flight.any fun g => decide (g.k < f.k) && rangesMeet g.pa g.blk.nbits f.pa f.blk.nbits then s
  else if s.wallBlocks sp.1 sp.2 then s.parkBlock t f.k xfProtected
  else if s.wallFull (s.foldAddr sp.1) sp.2 then s
  else
    let v := s.outBits t.eng.val st.ctx f.blk
    let old := (List.range sp.2).map fun i => v.2.physByte (sp.1 + i)
    (v.2.physWrite sp.1 (mergeBits old (f.pa % 8) f.blk.nbits v.1)).retire t f.k false

/-- STREAM_BLOCK_COMPLETE (R398): a block of this package's memory, of the host window or of a whole cellar burst. -/
def execStreamBlockComplete (t : StreamRef) (k : Nat) (s : State) : Host.Outcome State Fault Refusal :=
  .next (match s.stream t with
    | none => s
    | some st =>
      match st.flight.find? fun f => f.k == k with
      | none => s
      | some f =>
        if !s.running || !s.burstWhole f then s
        else if st.isWrite then s.completeWrite t st f
        else
          let p := s.blockData f
          p.2.completeRead t st f p.1.1 p.1.2)

/-! ### The fault ring and resumption (R412, R414) -/

/-- Base of the fault ring. -/
def State.xfBase (s : State) : Nat := s.fget F.XF_BASE_HI.ADDR_HI * 0x100000000 + s.fget F.XF_BASE_LO.ADDR_LO * 4096

/-- FAULT_RING_RECORD_WRITE (R412, R413): the oldest waiting record is written when the ring has room; in the host window
while the link is down it is dropped (R507). -/
def execFaultRingRecordWrite (s : State) : Host.Outcome State Fault Refusal :=
  .next (match s.ms.xfWait with
    | [] => s
    | n :: rest =>
      match s.ms.tickets.find? fun t => t.num == n with
      | none => { s with ms := { s.ms with xfWait := rest } }
      | some t =>
        let size := 2 ^ s.fget F.XF_SIZE.LOG2
        let tail := s.fget F.XF_TAIL.TAIL
        if !s.running || (tail + 1) % size == s.fget F.XF_HEAD.HEAD then s
        else
          let s1 := { s with ms := { s.ms with
            xfWait := rest
            tickets := s.ms.tickets.map fun u => if u.num = n then { u with written := true } else u } }
          if hostBase ≤ s.xfBase ∧ !s.hs.linkUp then s1
          else
            (((s1.physWrite (s.xfBase + tail * 64) (leList t.record.toNat 64)).fset F.XF_TAIL.TAIL ((tail + 1) % size)).fset
              F.XF_STATUS.NEW 1).pkgEvent evXf)

/-- Frees a ticket; the longest-waiting parked stream without one takes it (R412). -/
def State.freeTicketNum (s : State) (n : Nat) : State :=
  let s1 := { s with ms := { s.ms with
    tickets := s.ms.tickets.filter fun t => t.num != n, xfWait := s.ms.xfWait.filter (· != n) } }
  match s1.ms.noTicket with
  | [] => s1
  | (t, rec64) :: rest =>
    let s2 := { s1 with ms := { s1.ms with noTicket := rest } }
    match s2.stream t with
    | some st => s2.giveTicket t st.ctx rec64
    | none => s2

/-- XF_RESUME (R414): a ticket in use is freed and its stream is ready to translate again; any other sets BAD_RESUME. -/
def execXfResume (w : BusWr) (s : State) : Host.Outcome State Fault Refusal :=
  .next (s.openWrite Off.XF_RESUME w fun s1 =>
    let n := w.val.toNat % 1024
    match s1.ms.tickets.find? fun t => t.num == n with
    | none => s1.fset F.XF_STATUS.BAD_RESUME 1
    | some t =>
      (s1.freeTicketNum n).updStream t.stream fun y => { y with park := none, resumed := true })

/-! ### Invalidation (R405 to R407) -/

/-- INV_VA and INV_COUNT. -/
def State.invVa (s : State) : Nat :=
  s.fget F.INV_VA_HI.VA_HI * 0x100000000 + s.fget F.INV_VA_LO.VA_LO / 4096 * 4096

/-- A cached translation that SCOPE selects (R405). -/
def State.invTlb (s : State) (t : Tlb) : Bool :=
  match s.fget F.INV_CTRL.SCOPE with
  | 0 => t.ctx == s.fget F.INV_CTRL.CTX && rangesMeet t.vpn t.pages (s.invVa / 4096) (s.fget F.INV_COUNT.COUNT)
  | 1 => t.ctx == s.fget F.INV_CTRL.CTX
  | 2 => true
  | _ => false

/-- A cached ledger entry that SCOPE selects. -/
def State.invExpert (s : State) (x : Nat) : Bool :=
  match s.fget F.INV_CTRL.SCOPE with
  | 2 => true
  | 3 => decide ((x + 65536 - s.fget F.INV_VA_LO.VA_LO % 65536) % 65536 < s.fget F.INV_COUNT.COUNT)
  | _ => false

/-- An access whose translation SCOPE selects: the page entry that it used, or its expert's ledger entry (R405, R406). -/
def State.invUsed (s : State) (u : Used) : Bool :=
  let v := vaBits u.va
  u.ctx != fwCtx &&
  (if vaWindow v < 2 then s.invTlb { ctx := u.ctx, vpn := u.vpn, pages := u.pages, ppn := 0, w := false, prot := false }
   else s.invExpert (bitsAt v 39 16))

/-- Every access translated with a selected entry has completed: the blocks in flight, and the status words that another package
has not acknowledged (R406, R482). -/
def State.invQuiet (s : State) : Bool :=
  (s.engs.all fun x => x.2.streams.all fun t => t.flight.all fun f => !s.invUsed f.use) && s.link.acks.all fun w => !s.invUsed w.use

/-- INV_GO (R405, R407): the invalidation starts; a write while one is in progress is ignored and reported. -/
def execInvGo (w : BusWr) (s : State) : Host.Outcome State Fault Refusal :=
  .next (s.busWrite Off.INV_CTRL w fun s1 =>
    if s1.flag F.INV_CTRL.GO then s1.fset F.MEM_STATUS.INV_WR_DROP 1
    else
      let s2 := s1.writePlain Off.INV_CTRL w.val.toNat false
      if bitAt w.val.toNat 2 then s2.fset F.INV_CTRL.GO 1 else s2)

/-- INV_DONE (R406): the selected entries go, and GO clears, once every access translated with one has completed. -/
def execInvDone (s : State) : Host.Outcome State Fault Refusal :=
  .next (if s.flag F.INV_CTRL.GO && s.invQuiet then
    ((s.dropTlbs s.invTlb).dropLedger fun _ x => s.invExpert x).fset F.INV_CTRL.GO 0
  else s)

/-! ### Cellar bursts (R416, R417) -/

/-- Marks beats as poisoned (R389). -/
def State.markPoison (s : State) (l : List Nat) : State :=
  l.foldl (fun st a =>
    { st with ms := { st.ms with poison := st.ms.poison.set (fun _ => false) (st.foldAddr a / 64) true } }) s

/-- CELLAR_BURST_DATA (R416, R417): `n` bytes of a burst arrive, with the poisoned beats among them; data of an abandoned
burst is an orphan. The port counts the poisoned beats that it receives (R531). -/
def execCellarBurstData (p : Fin 2) (seq n : Nat) (poison : List (BitVec 48)) (s : State) : Host.Outcome State Fault Refusal :=
  .next (
    let s1 := s.countSat (F.CXL_ERR.POISON p.val) poison.length
    if s.ms.bursts.any fun b => b.port == p.val && b.seq == seq then
      let add := fun (b : Burst) => if b.port = p.val ∧ b.seq = seq then { b with got := b.got + n } else b
      ({ s1 with ms := { s1.ms with bursts := s1.ms.bursts.map add } }).markPoison (poison.map BitVec.toNat)
    else if s.ms.dead.contains seq then s1.countSat F.CELLAR_EVENTS.ORPHAN 1
    else s)

/-- CELLAR_GAP_EXPIRY (R417, R396): the partial burst is discarded and counted, and its stream parks with ABANDON, or its
fill is abandoned. -/
def execCellarGapExpiry (p : Fin 2) (seq : Nat) (s : State) : Host.Outcome State Fault Refusal :=
  .next (
    let lost := fun (st : State) => ({ st with ms := { st.ms with dead := st.ms.dead ++ [seq] } }).countSat F.CELLAR_EVENTS.ABANDON 1
    match s.ms.bursts.find? fun b => b.port == p.val && b.seq == seq && decide (b.got < b.need) with
    | some b =>
      (lost { s with ms := { s.ms with bursts := s.ms.bursts.filter fun c => !(c.port == p.val && c.seq == seq) } }).parkBlock
        b.strm b.k xfAbandon
    | none =>
      match s.ms.fills.find? fun f => f.seq == seq && decide ((ldCellar f.entry - 0x100000000000) / 0x20000000000 = p.val) with
      | some f => lost (s.abandonFill f.expert)
      | none => s)

/-! ### Switching and preemption (R418 to R424) -/

/-- A task that waits to run: with a command, not parked, of another context than the active one. -/
def State.isReady (s : State) (e n : Nat) : Bool :=
  (s.slotCmd e n).isSome && (s.eng e).active != some ((s.eng e).slot n).ctx && !s.slotParked e n

/-- The slots of the running tasks. -/
def State.runningSlots (s : State) (e : Nat) : List Nat :=
  (List.range 4).filter fun n => (s.slotCmd e n).isSome && (s.eng e).active == some ((s.eng e).slot n).ctx

/-- The running MATMULs of an engine, by room sequence number and slot. -/
def State.matmuls (s : State) (e : Nat) : List (Nat × Nat) :=
  (s.runningSlots e).filterMap fun n => match s.slotCmd e n with
    | some c => if dOpcode c.desc = 2 then some (c.seq, n) else none
    | none => none

/-- The slot of the MATMUL that the array serves: the earliest in the room (R418). -/
def State.arraySlot (s : State) (e : Nat) : Option Nat :=
  ((s.matmuls e).find? fun p => (s.matmuls e).all fun q => decide (p.1 ≤ q.1)).map fun p => p.2

/-- Some slot holds a ready task of another context. -/
def State.anyReady (s : State) (e : Nat) : Bool := (List.range 4).any (s.isReady e)

/-- Requests a switch of an engine (R420). -/
def State.wantSwitch (s : State) (e : Nat) : State := s.setEng e { s.eng e with wantSw := true }

/-- LATE_THRESH_EXPIRY (R420): every running task has been stalled for LATE_THRESH cycles. -/
def execLateThreshExpiry (e : EngIx) (s : State) : Host.Outcome State Fault Refusal :=
  .next (if s.anyReady e.val && (s.runningSlots e.val).all (s.stalled e.val) then s.wantSwitch e.val else s)

/-- QUANTUM_EXPIRY (R420): a nonzero QUANTUM has passed since the context became active. -/
def execQuantumExpiry (e : EngIx) (s : State) : Host.Outcome State Fault Refusal :=
  .next (if s.fget (F.ENG_SCHED.QUANTUM (engRoom e.val) (e.val % 5)) != 0 && s.anyReady e.val then s.wantSwitch e.val else s)

/-- PREEMPT (R420, R444): a write of one requests a switch. -/
def execPreempt (e : EngIx) (w : BusWr) (s : State) : Host.Outcome State Fault Refusal :=
  .next (s.openWrite (Off.ENG_SCHED (engRoom e.val) (e.val % 5)) w fun s1 =>
    if bitAt w.val.toNat 0 then
      (s1.fset (F.ENG_SCHED.PREEMPT (engRoom e.val) (e.val % 5)) 1).wantSwitch e.val
    else s1)

/-- The slot after which the incoming context is sought: that of the MATMUL that the array serves, or of the first running task
(R420). -/
def State.outSlot (s : State) (e : Nat) : Nat := (s.arraySlot e).getD ((s.runningSlots e).headD 3)

/-- The incoming context of a switch (R420). -/
def State.incoming (s : State) (e : Nat) : Option Nat :=
  (((List.range 4).map fun i => (s.outSlot e + 1 + i) % 4).find? (s.isReady e)).map fun n => ((s.eng e).slot n).ctx

/-- The save frame of a task slot (R422). -/
def State.saveFrame (s : State) (e n : Nat) : Nat := s.saveBase + (e * 4 + n) * 262144

/-- Some exact register of a MATMUL in progress is nonzero (R207, R422). -/
def MmProg.exNonzero (p : MmProg) : Bool := !(p.main.ex.isEmpty && p.main.exf.isEmpty && p.shad.ex.isEmpty && p.shad.exf.isEmpty)

/-- Saves an outgoing MATMUL (R207, R422): its exact registers, 192 KiB, if any is nonzero, and its tile registers and positions.
No rule lays the frame out: the bytes of the parts that are saved are free, those of the exact registers first (assumption log
87), and what they hold stays in the slot and the command, from which the task goes on unchanged. SAVED sets. -/
def State.saveTask (s : State) (e n : Nat) : State :=
  let ex := match (s.slotCmd e n).bind (·.prog) with
    | some q => q.exNonzero
    | none => false
  let p := s.freeBytes (if ex then 262144 else 65536)
  let s1 := p.2.physWrite (s.saveFrame e n + (if ex then 0 else 196608)) p.1
  let x := s1.eng e
  s1.setEng e (x.setSlot n { x.slot n with saved := true })

/-- A SWITCH_OUT or SWITCH_IN record of a task, when FLUE_SWITCH is one (R424). -/
def State.flueSwitch (s : State) (ty e n : Nat) : State :=
  if s.flag F.MEM_CTRL.FLUE_SWITCH then
    match s.slotCmd e n with
    | some c => s.flueTask ty c
    | none => s
  else s

/-- The switch to context `c` (R421, R422, R424). -/
def State.switchTo (s : State) (e c : Nat) : State :=
  let out := s.runningSlots e
  let s1 := ((s.matmuls e).map fun p => p.2).foldl (fun st n => st.saveTask e n) s
  let s2 := out.foldl (fun st n => st.flueSwitch 6 e n) s1
  let x := s2.eng e
  let y := (List.range 4).foldl (fun z n =>
    if (z.slot n).ctx = c then z.setSlot n { z.slot n with saved := false } else z) { x with active := some c, wantSw := false }
  let s3 := s2.setEng e y
  (s3.runningSlots e).foldl (fun st n => st.flueSwitch 7 e n) s3

/-- CONTEXT_SWITCH (R420, R421): a requested switch, or the turn of a waiting context on an engine whose active context has
no task; a request that finds no ready task clears. -/
def execContextSwitch (e : EngIx) (s : State) : Host.Outcome State Fault Refusal :=
  .next (let x := s.eng e.val
    if s.enginesOn && (x.wantSw || (s.runningSlots e.val).isEmpty) then
      let s1 := (s.fset (F.ENG_SCHED.PREEMPT (engRoom e.val) (e.val % 5)) 0).setEng e.val { x with wantSw := false }
      match s1.incoming e.val with
      | some c => s1.switchTo e.val c
      | none => s1
    else s)

end Sys2Proof.Machine
end

