-- ==== Sys2Proof/Machine/Bar.lean ====
section
/-! DEFINITION. Host accesses through BAR4 (R504, R505, R510, R563): where they reach HBM, what the party wall does with
writes, and those that wait while the mirror queue is full (R494). -/

namespace Sys2Proof.Machine

/-- VF `v` + 1 is enabled (R506, R521). -/
def State.vfUp (s : State) (v : Nat) : Bool := s.hs.vfEn && decide (v + 1 ≤ s.hs.numVfs)

/-- Base and size of a VF's aperture in HBM (R510, R528). -/
def State.aperture (s : State) (v : Nat) : Nat × Nat :=
  (s.fget (F.VF_APT_BASE.BASE v) * 0x200000, s.fget (F.VF_APT_SIZE.SIZE v) * 0x200000)

/-- The HBM window behind a function's BAR4: base and size (R504, R505, R510). -/
def State.barWindow (s : State) (f : Func) : Nat × Nat :=
  match f with
  | .pf => (0, hbmEnd)
  | .vf v => s.aperture v.val

/-- The device answers host accesses of a function: the link is up, the package runs, and a VF is enabled. -/
def State.barOn (s : State) (f : Func) : Bool :=
  s.running && s.hs.linkUp &&
    match f with
    | .pf => true
    | .vf v => s.vfUp v.val

/-- The part of an access inside the window, in HBM: address and bytes; nothing in RETAIN (R505, R510, R563). -/
def State.barSpan (s : State) (b : BarAcc) : Nat × Nat :=
  let w := s.barWindow b.fn
  let k := if s.fget F.PWR_STATUS.STATE = 2 then 0 else min b.n (w.2 - b.off)
  (w.1 + b.off, min k (hbmEnd - (w.1 + b.off)))

/-- A beat of the range is poisoned (R389). -/
def State.anyPoison (s : State) (a n : Nat) : Bool :=
  n != 0 && (List.range ((a + n - 1) / 64 + 1 - a / 64)).any fun i => s.poisoned ((a / 64 + i) * 64)

/-- A host write: the bytes inside the window go to HBM; blocked by the wall it is dropped and counted (R495). -/
def State.barWrite (s : State) (b : BarAcc) (l : List Byte) : State :=
  let p := s.barSpan b
  if p.2 = 0 then s
  else if s.wallBlocks p.1 p.2 then s.countSat F.PW_COUNTS.BLOCKED 1
  else s.physWrite p.1 (l.take p.2)

/-- A host read: the bytes inside the window, then zeros; what a poisoned beat shows is free. -/
def State.barRead (s : State) (b : BarAcc) : State :=
  let p := s.barSpan b
  let zeros := List.replicate (b.n - p.2) (0 : Byte)
  if s.anyPoison p.1 p.2 then
    let f := s.freeBytes p.2
    f.2.emit (.memRead b.fn (f.1 ++ zeros))
  else s.emit (.memRead b.fn (((List.range p.2).map fun i => s.physByte (p.1 + i)) ++ zeros))

/-- The access must wait: a window write while the mirror queue is full (R494). -/
def State.barHeld (s : State) (b : BarAcc) : Bool :=
  let p := s.barSpan b
  b.wdata.isSome && !s.wallBlocks p.1 p.2 && s.wallFull p.1 p.2

/-- Carries out one access. -/
def State.barDo (s : State) (b : BarAcc) : State :=
  if s.barOn b.fn then
    match b.wdata with
    | some l => s.barWrite b l
    | none => s.barRead b
  else s

/-- Carries out waiting accesses in order up to the first that must wait. -/
def State.barDrain : List BarAcc → State → State
  | [], s => { s with hs := { s.hs with barWait := [] } }
  | b :: l, s =>
    if s.barHeld b then { s with hs := { s.hs with barWait := b :: l } }
    else State.barDrain l (s.barDo b)

/-- The waiting accesses go on, as far as the mirror queue lets them. -/
def State.serveBar (s : State) : State := if s.hs.barWait.isEmpty then s else State.barDrain s.hs.barWait s

/-- BAR4_ACCESS (R504, R505, R510, R494, R495, R563): in order behind the accesses that wait. -/
def execBar4Access (f : Func) (addr : BitVec 39) (wdata : Option (List Byte)) (n : Nat) (s : State) :
    Host.Outcome State Fault Refusal :=
  .next (if s.barOn f then
    State.barDrain (s.hs.barWait ++ [{ fn := f, off := addr.toNat, wdata := wdata, n := match wdata with
      | some l => l.length
      | none => n }]) s
  else s)

end Sys2Proof.Machine
end

