-- ==== Sys2Proof/Machine/Cores.lean ====
section
/-! DEFINITION. The room control cores (R335 to R350): CALL, service entries, routine faults, and the integer, data-memory,
branch and system instructions of R339. The words of these classes are those of the vendor's instruction reference, so each
command carries its operands; an instruction whose room executes nothing changes nothing. -/

namespace Sys2Proof.Machine

/-! ### The executing pair -/

/-- The room's control cores are powered and out of reset (R561, R566). -/
def State.roomPowered (s : State) (r : Nat) : Bool := s.running && s.fget F.PWR_STATUS.STATE != 2 && !s.roomOut r

/-- They execute: a fenced room runs nothing (R62, R563). -/
def State.coresOn (s : State) (r : Nat) : Bool := s.roomPowered r && !s.roomFenced r

/-- An action whose instruction holds CO until it acts (R353). -/
def HeldAct.holdsCo : HeldAct → Bool
  | .signal _ _ _ => true
  | .read _ => true
  | .esel _ _ => true
  | .sys => true
  | .tload _ => false
  | .ret _ => false

/-- No committed instruction of the pair holds CO until its comparison (R353, R366). -/
def RoomSt.coFree (x : RoomSt) : Bool := x.held.all fun h => match h with
  | some a => !a.holdsCo
  | none => true

/-- The pair executes and no instruction holds its commit stage. -/
def State.coreRuns (s : State) (r : Nat) : Bool :=
  s.coresOn r && (s.room r).core.active && (s.room r).core.wait == .none && (s.room r).coFree

/-- Replaces the pair's registers. -/
def State.setCore (s : State) (r : Nat) (c : CoreSt) : State := s.setRoom r { s.room r with core := c }

/-- The program counter passes the instruction (R337). -/
def CoreSt.advance (c : CoreSt) : CoreSt := { c with pc := (c.pc + 4) % 0x8000 }

/-- A checker runs (R335, R371). -/
def State.hasChecker (s : State) (r : Nat) : Bool := s.fget (F.CC_ROLE.CHECK r) != 3

/-- The coprocessor state of the top-level call that executes (R349, R355). -/
def RoomSt.cop (x : RoomSt) : CallSt := if x.core.call.isSome then x.callSt.getD CallSt.fresh else x.svcSt

/-- Replaces the coprocessor state of the top-level call that executes. -/
def RoomSt.setCop (x : RoomSt) (k : CallSt) : RoomSt :=
  if x.core.call.isSome then { x with callSt := some k } else { x with svcSt := k }

/-- Releases the slot that the executing call holds (R352, R355). -/
def State.releaseSlot (s : State) (r : Nat) : State :=
  let x := s.room r
  match x.cop.eng with
  | some e =>
    let s1 := s.setEng e ((s.eng e).setSlot x.cop.slot TaskSlot.empty)
    s1.setRoom r (x.setCop { x.cop with eng := none })
  | none => s

/-- Binds task slot `n` of engine `e` to the executing call: its tile registers read zero (R200, R355). -/
def State.bindSlot (s : State) (r e n : Nat) : State :=
  let x := s.room r
  let s1 := s.setEng e ((s.eng e).setSlot n { TaskSlot.empty with ctx := x.core.ctx, used := true, bound := true })
  s1.setRoom r (x.setCop { x.cop with eng := some e, slot := n })

/-- ESEL acts (R352, R355): the slot held is released and one of logical engine `le` is bound; gc takes 0, 1 where no slot is
free, or 2 where no unit is behind the index, and the instruction passes on. -/
def State.doEsel (s : State) (r gc le : Nat) : State :=
  let s1 := s.releaseSlot r
  let done := fun (t : State) (v : W32) => t.setCore r ((t.room r).core.wrG gc v).advance
  match s1.physEng r le with
  | none => done s1 2
  | some e =>
    match (s1.eng e).freeSlotOf with
    | none => done s1 1
    | some n => done (s1.bindSlot r e n) 0

/-- Carries out a released action (R366). -/
def State.release (s : State) (r : Nat) (a : HeldAct) : State :=
  let x := s.room r
  match a with
  | .signal op l v => s.applySignal op l v
  | .read i => s.setRoom r { x with reading := x.reading ++ [i] }
  | .esel gc le => s.doEsel r gc le
  | .sys => s
  | .tload n => s.setRoom r { x with tloads := x.tloads.map fun t => if t.num = n then { t with commit := some true } else t }
  | .ret v => s.setRoom r { x with callSt := x.callSt.map fun k => { k with ret := some v } }

/-- An instruction commits: its action and the state that the checker follows wait for the comparison; where no checker runs, the
action acts at once (R365, R366, R371). -/
def State.commitIns (s : State) (r : Nat) (a : Option HeldAct) : State :=
  if s.hasChecker r then
    let x := s.room r
    s.setRoom r { x with held := x.held ++ [a], delay := x.delay ++ [(x.core, x.dmem)] }
  else
    match a with
    | some h => s.release r h
    | none => s

/-- The registers and the program counter of a room whose result is undefined are free after every instruction (R12, R379). -/
def State.blurCore (s : State) (r : Nat) : State :=
  let x := s.room r
  let d := s.draw
  d.2.setCore r { x.core with
    g := FMap.setRange (fun _ => 0) [] 1 31 fun i => BitVec.ofNat 32 (bitsAt d.1 (32 * i) 32)
    pc := d.1 % 0x2000 * 4 }

/-- The main core executes an instruction, if it can. -/
def State.ins (s : State) (r : Pipe) (f : CoreSt → State) : Host.Outcome State Fault Refusal :=
  .next (if s.coreRuns r.val then
    let t := f (s.room r.val).core
    if (s.room r.val).undef then t.blurCore r.val else t
  else s)

/-- Commits with the registers `c` and passes on. -/
def State.finish (s : State) (r : Pipe) (c : CoreSt) : State := (s.setCore r.val c.advance).commitIns r.val none

/-! ### Squashed instructions (R358 to R361, R364) -/

/-- A data-memory access that R340 allows at the level. -/
def dmOk (fw : Bool) (a n : Nat) : Bool := a % n == 0 && decide (a + n ≤ 0x40000) && (fw || decide (0x10000 ≤ a))

/-- A TLOAD in EX claims an entry and starts its transfer; an address outside R340 transfers zeros (R359). -/
def State.startTload (s : State) (r e n t a : Nat) (commit : Option Bool) : State :=
  let x := s.room r
  let v := if dmOk x.core.fw a 16 then BitVec.ofNat 128 (Mem.leNat x.dmem a 16) else 0
  s.setRoom r { x with nextTload := x.nextTload + 1, tloads := x.tloads ++
    [{ num := x.nextTload, eng := e, slot := n, treg := t, data := v, commit := commit }] }

/-- The tag under which a routine's requests travel: the CALL's; free in a service entry. -/
def State.routineTag (s : State) (r : Nat) : Nat × State :=
  match (s.room r).core.call.bind (s.room r).find with
  | some c => (dTag c.desc, s)
  | none => s.draw

/-- One block of a TPREF (R361): it is translated; a fault drops it without a trace but the caches'; a hit touches its line, a miss
is fetched into the floor cache, from another package by a RD_REQ. -/
def State.prefetchBlock (s : State) (r ctx va : Nat) : State :=
  let fl := roomFloor r
  let x := s.xlate r ctx va false
  match x.1 with
  | .bad _ _ => x.2
  | .ok pa =>
    let a := x.2.foldAddr pa
    match x.2.lineHit fl a 4096 with
    | some h => x.2.fillLine fl a h.1 h.2 id
    | none =>
      if x.2.isFar pa then
        let dst := remotePkg pa
        let rt := x.2.floorRoute fl dst
        if rt.2.noPath rt.1 dst then rt.2
        else
          let q := (rt.2.nextBseq dst 0).1
          let g := rt.2.routineTag r
          let s1 := g.2.originate { Msg.blank 1 0 dst with stag := g.1, addr := remoteOff pa, ctx := ctx % 2048, aux := 4096 }
          { s1 with link := { s1.link with fetches := s1.link.fetches ++ [{ pkg := dst, bseq := q, fl := fl, blk := a / 4096 }] } }
      else
        let p := x.2.readPiece pa 4096
        p.2.fillLine fl a p.1.bytes ((List.range 64).filter fun i => x.2.poisoned (a + 64 * i)) id

/-- A TPREF in EX: its blocks (R361). -/
def State.prefetch (s : State) (r ctx va n : Nat) : State :=
  (List.range n).foldl (fun st i => st.prefetchBlock r ctx (va / 4096 * 4096 + i * 4096)) s

/-- A younger instruction that reached EX is squashed (R358, R359, R361, R364). -/
def State.squash1 (s : State) (r : Nat) (y : Young) : State :=
  let x := s.room r
  match y with
  | .tload t a =>
    match x.cop.eng with
    | none => s.count (F.WRONG_PATH_BYTES.COUNT r) 16
    | some e =>
      if 8 ≤ x.tloads.length then s
      else (s.startTload r e x.cop.slot t.val a.toNat (some false)).count (F.WRONG_PATH_BYTES.COUNT r) 16
  | .tpref va n => (s.prefetch r x.core.ctx va.toNat (n.val + 1)).count (F.WRONG_PATH_BYTES.COUNT r) (4096 * (n.val + 1))

/-- The younger instructions in EX are squashed. -/
def State.squash (s : State) (r : Nat) (l : List Young) : State := l.foldl (fun st y => st.squash1 r y) s

/-! ### Ends of routines and entries (R346, R347, R349) -/

/-- An instruction that waited executes again when its routine resumes (R353). -/
def State.rewait (s : State) (k : CallSt) (c : CoreSt) : CoreSt :=
  match c.wait with
  | .ewait _ t =>
    match k.ended.find? fun p => p.1 == t with
    | some p => c.seeTicket t p.2
    | none => c
  | .lwait _ l _ _ => c.seeLatch l (s.latchVal l)
  | _ => c

/-- The service entry ends and the interrupted routine resumes, its coprocessor state unchanged (R349); the slot that the
entry bound is released (R355). -/
def State.endService (s : State) (r : Nat) : State :=
  let x := (s.room r).relabel (s.room r).level
  let y := match x.svcSaved with
    | [] => { x with core := CoreSt.idle, svcSt := CallSt.fresh }
    | c :: rest =>
      if c.call.isSome then
        { x with core := s.rewait (x.callSt.getD CallSt.fresh) c, svcSaved := rest, svcSt := CallSt.fresh }
      else
        let k := x.svcStack.headD CallSt.fresh
        { x with core := s.rewait k c, svcSaved := rest, svcSt := k, svcStack := x.svcStack.drop 1 }
  (s.setRoom r y).freeBound r

/-- A fault of the executing routine (R347). A service entry belongs to no CALL: its fault is one of the firmware stream,
and the entry ends (assumption log 36). -/
def State.routineFault (s : State) (r : Nat) (i : FaultInfo) : State :=
  match (s.room r).core.call with
  | some q =>
    (s.updCmd r q fun d => if d.fault.isSome then d else { d with fault := some i }).stopRoutine r
  | none =>
    let a := s.draw
    let b := a.2.draw
    (b.2.fwFault r i a.1 b.1).endService r

/-- An instruction faults at CO: the younger ones are squashed (R347, R358). -/
def State.coFault (s : State) (r : Pipe) (i : FaultInfo) : State := (s.squash r.val r.young).routineFault r.val i

/-- A ROUTINE fault of a detail (R347). -/
def routineInfo (detail : Nat) : FaultInfo := { FaultInfo.mk0 causeRoutine with detail := some detail }

/-- A ROUTINE fault 0x02 at a data-memory address (R347). -/
def dmInfo (a : Nat) : FaultInfo := { routineInfo 2 with faultAddr := some a }

/-- ROUTINE_LIMIT_EXPIRY (R350): a routine-level call that executes exceeds a nonzero limit; the count stands still in service
entries and in IDLE. -/
def execRoutineLimitExpiry (r : RoomIx) (s : State) : Host.Outcome State Fault Refusal :=
  .next (let c := (s.room r.val).core
    if s.coresOn r.val && s.fget F.PWR_STATUS.STATE == 0 && c.active && c.call.isSome && !c.fw && s.fget (F.ROUTINE_LIMIT.LIMIT r.val) != 0
    then s.routineFault r.val (routineInfo 5) else s)

/-! ### Top-level calls (R341 to R345, R348, R349, R373) -/

/-- The spare joins as checker at the first top-level call or service entry after the copy (R373). Stores are mirrored into it until
then, so that it holds what the main core's data memory holds (R365; assumption log 66). -/
def State.joinSpare (s : State) (r : Nat) : State :=
  let x := s.room r
  if s.flag (F.CC_ROLE.JOINING r) && x.copied then
    let s1 := (s.fset (F.CC_ROLE.CHECK r) (s.fget (F.CC_ROLE.SPARE r))).fset (F.CC_ROLE.SPARE r) 3
    let s2 := (s1.fset (F.CC_ROLE.UNVERIFIED r) 0).fset (F.CC_ROLE.JOINING r) 0
    ((s2.fset (F.LS_STATUS.SWAP_DONE r) 1).fset (F.LS_CTRL.SWAP_REQ r) 0).setRoom r
      { x with copied := false, chkCore := x.core, chkMem := x.dmem, spareMem := [] }
  else s

/-- An entry that a call at the level may use (R342). -/
def callable (fw : Bool) (e : Nat) : Bool := entryOk e && (fw || !bitAt e 14)

/-- The firmware context has no context ID: what g4 shows of it is free. -/
def State.g4Of (s : State) (ctx : Nat) : Nat × State := if ctx = fwCtx then (s.draw.1 % 2048, s.draw.2) else (ctx % 2048, s)

/-- The routine and argument areas read zero where the previous call had another context (R341). -/
def RoomSt.callMem (x : RoomSt) (ctx : Nat) : FMap Byte :=
  if x.prevCtx = some ctx then x.dmem else x.dmem.filter fun p => decide (p.1 < 0x10000)

/-- Writes the arguments of a CALL (R345). -/
def putArgs (m : FMap Byte) (d : BitVec 2048) : FMap Byte :=
  (List.range (dNargs d)).foldl (fun q i => Mem.writeLe q (0x10000 + 8 * i) 8 (dArg d i)) m

/-- The registers at the entry of a CALL (R345). -/
def callRegs (nargs tag g4 : Nat) : FMap W32 :=
  let put := FMap.set fun _ => (0 : W32)
  put (put (put (put [] 1 (BitVec.ofNat 32 nargs)) 2 0x10000) 3 (BitVec.ofNat 32 tag)) 4 (BitVec.ofNat 32 g4)

/-- The top-level call of a CALL begins, on the active bank (R344); while a service entry executes it is the routine that the
entry's end resumes. -/
def State.startCall (s : State) (r : Nat) (c : RoomCmd) (entry : Nat) : State :=
  let s1 := s.joinSpare r
  let g := s1.g4Of c.ctx
  let x := g.2.room r
  let core : CoreSt :=
    { g := callRegs (dNargs c.desc) (dTag c.desc) g.1, pc := bitsAt entry 0 13 * 4
      bank := s.fget (F.RS_CTRL.ACTIVE r), stack := [], fw := !c.isTenant, ctx := c.ctx, call := some c.seq
      wait := CoreWait.none, active := true }
  let y := { x with dmem := putArgs (x.callMem c.ctx) c.desc, prevCtx := some c.ctx, callSt := some CallSt.fresh }
  (g.2.setRoom r (if x.core.active then { y with svcSaved := y.svcSaved ++ [core] } else { y with core := core })).updCmd r c.seq
    fun d => { d with started := true }

/-- CALL (R309, R338, R342 to R347). -/
def execCall (c : CmdRef) (s : State) : Host.Outcome State Fault Refusal :=
  .next (match s.plainStart c 9 with
    | some d =>
      let r := c.room.val
      let e := routineEntry ((s.room r).bank (s.fget (F.RS_CTRL.ACTIVE r))) (dRoutine d.desc)
      if !callLegal d.desc then s.draw.2.workUndef r d.seq s.draw.1
      else if !s.coresOn r || (s.room r).core.call.isSome || ((s.room r).svcSaved.any fun c => c.call.isSome) then s
      else if !callable (!d.isTenant) e then s.workFault r d.seq (routineInfo 3)
      else s.startCall r d e
    | none => s)

/-- The registers at a service entry (R345, R349). -/
def entryCore (entry bank : Nat) : CoreSt :=
  { CoreSt.idle with pc := bitsAt entry 0 13 * 4, bank := bank, fw := true, ctx := fwCtx, active := true }

/-- A waiting HALTW completes (R339). -/
def CoreSt.wakeHalt (c : CoreSt) : CoreSt := if c.wait = .haltw then { c with wait := .none }.advance else c

/-- A descriptor waits for delivery to a room (R286, R288, R349). -/
def State.deliveryWaits (s : State) (r : Nat) : Bool :=
  s.ctxs.any fun e => decide (e.1 < 2048) && e.2.unread &&
    (let p := dPlace (s.headDesc e.2); plLegal p && s.physRoom (plFloor p) (plRoom p) == some r)

/-- A service entry may be taken (R349): routine 0 exists, an event is pending, the pair is at an instruction boundary, and no entry
executes, unless it waits in HALTW. -/
def State.mayEnter (s : State) (r : Nat) : Bool :=
  let x := s.room r
  s.coresOn r && s.hasService r && x.coFree && (!x.core.active || x.core.call.isSome || x.core.wait == .haltw) &&
    (x.evDone || x.evLatch || s.deliveryWaits r)

/-- The registers and program counter of an interrupted routine go into the firmware area of the data memory (R349). Where and in
which order no rule says: 132 bytes at a free place become free, and the routine resumes with what it had (assumption log 119). -/
def State.saveRoutine (s : State) (r : Nat) : State :=
  let d := s.draw
  let f := d.2.freeBytes 132
  let x := f.2.room r
  f.2.setRoom r { x with dmem := Mem.writeList x.dmem (d.1 % 16352 * 4) f.1 }

/-- SERVICE_ENTRY (R344, R345, R349, R353, R358): the younger instructions are squashed, the interrupted routine is kept, the
events are taken, and routine 0 begins. -/
def execServiceEntry (r : RoomIx) (sq : List Young) (s : State) : Host.Outcome State Fault Refusal :=
  .next (if s.mayEnter r.val then
    let s1 := (s.squash r.val sq).joinSpare r.val
    let s2 := if (s1.room r.val).core.active then s1.saveRoutine r.val else s1
    let x := s2.room r.val
    let b := s2.fget (F.RS_CTRL.ACTIVE r.val)
    let y := { x with core := entryCore (routineEntry (x.bank b) 0) b, evDone := false, evLatch := false }
    s2.setRoom r.val (if !x.core.active then y
      else if x.core.call.isSome then { y with svcSaved := x.core.wakeHalt :: x.svcSaved }
      else { y with svcSaved := x.core.wakeHalt :: x.svcSaved, svcStack := x.svcSt :: x.svcStack, svcSt := CallSt.fresh })
  else s)

/-! ### Integer instructions (R339) -/

/-- An instruction that writes one register. -/
def State.alu (s : State) (r : Pipe) (rd : GReg) (v : CoreSt → W32) : Host.Outcome State Fault Refusal :=
  s.ins r fun c => s.finish r (c.wrG rd.val (v c))

/-- IADD (R339). -/
def execIadd (r : Pipe) (rd ra : GReg) (b : Src2) (s : State) : Host.Outcome State Fault Refusal :=
  s.alu r rd fun c => c.rd ra.val + c.src2 b

/-- ISUB (R339). -/
def execIsub (r : Pipe) (rd ra : GReg) (b : Src2) (s : State) : Host.Outcome State Fault Refusal :=
  s.alu r rd fun c => c.rd ra.val - c.src2 b

/-- IAND (R339). -/
def execIand (r : Pipe) (rd ra : GReg) (b : Src2) (s : State) : Host.Outcome State Fault Refusal :=
  s.alu r rd fun c => c.rd ra.val &&& c.src2 b

/-- IOR (R339). -/
def execIor (r : Pipe) (rd ra : GReg) (b : Src2) (s : State) : Host.Outcome State Fault Refusal :=
  s.alu r rd fun c => c.rd ra.val ||| c.src2 b

/-- IXOR (R339). -/
def execIxor (r : Pipe) (rd ra : GReg) (b : Src2) (s : State) : Host.Outcome State Fault Refusal :=
  s.alu r rd fun c => c.rd ra.val ^^^ c.src2 b

/-- INOR (R339). -/
def execInor (r : Pipe) (rd ra : GReg) (b : Src2) (s : State) : Host.Outcome State Fault Refusal :=
  s.alu r rd fun c => ~~~(c.rd ra.val ||| c.src2 b)

/-- A shift: by less than 32, or a free value (assumption log 30). -/
def State.shift (s : State) (r : Pipe) (rd : GReg) (b : Src2) (v : CoreSt → Nat → W32) : Host.Outcome State Fault Refusal :=
  s.ins r fun c =>
    let n := (c.src2 b).toNat
    if n < 32 then s.finish r (c.wrG rd.val (v c n))
    else s.draw.2.finish r (c.wrG rd.val (BitVec.ofNat 32 s.draw.1))

/-- SHL (R339). -/
def execShl (r : Pipe) (rd ra : GReg) (b : Src2) (s : State) : Host.Outcome State Fault Refusal :=
  s.shift r rd b fun c n => c.rd ra.val <<< n

/-- SHR (R339): logical. -/
def execShr (r : Pipe) (rd ra : GReg) (b : Src2) (s : State) : Host.Outcome State Fault Refusal :=
  s.shift r rd b fun c n => c.rd ra.val >>> n

/-- SHRA (R339): arithmetic. -/
def execShra (r : Pipe) (rd ra : GReg) (b : Src2) (s : State) : Host.Outcome State Fault Refusal :=
  s.shift r rd b fun c n => (c.rd ra.val).sshiftRight n

/-- 1 or 0 in a register (R339; assumption log 37). -/
def boolWord (b : Bool) : W32 := if b then 1 else 0

/-- CMPLT (R339): signed. -/
def execCmplt (r : Pipe) (rd ra : GReg) (b : Src2) (s : State) : Host.Outcome State Fault Refusal :=
  s.alu r rd fun c => boolWord ((c.rd ra.val).slt (c.src2 b))

/-- CMPLTU (R339): unsigned. -/
def execCmpltu (r : Pipe) (rd ra : GReg) (b : Src2) (s : State) : Host.Outcome State Fault Refusal :=
  s.alu r rd fun c => boolWord ((c.rd ra.val).ult (c.src2 b))

/-- CMPEQ (R339). -/
def execCmpeq (r : Pipe) (rd ra : GReg) (b : Src2) (s : State) : Host.Outcome State Fault Refusal :=
  s.alu r rd fun c => boolWord (c.rd ra.val == c.src2 b)

/-- IMOVH (R339): the immediate in the upper half, zeros below. -/
def execImovh (r : Pipe) (rd : GReg) (imm : BitVec 16) (s : State) : Host.Outcome State Fault Refusal :=
  s.alu r rd fun _ => imm ++ 0#16

/-- ISEL (R339): ra where rc is not zero, rb where it is (assumption log 37). -/
def execIsel (r : Pipe) (rd ra rb rc : GReg) (s : State) : Host.Outcome State Fault Refusal :=
  s.alu r rd fun c => if c.rd rc.val = 0 then c.rd rb.val else c.rd ra.val

/-- The number of zero bits above the highest one bit; 32 for zero. -/
def leadZeros (v : W32) : Nat := ((List.range 32).find? fun i => v.getLsbD (31 - i)).getD 32

/-- CLZ (R339). -/
def execClz (r : Pipe) (rd ra : GReg) (s : State) : Host.Outcome State Fault Refusal :=
  s.alu r rd fun c => BitVec.ofNat 32 (leadZeros (c.rd ra.val))

/-- BITCNT (R339). -/
def execBitcnt (r : Pipe) (rd ra : GReg) (s : State) : Host.Outcome State Fault Refusal :=
  s.alu r rd fun c => BitVec.ofNat 32 (popCount (c.rd ra.val).toNat)

/-- IMUL (R339): the low 32 bits. -/
def execImul (r : Pipe) (rd ra rb : GReg) (s : State) : Host.Outcome State Fault Refusal :=
  s.alu r rd fun c => c.rd ra.val * c.rd rb.val

/-! ### Data memory (R339, R340) -/

/-- An access of `n` bytes at an allowed address goes on; any other faults with detail 0x02 (R340, R347). -/
def State.access (s : State) (r : Pipe) (ra : GReg) (off : BitVec 16) (n : Nat) (f : CoreSt → Nat → State) :
    Host.Outcome State Fault Refusal :=
  s.ins r fun c =>
    let a := c.memAddr ra off
    if dmOk c.fw a n then f c a else s.coFault r (dmInfo a)

/-- The `n`-byte word of the data memory at address `a`. -/
def State.dmWord (s : State) (r : Pipe) (a n : Nat) : Nat := Mem.leNat (s.room r.val).dmem a n

/-- A load of `n` bytes. -/
def State.loadN (s : State) (r : Pipe) (rd ra : GReg) (off : BitVec 16) (n : Nat) (v : Nat → W32) :
    Host.Outcome State Fault Refusal :=
  s.access r ra off n fun c a => s.finish r (c.wrG rd.val (v (s.dmWord r a n)))

/-- A store of the `n` low bytes of a value. -/
def State.storeN (s : State) (r : Pipe) (ra : GReg) (off : BitVec 16) (n : Nat) (v : CoreSt → Nat) :
    Host.Outcome State Fault Refusal :=
  s.access r ra off n fun c a =>
    let x := s.room r.val
    (s.setRoom r.val { x with dmem := Mem.writeLe x.dmem a n (v c) }).finish r c

/-- LD8 (R339): sign-extended. -/
def execLd8 (r : Pipe) (rd ra : GReg) (off : BitVec 16) (s : State) : Host.Outcome State Fault Refusal :=
  s.loadN r rd ra off 1 fun v => (BitVec.ofNat 8 v).signExtend 32

/-- LD8U (R339). -/
def execLd8u (r : Pipe) (rd ra : GReg) (off : BitVec 16) (s : State) : Host.Outcome State Fault Refusal :=
  s.loadN r rd ra off 1 (BitVec.ofNat 32)

/-- LD16 (R339): sign-extended. -/
def execLd16 (r : Pipe) (rd ra : GReg) (off : BitVec 16) (s : State) : Host.Outcome State Fault Refusal :=
  s.loadN r rd ra off 2 fun v => (BitVec.ofNat 16 v).signExtend 32

/-- LD16U (R339). -/
def execLd16u (r : Pipe) (rd ra : GReg) (off : BitVec 16) (s : State) : Host.Outcome State Fault Refusal :=
  s.loadN r rd ra off 2 (BitVec.ofNat 32)

/-- LD32 (R339). -/
def execLd32 (r : Pipe) (rd ra : GReg) (off : BitVec 16) (s : State) : Host.Outcome State Fault Refusal :=
  s.loadN r rd ra off 4 (BitVec.ofNat 32)

/-- ST8 (R339). -/
def execSt8 (r : Pipe) (rs ra : GReg) (off : BitVec 16) (s : State) : Host.Outcome State Fault Refusal :=
  s.storeN r ra off 1 fun c => (c.rd rs.val).toNat

/-- ST16 (R339). -/
def execSt16 (r : Pipe) (rs ra : GReg) (off : BitVec 16) (s : State) : Host.Outcome State Fault Refusal :=
  s.storeN r ra off 2 fun c => (c.rd rs.val).toNat

/-- ST32 (R339). -/
def execSt32 (r : Pipe) (rs ra : GReg) (off : BitVec 16) (s : State) : Host.Outcome State Fault Refusal :=
  s.storeN r ra off 4 fun c => (c.rd rs.val).toNat

/-- An instruction on an even-odd register pair; an odd first register is no instruction (R339, R347 detail 0x01). -/
def State.pair (s : State) (r : Pipe) (rd : GReg) (f : Host.Outcome State Fault Refusal) : Host.Outcome State Fault Refusal :=
  if rd.val % 2 = 0 then f else s.ins r fun _ => s.coFault r (routineInfo 1)

/-- LD2W (R339): the even register takes the word at the lower address. -/
def execLd2w (r : Pipe) (rd ra : GReg) (off : BitVec 16) (s : State) : Host.Outcome State Fault Refusal :=
  s.pair r rd (s.access r ra off 8 fun c a =>
    s.finish r ((c.wrG rd.val (BitVec.ofNat 32 (s.dmWord r a 4))).wrG (rd.val + 1) (BitVec.ofNat 32 (s.dmWord r (a + 4) 4))))

/-- ST2W (R339): the even register goes to the lower address. -/
def execSt2w (r : Pipe) (rs ra : GReg) (off : BitVec 16) (s : State) : Host.Outcome State Fault Refusal :=
  s.pair r rs (s.storeN r ra off 8 fun c => (c.rd rs.val).toNat + 2 ^ 32 * (c.rd (rs.val + 1)).toNat)

/-! ### Branches (R339, R344, R346) -/

/-- A conditional branch: taken when the test holds; the younger instructions are those of a wrong prediction, which are
squashed (R358). -/
def State.branch (s : State) (r : Pipe) (tgt : BitVec 13) (test : CoreSt → Bool) :
    Host.Outcome State Fault Refusal :=
  s.ins r fun c =>
    let s1 := s.squash r.val r.young
    let d := if test c then { c with pc := tgt.toNat * 4 } else c.advance
    (s1.setCore r.val d).commitIns r.val none

/-- BRZ (R339). -/
def execBrz (r : RoomIx) (ra : GReg) (tgt : BitVec 13) (sq : List Young) (s : State) :
    Host.Outcome State Fault Refusal :=
  s.branch { room := r, young := sq } tgt fun c => c.rd ra.val == 0

/-- BRNZ (R339). -/
def execBrnz (r : RoomIx) (ra : GReg) (tgt : BitVec 13) (sq : List Young) (s : State) :
    Host.Outcome State Fault Refusal :=
  s.branch { room := r, young := sq } tgt fun c => c.rd ra.val != 0

/-- BREQ (R339). -/
def execBreq (r : RoomIx) (ra rb : GReg) (tgt : BitVec 13) (sq : List Young) (s : State) :
    Host.Outcome State Fault Refusal :=
  s.branch { room := r, young := sq } tgt fun c => c.rd ra.val == c.rd rb.val

/-- BRNE (R339). -/
def execBrne (r : RoomIx) (ra rb : GReg) (tgt : BitVec 13) (sq : List Young) (s : State) :
    Host.Outcome State Fault Refusal :=
  s.branch { room := r, young := sq } tgt fun c => c.rd ra.val != c.rd rb.val

/-- BRLT (R339): signed. -/
def execBrlt (r : RoomIx) (ra rb : GReg) (tgt : BitVec 13) (sq : List Young) (s : State) :
    Host.Outcome State Fault Refusal :=
  s.branch { room := r, young := sq } tgt fun c => (c.rd ra.val).slt (c.rd rb.val)

/-- BRLTU (R339): unsigned. -/
def execBrltu (r : RoomIx) (ra rb : GReg) (tgt : BitVec 13) (sq : List Young) (s : State) :
    Host.Outcome State Fault Refusal :=
  s.branch { room := r, young := sq } tgt fun c => (c.rd ra.val).ult (c.rd rb.val)

/-- A branch that always goes to an address: what a wrong prediction let into EX is squashed (R358). -/
def State.jumpTo (s : State) (r : Pipe) (c : CoreSt) : State := ((s.squash r.val r.young).setCore r.val c).commitIns r.val none

/-- JMP (R339). -/
def execJmp (r : Pipe) (tgt : BitVec 13) (s : State) : Host.Outcome State Fault Refusal :=
  s.ins r fun c => s.jumpTo r { c with pc := tgt.toNat * 4 }

/-- JMPR (R339): to the byte offset in a register; where that is no aligned offset of a bank, to a free one. -/
def execJmpr (r : Pipe) (ra : GReg) (s : State) : Host.Outcome State Fault Refusal :=
  s.ins r fun c =>
    let t := (c.rd ra.val).toNat
    if t % 4 = 0 ∧ t < 0x8000 then s.jumpTo r { c with pc := t }
    else s.draw.2.jumpTo r { c with pc := s.draw.1 % 0x2000 * 4 }

/-- RCALL (R342, R344): the same bank; deeper than 16, or an entry that the level may not call, faults with detail 0x03. -/
def execRcall (r : Pipe) (rt : Fin 4096) (s : State) : Host.Outcome State Fault Refusal :=
  s.ins r fun c =>
    let e := routineEntry ((s.room r.val).bank c.bank) rt.val
    if c.stack.length < 16 ∧ callable c.fw e then
      s.jumpTo r { c with stack := (c.pc + 4) % 0x8000 :: c.stack, pc := bitsAt e 0 13 * 4 }
    else s.coFault r (routineInfo 3)

/-- RET (R346): at depth zero the top-level call ends, with g1 as its status. A service entry that returns resumes what it
interrupted. -/
def execRet (r : Pipe) (s : State) : Host.Outcome State Fault Refusal :=
  s.ins r fun c =>
    match c.stack with
    | a :: rest => s.jumpTo r { c with stack := rest, pc := a }
    | [] =>
      let s1 := s.squash r.val r.young
      if c.call.isSome then (s1.setCore r.val CoreSt.idle).commitIns r.val (some (.ret (c.rd 1).toNat))
      else (s1.commitIns r.val none).endService r.val

/-! ### System instructions (R339, R347, R349) -/

/-- DMBAR (R339): in a core whose data-memory accesses act in program order it only passes. -/
def execDmbar (r : Pipe) (s : State) : Host.Outcome State Fault Refusal := s.ins r fun c => s.finish r c

/-- HALTW (R339). -/
def execHaltw (r : Pipe) (s : State) : Host.Outcome State Fault Refusal :=
  s.ins r fun c => (s.setCore r.val { c with wait := .haltw }).commitIns r.val none

/-- A firmware-level instruction; at routine level it faults with detail 0x01 (R339, R347). -/
def State.fwOnly (s : State) (r : Pipe) (f : CoreSt → State) : Host.Outcome State Fault Refusal :=
  s.ins r fun c => if c.fw then f c else s.coFault r (routineInfo 1)

/-- SYSRD (R339): which registers there are no rule says; the value read is free. -/
def execSysrd (r : Pipe) (rd : GReg) (_n : BitVec 16) (s : State) : Host.Outcome State Fault Refusal :=
  s.fwOnly r fun c => s.draw.2.finish r (c.wrG rd.val (BitVec.ofNat 32 s.draw.1))

/-- SYSWR (R339, R366): no rule names a register that it writes; the write holds CO until its comparison. -/
def execSyswr (r : Pipe) (_ra : GReg) (_n : BitVec 16) (s : State) : Host.Outcome State Fault Refusal :=
  s.fwOnly r fun c => (s.setCore r.val c.advance).commitIns r.val (some .sys)

/-- TRAPRET (R349): the end of a service entry; in a firmware routine that is none it only passes. -/
def execTrapret (r : Pipe) (s : State) : Host.Outcome State Fault Refusal :=
  s.fwOnly r fun c => if c.call.isSome then s.finish r c else (s.commitIns r.val none).endService r.val

end Sys2Proof.Machine
end

