-- ==== Sys2Proof/Machine/Crc.lean ====
section
/-! DEFINITION. CRC-32C with the parameters of R120: polynomial 0x1EDC_6F41, reflected input and output, initial value
0xFFFF_FFFF, final XOR 0xFFFF_FFFF. -/

namespace Sys2Proof.Machine

/-- One bit of the reflected CRC. -/
def crcBit (c : W32) : W32 := if c.getLsbD 0 then (c >>> 1) ^^^ 0x82F63B78#32 else c >>> 1

/-- One byte of the reflected CRC. -/
def crcByte (c : W32) (b : Byte) : W32 :=
  crcBit (crcBit (crcBit (crcBit (crcBit (crcBit (crcBit (crcBit (c ^^^ b.setWidth 32))))))))

/-- CRC-32C of a list of bytes. -/
def crc32c (l : List Byte) : W32 := (l.foldl crcByte 0xFFFFFFFF#32) ^^^ 0xFFFFFFFF#32

end Sys2Proof.Machine
end

