-- ==== Sys2Proof/Machine/Lockstep.lean ====
section
/-! DEFINITION. Lockstep of the control cores (R365 to R374, R382) and the routine store (R375 to R380). -/

namespace Sys2Proof.Machine

/-! ### Lockstep losses (R366 to R371) -/

/-- The oldest committed instruction leaves the delay registers: its action is released (R366). -/
def State.releaseOne (s : State) (r : Nat) : State :=
  let x := s.room r
  match x.held with
  | [] => s
  | a :: rest =>
    let s1 := s.setRoom r { x with held := rest, delay := x.delay.drop 1 }
    match a with
    | some h => s1.release r h
    | none => s1

/-- Every held action is released: the main core runs alone (R371). -/
def State.releaseAll (s : State) (r : Nat) : State :=
  (s.room r).held.foldl (fun st _ => st.releaseOne r) s

/-- The checker executes the oldest instruction of the delay registers (R365): it reaches the main core's registers and data
memory, but for what its own write and store, in `chk`, make of them where the two differ. -/
def RoomSt.checkerStep (x : RoomSt) (main chk : CommitRec) : RoomSt :=
  match x.delay with
  | [] => x
  | d :: _ =>
    let y := { x with chkCore := d.1, chkMem := d.2 }
    if main = chk then y
    else
      let c := chk.gwr.foldl (fun (c : CoreSt) p => c.wrG p.1.val p.2) { y.chkCore with pc := chk.pc % 0x8000 }
      let m := match chk.store with
        | some (a, v, be) => (List.range 8).foldl (fun m i =>
            if be.getLsbD i then Mem.writeLe m (a.toNat + i) 1 (bitsAt v.toNat (8 * i) 8) else m) y.chkMem
        | none => y.chkMem
      { y with chkCore := c, chkMem := m }

/-- A lockstep loss with the cause bits of LS_STATUS (R371). -/
def State.lockstepLoss (s : State) (r : Nat) (bits : Nat) : State :=
  let s1 := (s.releaseAll r).fset (F.CC_ROLE.CHECK r) 3
  let s2 := s1.fset (F.CC_ROLE.UNVERIFIED r) 1
  let s3 := (s2.setReg (Off.LS_UNVER_LO r) (s.ts.setWidth 32)).setReg (Off.LS_UNVER_HI r) ((s.ts >>> 32).setWidth 32)
  let s4 := s3.forBits { off := Off.LS_STATUS r, lsb := 0, width := 4 } bits
  (s4.mgmtIrq r).pkgEvent evPkgFault

/-- LOCKSTEP_COMPARE (R365 to R368, R371): the checker has executed the oldest committed instruction, whose action is released; a
difference, rails that are not complementary, or a parity error is a loss. -/
def execLockstepCompare (r : RoomIx) (main chk : CommitRec) (railsOk parityOk : Bool) (s : State) :
    Host.Outcome State Fault Refusal :=
  .next (if s.coresOn r.val && s.hasChecker r.val then
    let bits := b2n (railsOk && main != chk) + 2 * b2n (!railsOk) + 4 * b2n (!parityOk)
    let s1 := (s.setRoom r.val ((s.room r.val).checkerStep main chk)).releaseOne r.val
    if bits = 0 then s1 else s1.lockstepLoss r.val bits
  else s)

/-- LOCKSTEP_INJECTION (R369, R371): a passing one is recorded, a failed one is a loss. -/
def execLockstepInjection (r : RoomIx) (passed : Bool) (s : State) : Host.Outcome State Fault Refusal :=
  .next (if s.coresOn r.val && s.hasChecker r.val then
    if passed then s.setReg (Off.LS_INJECT_LAST r.val) (s.ts.setWidth 32) else s.lockstepLoss r.val 8
  else s)

/-! ### Swapping the spare in (R372, R373) -/

/-- The core that is neither main, spare nor out of service: the stopped checker. -/
def State.stoppedCore (s : State) (r : Nat) : Nat :=
  ((List.range 3).find? fun k => k != s.fget (F.CC_ROLE.MAIN r) && k != s.fget (F.CC_ROLE.SPARE r) &&
    !(s.room r).outOfSvc.contains k).getD 3

/-- An accepted swap begins: the core that SWAP_OUT names goes out of service, and the other is main (R373). A stopped checker that
becomes main has its own general registers and data memory, as the loss left them; that it goes on with the executing call at
its place is the model's choice (assumption log 66). -/
def State.startSwap (s : State) (r : Nat) : State :=
  let m := s.fget (F.CC_ROLE.MAIN r)
  let k := s.stoppedCore r
  let out := if s.flag (F.LS_CTRL.SWAP_OUT r) then k else m
  let main := if s.flag (F.LS_CTRL.SWAP_OUT r) then m else k
  let s1 := ((s.fset (F.CC_ROLE.MAIN r) main).fset (F.CC_ROLE.JOINING r) 1).fset (F.LS_CTRL.SWAP_REQ r) 1
  let x := s1.room r
  let y := { x with outOfSvc := x.outOfSvc ++ [out], copied := false }
  s1.setRoom r (if s.flag (F.LS_CTRL.SWAP_OUT r) then y
    else { y with core := { x.core with g := x.chkCore.g }, dmem := x.chkMem })

/-- SWAP_REQ (R372, R373, R382): a keyed write of LS_CTRL; a request is refused without a loss, without a spare, or while a
swap joins. -/
def execSwapReq (r : RoomIx) (w : BusWr) (s : State) : Host.Outcome State Fault Refusal :=
  .next (s.keyedWrite (Off.LS_CTRL r.val) w fun keyed s1 =>
    if keyed then
      let s2 := s1.fset (F.LS_CTRL.SWAP_OUT r.val) (bitsAt w.val.toNat 1 1)
      if bitAt w.val.toNat 0 then
        if !s2.flag (F.CC_ROLE.UNVERIFIED r.val) || s2.fget (F.CC_ROLE.SPARE r.val) == 3 || s2.flag (F.CC_ROLE.JOINING r.val)
        then s2.fset (F.LS_STATUS.SWAP_REFUSED r.val) 1
        else s2.startSwap r.val
      else s2
    else s1)

/-- SWAP_COPY_END (R373): the spare holds the main core's data memory. -/
def execSwapCopyEnd (r : RoomIx) (s : State) : Host.Outcome State Fault Refusal :=
  .next (if s.coresOn r.val && s.flag (F.CC_ROLE.JOINING r.val)
    then s.setRoom r.val { s.room r.val with copied := true, spareMem := (s.room r.val).dmem } else s)

/-! ### The routine store (R375 to R380) -/

/-- The inactive bank of a room. -/
def State.inactive (s : State) (r : Nat) : Nat := 1 - s.fget (F.RS_CTRL.ACTIVE r)

/-- Changes a bank. -/
def RoomSt.setBank (x : RoomSt) (b : Nat) (m : FMap Byte) : RoomSt := if b = 0 then { x with bank0 := m } else { x with bank1 := m }

/-- ROUTINE_STORE_WINDOW_WRITE (R376): a word of the inactive bank, dropped while a swap checks or DRAINING is one. -/
def execRoutineStoreWindowWrite (r : RoomIx) (word : BitVec 13) (w : BusWr) (s : State) : Host.Outcome State Fault Refusal :=
  .next (s.busWrite (roomBase r.val + 0x18000 + 4 * word.toNat) w fun s1 =>
    let x := s1.room r.val
    if s1.roomOut r.val then s1
    else if x.checking || s1.flag (F.RS_CTRL.DRAINING r.val) then s1.fset (F.RS_CTRL.WRITE_DROP r.val) 1
    else s1.setRoom r.val (x.setBank (s1.inactive r.val)
      (Mem.writeLe (x.bank (s1.inactive r.val)) (4 * word.toNat) 4 w.val.toNat)))

/-- Free contents of an engine: its buffer, tile registers with their shadows, and accumulator slots. -/
def State.spoilEngine (s : State) (e : Nat) : State :=
  let f := s.freeBytes 0x300000
  (List.range 4).foldl (fun st n =>
    let d := st.draw
    let x := d.2.eng e
    let t := x.slot n
    let a := freeSlot (x.accSlot n).st (x.accSlot n).owner d.1
    let g := fun (k : Nat) => FMap.setRange (fun _ => 0) [] 0 16 fun i =>
      BitVec.ofNat 128 (bitsAt d.1 (4000000 + (n * 32 + k + i) * 128) 128)
    let y := if t.used then x.setSlot n { t with treg := g 0, shad := g 16 } else x
    d.2.setEng e (if a.st = .free then y else y.setAcc n a)) (f.2.setEng e { f.2.eng e with buf := Mem.writeList [] 0 f.1 })

/-- The inboxes of a room with free bindings. -/
def RoomSt.freeInboxes (x : RoomSt) (d : Nat) : RoomSt :=
  (List.range 4).foldl (fun y i => y.setInbox i { ctx := bitsAt d (12 * i) 11, bound := bitAt d (12 * i + 11) }) x

/-- What R379 leaves undefined of a room (R12): both banks, the data memories, the pair's registers and program counter, the inbox
bindings, the room store and the engines of the room become free, and the routine that executes may fault. Until the room is
defined again, every instruction and every completion leaves free results (`State.blurCore`, `State.cmdComplete`). -/
def State.spoilRoom (s : State) (r : Nat) : State :=
  let a := s.freeBytes 0x10000
  let b := a.2.freeBytes 0xC0000
  let c := b.2.freeBytes 0x1000000
  let g := c.2.draw
  let x := (g.2.room r).freeInboxes g.1
  let mem := fun (n : Nat) => Mem.writeList [] 0 ((b.1.drop (n * 0x40000)).take 0x40000)
  let y := { x with
    bank0 := Mem.writeList [] 0 (a.1.take 0x8000), bank1 := Mem.writeList [] 0 (a.1.drop 0x8000)
    dmem := mem 0, chkMem := mem 1, spareMem := mem 2, store := Mem.writeList [] 0 c.1, undef := true, undefSwap := false }
  let s0 := g.2.setRoom r y
  let s1 := (List.range 5).foldl (fun st k => st.spoilEngine (r * 5 + k)) (if x.core.active then s0.blurCore r else s0)
  if x.core.active && bitAt s1.draw.1 0 then s1.draw.2.routineFault r (FaultInfo.mk0 causeRoutine) else s1.draw.2

/-- DEBUG_PATH_WRITE (R379, R12): a write into the active bank; the result is undefined for the room. -/
def execDebugPathWrite (r : RoomIx) (word : BitVec 13) (val : W32) (s : State) : Host.Outcome State Fault Refusal :=
  .next (if s.roomPowered r.val then
    let s1 := s.spoilRoom r.val
    let x := s1.room r.val
    let act := s1.fget (F.RS_CTRL.ACTIVE r.val)
    s1.setRoom r.val (x.setBank act (Mem.writeLe (x.bank act) (4 * word.toNat) 4 val.toNat))
  else s)

/-- SWAP (R377): a write of one starts the check of the inactive bank, or is refused while one runs or DRAINING is one. -/
def execSwap (r : RoomIx) (w : BusWr) (s : State) : Host.Outcome State Fault Refusal :=
  .next (s.openWrite (Off.RS_CTRL r.val) w fun s1 =>
    if bitAt w.val.toNat 1 && s1.roomPowered r.val then
      let x := s1.room r.val
      if x.checking || s1.flag (F.RS_CTRL.DRAINING r.val) then s1.fset (F.RS_CTRL.SWAP_REFUSED r.val) 1
      else (s1.fset (F.RS_CTRL.SWAP r.val) 1).setRoom r.val { x with checking := true }
    else s1)

/-- The CRC of a bank over its 32,768 bytes (R377). -/
def bankCrc (m : FMap Byte) : W32 := crc32c (Mem.bytes m 0 0x8000)

/-- Flips ACTIVE and sets DRAINING (R377); a bank is swapped in, as R379 asks of an undefined room. -/
def State.flipBank (s : State) (r : Nat) : State :=
  let s1 := (s.fset (F.RS_CTRL.ACTIVE r) (s.inactive r)).fset (F.RS_CTRL.DRAINING r) 1
  s1.setRoom r { s1.room r with undefSwap := (s1.room r).undef }

/-- SWAP_CHECK_END (R377). -/
def execSwapCheckEnd (r : RoomIx) (s : State) : Host.Outcome State Fault Refusal :=
  .next (let x := s.room r.val
    if x.checking && s.roomPowered r.val then
      let s1 := (s.setRoom r.val { x with checking := false }).fset (F.RS_CTRL.SWAP r.val) 0
      if bankCrc (x.bank (s.inactive r.val)) = s.reg (Off.RS_CRC r.val) then s1.flipBank r.val
      else s1.fset (F.RS_CTRL.CRC_ERR r.val) 1
    else s)

/-- A top-level call runs on bank `b` (R378). -/
def RoomSt.runsOn (x : RoomSt) (b : Nat) : Bool :=
  (x.core.active && x.core.bank == b) || x.svcSaved.any fun c => c.bank == b

/-- DRAINING_END (R378, R379): DRAINING clears once no call remains on the old bank; a room whose result was undefined is
defined again if the bank was swapped in after that. -/
def execDrainingEnd (r : RoomIx) (s : State) : Host.Outcome State Fault Refusal :=
  .next (if s.flag (F.RS_CTRL.DRAINING r.val) && s.roomPowered r.val && !(s.room r.val).runsOn (s.inactive r.val) then
    let x := s.room r.val
    (s.fset (F.RS_CTRL.DRAINING r.val) 0).setRoom r.val { x with undef := x.undef && !x.undefSwap, undefSwap := false }
  else s)

end Sys2Proof.Machine
end

