-- ==== Sys2Proof/Machine/Wall.lean ====
section
/-! DEFINITION. The party wall (R489 to R497): state changes, epochs and the commands of its registers. -/

namespace Sys2Proof.Machine

/-- Changes the wall's own state. -/
def State.setWall (s : State) (f : WallSt → WallSt) : State := { s with link := { s.link with wall := f s.link.wall } }

/-! ### State changes (R496) -/

/-- The wall goes STALE with a cause: 1 INIT, 2 BREACH, 3 EPOCH_ERR. -/
def State.wallStale (s : State) (cause : Nat) : State :=
  let s1 := ((s.fset F.PW_STATUS.STATE 1).fset F.PW_STATUS.CAUSE cause).fset F.PW_CTRL.RESYNC 0
  s1.setWall fun w => { w with copyE := none }

/-- The queue, the unacknowledged epochs and the log are discarded: what is captured, what waits to be sent and what the
partner has sent. -/
def State.wallDiscard (s : State) : State :=
  let s1 := s.setWall fun w => { w with openW := [], sent := [], log := [] }
  let keep := fun (l : List Msg) => l.filter fun m => m.vc != 3
  let p := s1.port 4
  let s2 := s1.setPort 4 { p with egress := keep p.egress }
  { s2 with link := { s2.link with out := keep s2.link.out } }

/-- A wall breach: STALE with cause BREACH, WALL_BREACH set, everything in progress discarded (R496, R515). -/
def State.wallBreach (s : State) : State :=
  (((s.wallStale 2).wallDiscard).fset F.PW_STATUS.WALL_BREACH 1).pkgEvent evWall

/-- Port P leaves LIVE (R496). -/
def State.wallDown (s : State) : State :=
  if s.wallState = 3 then s.fset F.PW_STATUS.STATE 4
  else if s.wallState = 2 then s.wallStale 2
  else s

/-- The wall mirrors with the partner of instance value `v`. -/
def State.wallMirror (s : State) (v : W32) : State :=
  let s1 := ((s.fset F.PW_STATUS.STATE 3).fset F.PW_STATUS.CAUSE 0).fset F.PW_CTRL.RESYNC 0
  s1.setWall fun w => { w with copyE := none, inst := v }

/-- Port P reaches LIVE with a partner of instance value `v` (R496). -/
def State.wallUp (s : State) (v : W32) : State :=
  if s.wallState = 4 then (if v = s.link.wall.inst then s.wallMirror v else s.wallBreach) else s

/-- The instance value of the partner that port P last met. -/
def State.partnerInst (s : State) : W32 :=
  match (s.port 4).lastNbr with
  | some p => p.2
  | none => 0

/-- The package itself enters RETAIN or warm reset (R496). -/
def State.wallLeave (s : State) : State := if 2 ≤ s.wallState then s.wallBreach else s

/-! ### The handshake (R489) -/

/-- CRC-32C of the window registers (R489). -/
def State.windowCrc (s : State) : W32 :=
  crc32c ((List.range 8).flatMap fun n => leList (s.reg (Off.PW_BASE n)).toNat 4 ++ leList (s.reg (Off.PW_SIZE n)).toNat 4)

/-- The handshake passes (R489). -/
def State.handshake (s : State) (i : TrainInfo) : Bool :=
  i.wallEn == s.flag F.PW_ROLE.WALL_EN &&
  (!i.wallEn || (i.keeperEff != s.keeperEff && i.winCrc == s.windowCrc && i.logSize == s.fget F.PW_LOG_SIZE.SIZE))

/-! ### Epochs (R491, R492) -/

/-- EPOCH_TIMER (R491): in MODE 0 the open epoch closes. -/
def execEpochTimer (s : State) : Host.Outcome State Fault Refusal :=
  .next (if s.running && !s.flag F.PW_CTRL.MODE && decide (3 ≤ s.wallState) then s.closeEpoch else s)

/-- The windows in ascending address. -/
def State.windows (s : State) : List (Nat × Nat) :=
  (((List.range 8).map fun n => (s.fget (F.PW_BASE.BASE n) * 0x200000, s.fget (F.PW_SIZE.SIZE n) * 0x200000)).filter
    fun p => p.2 != 0).mergeSort fun a b => decide (a.1 ≤ b.1)

/-- The copy of every window as the epoch PW_OUT_EPOCH (R496); captured writes go to the next epoch. -/
def State.copyWindows (s : State) : State :=
  let e := s.fget F.PW_OUT_EPOCH.EPOCH
  let ws := s.windows.flatMap fun p => (List.range (p.2 / 4096)).map fun i => p.1 + i * 4096
  let partner := s.pkgNum ^^^ 1
  let s1 := ws.foldl (fun st a => st.originate
    { Msg.blank 8 3 partner with addr := a, aux := e, data := (List.range 4096).map fun i => s.physByte (a + i) }) s
  let s2 := s1.originate { Msg.blank 9 3 partner with addr := ws.length * 4096, aux := e }
  (s2.setWall fun w => { w with openW := [], copyE := some e }).count F.PW_OUT_EPOCH.EPOCH 1

/-- CLOSE (R491): the open epoch closes, in MIRROR and in GRACE. -/
def State.wallClose (s : State) : State := if decide (3 ≤ s.wallState) then s.closeEpoch else s

/-- RESYNC (R496): on the effective keeper, STALE, with port P LIVE and its handshake passed. -/
def State.wallResync (s : State) : State :=
  if s.wallState == 1 && s.keeperEff && s.fget (F.PORT_STATE.STATE 4) == 7 && (s.port 4).wallOk then
    ((s.fset F.PW_STATUS.STATE 2).fset F.PW_CTRL.RESYNC 1).copyWindows
  else s

/-- TAKEOVER (R497): on a package that is not keeper, while the wall is STALE. -/
def State.wallTakeover (s : State) : State :=
  if s.wallState == 1 && !s.flag F.PW_ROLE.KEEPER then
    (s.fset F.PW_CTRL.TAKEOVER 1).setWall fun x => { x with takeover := true }
  else s

/-- One bus write of PW_CTRL: it uses the lock once (R92 to R94), and every bit that it sets acts, the lowest bit first
(assumption log 35); TAKEOVER, the K field, only when the write is keyed. -/
def State.pwCtrlWrite (s : State) (w : BusWr) : State :=
  s.keyedWrite Off.PW_CTRL w fun keyed s1 =>
    let s2 := if bitAt w.val.toNat 1 then s1.wallClose else s1
    let s3 := if bitAt w.val.toNat 2 then s2.wallResync else s2
    if keyed && bitAt w.val.toNat 3 then s3.wallTakeover else s3

/-- CLOSE (R491): a write of one to PW_CTRL.CLOSE. -/
def execClose (w : BusWr) (s : State) : Host.Outcome State Fault Refusal := .next (s.pwCtrlWrite w)

/-- RESYNC (R496): a write of one to PW_CTRL.RESYNC. -/
def execResync (w : BusWr) (s : State) : Host.Outcome State Fault Refusal := .next (s.pwCtrlWrite w)

/-- TAKEOVER (R497): a keyed write of one to PW_CTRL.TAKEOVER. -/
def execTakeover (w : BusWr) (s : State) : Host.Outcome State Fault Refusal := .next (s.pwCtrlWrite w)

/-- WALL_GRACE_EXPIRY (R496). -/
def execWallGraceExpiry (s : State) : Host.Outcome State Fault Refusal :=
  .next (if s.running && s.wallState == 4 then s.wallBreach else s)

/-- Base of the log. -/
def State.logBase (s : State) : Nat :=
  s.fget F.PW_LOG_BASE_HI.ADDR_HI * 0x100000000 + s.fget F.PW_LOG_BASE_LO.ADDR_LO * 0x200000

/-- The messages of epoch `e` received so far. -/
def WallSt.epoch (w : WallSt) (e : Nat) : List (Nat × Nat × List Byte) := w.log.filter fun p => p.1 == e

/-- The data bytes of messages. -/
def logBytes (l : List (Nat × Nat × List Byte)) : Nat := (l.map fun p => p.2.2.length).sum

/-- The partner's copy begins here when its first message meets a STALE wall on a package that is not the effective keeper
(R496; assumption log 39). -/
def State.joinResync (s : State) (e : Nat) : State :=
  if s.wallState = 1 ∧ !s.keeperEff ∧ (s.port 4).wallOk then
    ((s.fset F.PW_STATUS.STATE 2).fset F.PW_CTRL.RESYNC 1).setWall fun w => { w with copyE := some e, log := [] }
  else s

/-- A message of epoch `e` arrives (R492, R496): of the copy epoch it goes to its window at once, of any other to the log,
whose layout in HBM no rule gives. -/
def State.epochData (s : State) (e a : Nat) (l : List Byte) : State :=
  let s1 := s.joinResync e
  let note := fun (st : State) => st.setWall fun w => { w with log := w.log ++ [(e, a, l)] }
  if s1.wallState = 2 ∧ !s1.keeperEff ∧ s1.link.wall.copyE = some e then note (s1.rawWrite a l)
  else if 2 ≤ s1.wallState then
    let f := s1.freeBytes (l.length + 32)
    note (f.2.rawWrite (s1.logBase + logBytes s1.link.wall.log) f.1)
  else s1

/-- An epoch is applied: its log goes to the windows in message order, without capture, and is acknowledged (R490, R492). -/
def State.applyEpoch (s : State) (e : Nat) : State :=
  let l := s.link.wall.epoch e
  let copy := s.wallState == 2 && s.link.wall.copyE == some e
  let s1 := if copy then s else l.foldl (fun st p => st.rawWrite p.2.1 p.2.2) s
  let s2 := (s1.fset F.PW_IN_APPLIED.EPOCH e).setWall fun w => { w with log := w.log.filter fun p => p.1 != e }
  let s3 := s2.originate { Msg.blank 0x0A 3 (s.pkgNum ^^^ 1) with aux := e }
  if copy && !s.keeperEff then s3.wallMirror s3.partnerInst else s3

/-- The end of epoch `e` with a byte count (R492): applied, or discarded with the wall STALE, cause EPOCH_ERR. -/
def State.epochEnd (s : State) (e n : Nat) : State :=
  if s.wallState < 2 then s
  else if logBytes (s.link.wall.epoch e) = n then s.applyEpoch e
  else
    let s1 := s.setWall fun w => { w with log := w.log.filter fun p => p.1 != e }
    (s1.wallStale 3).pkgEvent evWall

/-- Epoch `e` is acknowledged (R492, R496): in RESYNC the copy epoch's acknowledgement ends the copy. -/
def State.epochAck (s : State) (e : Nat) : State :=
  if s.wallState < 2 then s
  else
    let s1 := (s.fset F.PW_ACKED.EPOCH e).setWall fun w => { w with sent := w.sent.filter fun p => decide (e < p.1) }
    if s.wallState = 2 ∧ s.link.wall.copyE = some e then s1.wallMirror s1.partnerInst else s1

end Sys2Proof.Machine
end

