-- ==== Sys2Proof/Machine/Ports.lean ====
section
/-! DEFINITION. Lorlink ports and rings: flits as they are sent (R454 to R456, R465, R467), training (R472 to R474, R489), the
states of a ring (R475, R476), retraining (R468) and loss of signal. -/

namespace Sys2Proof.Machine

/-! ### Flits (R455, R456) -/

/-- KIND. -/
def hKind (h : W64) : Nat := bitsAt h.toNat 0 4
/-- VC. -/
def hVc (h : W64) : Nat := bitsAt h.toNat 5 3
/-- SEQ. -/
def hSeq (h : W64) : Nat := bitsAt h.toNat 8 10
/-- ACK. -/
def hAck (h : W64) : Nat := bitsAt h.toNat 18 10
/-- ACK_V. -/
def hAckV (h : W64) : Bool := bitAt h.toNat 28
/-- CR_VC. -/
def hCrVc (h : W64) : Nat := bitsAt h.toNat 29 3
/-- CR_COUNT. -/
def hCrCount (h : W64) : Nat := bitsAt h.toNat 32 9
/-- CONT. -/
def hCont (h : W64) : Bool := bitAt h.toNat 41
/-- CSEQ. -/
def hCseq (h : W64) : Nat := bitsAt h.toNat 42 16

/-- A header that holds a reserved value (R456, R459). -/
def hReserved (h : W64) : Bool :=
  decide (4 ≤ hKind h) || bitsAt h.toNat 58 6 != 0 || decide (6 ≤ hCrVc h) ||
    ((hKind h == 1 || hKind h == 3) && decide (6 ≤ hVc h))

/-- The bytes that CRC covers (R455). -/
def flitBytes (f : Flit) : List Byte := leList f.hdr.toNat 8 ++ f.payload

/-- The receive buffer of a VC in flits (R459). -/
def vcBuffer (q vc : Nat) : Nat :=
  if q = 4 then (match vc with
    | 3 => 448
    | 5 => 16
    | _ => 0)
  else match vc with
    | 0 => 32
    | 1 => 192
    | 2 => 192
    | 4 => 64
    | 5 => 16
    | _ => 0

/-- A count by VC. -/
def vcGet (m : FMap Nat) (vc : Nat) : Nat := FMap.get (fun _ => 0) m vc
/-- Replaces a count by VC. -/
def vcSet (m : FMap Nat) (vc n : Nat) : FMap Nat := FMap.set (fun _ => 0) m vc n

/-- The SEQ of the last flit received in order (R456 ACK). -/
def PortSt.lastAck (p : PortSt) : Nat := (p.rxSeq + 1023) % 1024

/-- A header with the port's latest ACK, and the credit count of the VC whose turn it is (R465, R467). -/
def PortSt.stampHdr (p : PortSt) (h : Nat) : W64 :=
  let vc := bitsAt h 8 10 % 6
  BitVec.ofNat 64 (setBitsNat (setBitsNat (setBitsNat (setBitsNat h 18 10 p.lastAck) 28 1 (b2n p.rxAny)) 29 3 vc) 32 9
    (vcGet p.cum vc % 512))

/-- A flit as it is sent now. -/
def PortSt.stamp (p : PortSt) (f : Flit) : Flit :=
  let g := { f with hdr := p.stampHdr f.hdr.toNat }
  { g with crc := crc32c (flitBytes g) }

/-- The port with an index, when there is one. -/
def portIx (q : Nat) : PortIx := if h : q < 5 then ⟨q, h⟩ else 0

/-- Sends the replay buffer again in order, each flit with the latest ACK (R467). -/
def State.resend (s : State) (q : Nat) : State :=
  (s.port q).replay.foldl (fun st e => st.emit (.flit (portIx q) ((st.port q).stamp e.2))) s

/-! ### Rings (R475) -/

/-- The state of a ring. -/
def ringFld (g : Nat) : Fld := { off := Off.RING_STATUS, lsb := 3 * g, width := 3 }
/-- The bias bit of a ring. -/
def biasFld (g : Nat) : Fld := { off := Off.RING_STATUS, lsb := 6 + g, width := 1 }
/-- The JOIN bit of a ring. -/
def joinFld (g : Nat) : Fld := { off := Off.RING_CTRL, lsb := g, width := 1 }

/-- A ring port has reached LIVE. -/
def State.ringUp (s : State) (q : Nat) : State :=
  let g := q / 2
  match s.fget (ringFld g) with
  | 1 => if s.isLive (q ^^^ 1) then s.fset (ringFld g) 2 else s
  | 3 => if s.isLive (q ^^^ 1) then s.fset (ringFld g) 2 else s
  | 4 => s.fset (ringFld g) 3
  | _ => s

/-- A ring port has left LIVE. -/
def State.ringDown (s : State) (q : Nat) : State :=
  let g := q / 2
  match s.fget (ringFld g) with
  | 2 => s.fset (ringFld g) 3
  | 3 => if s.isLive (q ^^^ 1) then s else ((s.fset (ringFld g) 4).fset F.RING_STATUS.ISO_SEEN 1).pkgEvent evLorlink
  | _ => s

/-- Returns `n` flit buffers of a VC (R465). -/
def State.giveBack (s : State) (q vc n : Nat) : State :=
  let p := s.port q
  s.setPort q { p with cum := vcSet p.cum vc ((vcGet p.cum vc + n) % 512) }

/-- Returns the receive buffers that a queued message holds. -/
def State.freeBufs (s : State) (m : Msg) : State :=
  match m.via with
  | some q => s.giveBack q m.vc m.held
  | none => s

/-- A forwarded message is dropped: counted in MISROUTE of the port that received it (R451). -/
def State.dropOnward (s : State) (m : Msg) : State :=
  match m.via with
  | some q => (s.freeBufs m).countSat (F.PORT_CNT3.MISROUTE q) 1
  | none => s

/-- Port `q` is no longer LIVE: of the forwarded messages none waits for it (R451). -/
def State.dropWaiting (s : State) (q : Nat) : State :=
  let p := s.port q
  let hit := fun (m : Msg) => m.via.isSome && m.sent == 0
  (p.egress.filter hit).foldl (fun st m => st.dropOnward m) (s.setPort q { p with egress := p.egress.filter fun m => !hit m })

/-- A port goes to a training state or OFF; the ring or the wall sees it leave LIVE (R451, R474, R475, R496). -/
def State.portTo (s : State) (q st : Nat) : State :=
  let s1 := (if s.isLive q && st != 7 then s.dropWaiting q else s).fset (F.PORT_STATE.STATE q) st
  if s.isLive q && st != 7 then (if q = 4 then s1.wallDown else s1.ringDown q) else s1

/-- A port goes to a state with LAST_ERR. -/
def State.portErr (s : State) (q st err : Nat) : State := (s.portTo q st).fset (F.PORT_STATE.LAST_ERR q) err

/-- A port retrains from EQUALISE (R468). -/
def State.retrain (s : State) (q : Nat) (lane : Option Nat) : State :=
  let p := s.port q
  let bad := match lane with
    | some n => p.badLanes ||| BitVec.ofNat 18 (2 ^ n)
    | none => p.badLanes
  ((s.setPort q { p with badLanes := bad, fecLog := [], nakRun := 0 }).portErr q 3 0xC).countSat (F.PORT_CNT0.RETRAINS q) 1

/-- A ring goes OUT: bias removed, its ports OFF (R474, R475). -/
def State.ringOut (s : State) (g : Nat) : State :=
  let s1 := ((s.fset (ringFld g) 0).fset (biasFld g) 0).fset (joinFld g) 0
  ((s1.portTo (2 * g) 0).portTo (2 * g + 1) 0).emit (.rings (if g = 0 then 0 else 1) false)

/-- A ring begins to join (R475): bias applied, enabled ports begin to train. -/
def State.ringJoin (s : State) (g : Nat) : State :=
  let s1 := ((s.fset (ringFld g) 1).fset (biasFld g) 1).fset (joinFld g) 1
  let go := fun (st : State) (q : Nat) => if st.flag (F.PORT_CTRL.ENABLE q) && st.portState q == 0 then st.portTo q 1 else st
  (go (go s1 (2 * g)) (2 * g + 1)).emit (.rings (if g = 0 then 0 else 1) true)

/-- The PHY of a ring is powered and the PLLs of both its ports are locked (R475, R549, R562). -/
def State.ringPhyOk (s : State) (g : Nat) : Bool :=
  s.fget F.PWR_STATUS.STATE != 2 && bitAt (s.fget F.CLK_STATUS.LORLINK_LOCK) (2 * g) &&
    bitAt (s.fget F.CLK_STATUS.LORLINK_LOCK) (2 * g + 1)

/-- JOIN of one ring is written. -/
def State.writeJoin (s : State) (g : Nat) (on : Bool) : State :=
  let st := s.fget (ringFld g)
  if on && st == 0 then (if s.ringPhyOk g then s.ringJoin g else s)
  else if !on && st != 0 then s.ringOut g
  else s

/-- JOIN (R475): a write of RING_CTRL. -/
def execJoin (w : BusWr) (s : State) : Host.Outcome State Fault Refusal :=
  .next (s.openWrite Off.RING_CTRL w fun s1 => (s1.writeJoin 0 (bitAt w.val.toNat 0)).writeJoin 1 (bitAt w.val.toNat 1))

/-- JOIN_TIMER_EXPIRY (R475, R476). -/
def execJoinTimerExpiry (g : RingIx) (s : State) : Host.Outcome State Fault Refusal :=
  .next (if s.running && s.fget (ringFld g.val) == 1 then
    if s.isLive (2 * g.val) || s.isLive (2 * g.val + 1) then s.fset (ringFld g.val) 3
    else ((s.ringOut g.val).fset F.RING_STATUS.JOIN_FAIL 1).pkgEvent evLorlink
  else s)

/-! ### Training (R472 to R474) -/

/-- Both sides face each other: ring ports of one ring with opposite sides, port P with port P (R473). -/
def facing (q : Nat) (i : TrainInfo) : Bool :=
  if q = 4 then i.side.val == 2 else i.ring.val == q / 2 && i.side.val == 1 - q % 2

/-- Positions bypassed between a ring port and its neighbour (R473). -/
def State.bypassed (s : State) (q : Nat) (i : TrainInfo) : Nat :=
  let n := s.fget F.RING_CFG.RING_SIZE
  let me := s.pkgNum
  let dist := if q % 2 = 0 then (i.pkg.val + n - me) % n else (me + n - i.pkg.val % n) % n
  if q = 4 then 0 else (dist + n - 1) % n

/-- LAST_ERR of the bypass check; zero when it passes (R473). -/
def State.bypassCheck (s : State) (q : Nat) (i : TrainInfo) : Nat :=
  if !facing q i then 1
  else if i.ringSize != s.fget F.RING_CFG.RING_SIZE then 2
  else if q = 4 then (if i.pkg.val == s.pkgNum ^^^ 1 then 0 else 4)
  else if 2 < s.bypassed q i then 3
  else 0

/-- The number of lanes in a set. -/
def laneCount (v : BitVec 18) : Nat := ((List.range 18).filter fun i => v.getLsbD i).length

/-- The lowest 16 lanes of a set (R452, R472). -/
def lowest16 (v : BitVec 18) : BitVec 18 :=
  (((List.range 18).filter fun i => v.getLsbD i).take 16).foldl (fun a i => a ||| BitVec.ofNat 18 (2 ^ i)) 0

/-- The lanes that may serve: those that pass and are not marked failed, without those that caused a retrain as long as a
spare remains (R468, R472, R473). -/
def PortSt.usable (p : PortSt) (lanes : BitVec 18) : BitVec 18 :=
  let a := lanes &&& ~~~p.failed
  if 16 ≤ laneCount (a &&& ~~~p.badLanes) then a &&& ~~~p.badLanes else a

/-- The port after the Credit exchange (R465, R468): the same neighbour keeps the replay buffer, another loses it. -/
def PortSt.renew (p : PortSt) (q : Nat) (nbr : Nat × W32) : PortSt :=
  let same := p.lastNbr == some nbr
  let rp := if same then p.replay else []
  let used := fun vc => (rp.filter fun e => hVc e.2.hdr == vc).length
  { p with
    txSeq := if same then p.txSeq else 0
    rxSeq := if same then p.rxSeq else 0
    rxAny := same && p.rxAny
    replay := rp
    credit := (List.range 6).foldl (fun m vc => vcSet m vc (vcBuffer q vc - used vc)) []
    cum := []
    partnerCr := []
    nakWait := false
    nakRun := 0
    rx := p.rx.map fun m => { m with held := 0 }
    parts := p.parts.mapV (fun _ => none) fun o => o.map fun x => { x with flits := 0 }
    lastNbr := some nbr }

/-- A queued message, when the port whose receive buffers it holds counts them anew (R465). -/
def Msg.unheld (q : Nat) (m : Msg) : Msg := { m with held := if m.via = some q then 0 else m.held }

/-- A port reaches LIVE (R468, R474, R475, R496). -/
def State.enterLive (s : State) (q : Nat) (i : TrainInfo) : State :=
  let p := s.port q
  let nbr := (i.pkg.val, i.instVal)
  let same := p.lastNbr == some nbr
  let s0 := s.setPort q { p.renew q nbr with wallOk := q == 4, wallFail := false }
  let o := s0.port (q ^^^ 1)
  let s1 := if q = 4 then s0 else s0.setPort (q ^^^ 1) { o with egress := o.egress.map fun m => m.unheld q }
  let s2 := ((s1.fset (F.PORT_STATE.STATE q) 7).count (F.PORT_STATE.LIVE_COUNT q) 1).fset (F.PORT_STATE.NBR q) i.pkg.val
  let s3 := if same then s2.resend q else s2
  if q = 4 then s3.wallUp i.instVal else s3.ringUp q

/-- The exit of a port's training stage (R474). -/
def State.stageExit (s : State) (q : Nat) (i : TrainInfo) : State :=
  let p := s.port q
  match s.portState q with
  | 1 => (s.setBit F.CLK_STATUS.LORLINK_LOCK q).portTo q 2
  | 2 =>
    let e := s.bypassCheck q i
    if e = 0 then
      ((s.setPort q { p with failed := i.misLanes }).portTo q 3).fset (F.PORT_STATE.BYPASSED q) (s.bypassed q i)
    else s.portErr q 1 e
  | 3 =>
    let u := p.usable i.lanes
    if 16 ≤ laneCount u then (s.setPort q { p with passed := u }).portTo q 4 else s.portErr q 1 5
  | 4 => (s.portTo q 5).fset (F.PORT_LANES.IN_SERVICE q) (lowest16 p.passed).toNat
  | 5 => s.portTo q 6
  | 6 =>
    if p.wallFail then s
    else if q = 4 ∧ !s.handshake i then
      (s.setPort q { p with wallFail := true, wallOk := false }).fset (F.PORT_STATE.LAST_ERR q) 0xA
    else s.enterLive q i
  | _ => s

/-- RING_SIZE and the log size as wide as the registers that the partner sends (R500, R501; log 62). -/
def trainFits (i : TrainInfo) : TrainInfo := { i with ringSize := i.ringSize % 128, logSize := i.logSize % 4096 }

/-- TRAINING_STAGE_EXIT (R472 to R474, R489). -/
def execTrainingStageExit (q : PortIx) (i : TrainInfo) (s : State) : Host.Outcome State Fault Refusal :=
  .next (if s.running then s.stageExit q.val (trainFits i) else s)

/-- TRAINING_TIMEOUT (R472, R474): no code is given for a timeout of BYPASS_CHECK, so that LAST_ERR takes a free one. -/
def execTrainingTimeout (q : PortIx) (fewLanes : Bool) (s : State) : Host.Outcome State Fault Refusal :=
  .next (if !s.running then s else
    match s.portState q.val with
    | 2 => s.draw.2.portErr q.val 1 (s.draw.1 % 13)
    | 3 => s.portErr q.val 1 (if fewLanes then 5 else 6)
    | 4 => s.portErr q.val 3 7
    | 5 => s.portErr q.val 3 8
    | 6 => if (s.port q.val).wallFail then s else s.portErr q.val 3 9
    | _ => s)

/-- WALL_HANDSHAKE_RETRY (R474): 10 ms after a failed handshake port P goes to DETECT. -/
def execWallHandshakeRetry (s : State) : Host.Outcome State Fault Refusal :=
  .next (if s.running && s.portState 4 == 6 && (s.port 4).wallFail then
    (s.setPort 4 { s.port 4 with wallFail := false }).portTo 4 1
  else s)

/-- LOS (R474): a Live port that loses signal on three or more lanes. -/
def execLos (q : PortIx) (s : State) : Host.Outcome State Fault Refusal :=
  .next (if s.running && s.isLive q.val then s.portErr q.val 1 0xB else s)

/-- RETRAIN (R468, R499): a write of one on a Live port. -/
def execRetrain (q : PortIx) (w : BusWr) (s : State) : Host.Outcome State Fault Refusal :=
  .next (s.openWrite (Off.PORT_CTRL q.val) w fun s1 =>
    if bitAt w.val.toNat 1 && s1.isLive q.val then s1.retrain q.val none else s1)

/-- ENABLE of a port takes a value (R474); a port that becomes enabled locks its PLL (R549; assumption log 122). -/
def State.setEnable (s : State) (q : Nat) (on : Bool) : State :=
  let s0 := s.fset (F.PORT_CTRL.ENABLE q) (b2n on)
  let s1 := if on && !s.flag (F.PORT_CTRL.ENABLE q) then s0.setBit F.CLK_STATUS.LORLINK_LOCK q else s0
  if !on then (s1.setPort q { s1.port q with wallFail := false }).portTo q 0
  else if s1.portState q == 0 && (q == 4 || s1.flag (biasFld (q / 2))) then s1.portTo q 1
  else s1

/-- PORT_ENABLE (R474, R499). -/
def execPortEnable (q : PortIx) (w : BusWr) (s : State) : Host.Outcome State Fault Refusal :=
  .next (s.openWrite (Off.PORT_CTRL q.val) w fun s1 => s1.setEnable q.val (bitAt w.val.toNat 0))

end Sys2Proof.Machine
end

