-- ==== Sys2Proof/Machine/Capacity.lean ====
section
/-! DEFINITION. Remap and fence registers, detected failures and uncorrectable SRAM errors (R61 to R76, R388). -/

namespace Sys2Proof.Machine

/-- The offset of a remap register. -/
def remapOff : RemapReg → Nat
  | .floorReg f => Off.FLOOR_REMAP f.val
  | .roomReg r => Off.ENGINE_REMAP r.val

/-- The offset of a fence register. -/
def fenceOff : RemapReg → Nat
  | .floorReg f => Off.ROOM_FENCE f.val
  | .roomReg r => Off.ENGINE_FENCE r.val

/-- The mapping a remap write asks for, each reserved field value leaving its field (R14, R70). -/
def State.remapWish (s : State) (off v : Nat) : List Nat :=
  (List.range 4).map fun i => let x := bitsAt v (3 * i) 3; if 5 ≤ x then s.mapped off i else x

/-- R70: no physical index twice, and every changed position moves from a fenced unit to SPARE_PHYS. -/
def State.remapOk (s : State) (off : Nat) (m : List Nat) : Bool :=
  decide m.Nodup && (List.range 4).all fun i =>
    let old := s.mapped off i
    m.getD i 0 == old || (bitAt (s.fencedBits off) old && m.getD i 0 == s.sparePhys off && s.sparePhys off != 7)

/-- Replaces the mapping of a remap register. -/
def State.setMapping (s : State) (off : Nat) (m : List Nat) : State :=
  (List.range 4).foldl (fun st i => st.fset { off := off, lsb := 3 * i, width := 3 } (m.getD i 0)) s

/-- REMAP_REFUSED of the remap register at `off`. -/
def Fld.remapRefused (off : Nat) : Fld := { off := off, lsb := 15, width := 1 }

/-- The keyed part of a remap write (R70, R71). -/
def State.remap (s : State) (off v : Nat) : State :=
  let m := s.remapWish off v
  if s.remapOk off m then (s.setMapping off m).fset (Fld.remapRefused off) 0
  else s.fset (Fld.remapRefused off) 1

/-- REMAP_WRITE (R66, R68, R70, R93). -/
def execRemapWrite (t : RemapReg) (w : BusWr) (s : State) : Host.Outcome State Fault Refusal :=
  .next (s.keyedWrite (remapOff t) w fun keyed s1 => if keyed then s1.remap (remapOff t) w.val.toNat else s1)

/-- A written fence request (R67, R72, R73): ones request; zeros lift what firmware or the host requested, never what
the device detected. -/
def State.fenceRequest (s : State) (t : RemapReg) (v : Nat) : State :=
  let req : Fld := { off := (fenceOff t), lsb := 0, width := 5 }
  let hw := s.fget { off := (fenceOff t), lsb := 8, width := 5 }
  let fenced : Fld := { off := (remapOff t), lsb := 16, width := 5 }
  (s.fset fenced ((s.fget fenced &&& (v % 32)) ||| hw)).fset req (v % 32)

/-- FENCE_REQUEST_WRITE (R67, R68, R72). -/
def execFenceRequestWrite (t : RemapReg) (w : BusWr) (s : State) : Host.Outcome State Fault Refusal :=
  .next (s.keyedWrite (fenceOff t) w fun keyed s1 => if keyed then s1.fenceRequest t w.val.toNat else s1)

/-- No task is resident in room `r`. -/
def State.roomQuiet (s : State) (r : Nat) : Bool :=
  (s.room r).cmds.all fun c => c.st == .waiting || c.st == .held

/-- No task is resident on engine `e`. -/
def State.engQuiet (s : State) (e : Nat) : Bool := (s.room (engRoom e)).cmds.all fun c => !c.residentOn e

/-- FENCE_DRAIN_END (R72, R586): a requested fence whose unit holds no task sets FENCED; what waits in a fenced room's
inboxes and firmware queue faults. -/
def execFenceDrainEnd (u : PhysUnit) (s : State) : Host.Outcome State Fault Refusal :=
  .next (match u with
    | .room r =>
      if s.roomFenceReq r.val && !s.roomFenced r.val && s.roomQuiet r.val
      then (s.setRoomFenced r.val false).evictRoom r.val causeUnitFence else s
    | .engine e =>
      if s.engFenceReq e.val && !s.engFenced e.val && s.engQuiet e.val then s.setEngFenced e.val false else s)

/-- UNIT_FAILURE_DETECTED (R54, R61, R62, R73). -/
def execUnitFailureDetected (f : Failure) (s : State) : Host.Outcome State Fault Refusal :=
  .next (if s.running then
    match f with
    | .engine e => s.fenceEngine e.val
    | .room r => s.fenceRoom r.val
    | .die d => s.fenceDie d.val
    | .package => s.packageStop
  else s)

/-- Floor `f` no longer holds the block of an address. -/
def State.loseLine (s : State) (f a : Nat) : State :=
  let l := (s.ms.lines.get (fun _ => []) f).filter fun x => x.blk != s.foldAddr a / 4096
  { s with ms := { s.ms with lines := s.ms.lines.set (fun _ => []) f l } }

/-- SRAM_UNCORRECTABLE (R388): the unit the table names is fenced; a clean cache line is fetched again; a modified one
is written back poisoned. -/
def execSramUncorrectable (x : SramSite) (s : State) : Host.Outcome State Fault Refusal :=
  .next (if !s.running then s else match x with
    | .engineBuffer e => s.fenceEngine e.val
    | .accumulator e => s.fenceEngine e.val
    | .exactSave e => s.fenceEngine e.val
    | .roomStore r => s.fenceRoom r.val
    | .controlMemory r => s.fenceRoom r.val
    | .routineStore r => s.fenceRoom r.val
    | .floorCacheClean f a => s.loseLine f.val a.toNat
    | .floorCacheModified f a =>
      let s1 := s.loseLine f.val a.toNat
      { s1 with ms := { s1.ms with poison := s1.ms.poison.set (fun _ => false) (s.foldAddr a.toNat / 64) true } })

end Sys2Proof.Machine
end

