-- ==== Sys2Proof/Machine/Seal.lean ====
section
/-! DEFINITION. The configuration seal and the keystone (R119 to R142, R588). -/

namespace Sys2Proof.Machine

/-- The sealed fields of a register: of type K, RW or B (R119). -/
def RegDef.sealMask (r : RegDef) : W32 :=
  BitVec.ofNat 32 ((r.fields.filter fun f => f.ty == .k || f.ty == .rw || f.ty == .b).foldl
    (fun acc f => acc + (2 ^ f.width - 1) * 2 ^ f.lsb) 0)

/-- Offsets and masks of the sealed registers in ascending offset (R119, R120). -/
def sealedRegs : List (Nat × W32) :=
  ((RegMap.rows.filter (·.isSeal)).flatMap fun r => r.offsets.map fun o => (o, r.sealMask)).mergeSort
    fun a b => decide (a.1 ≤ b.1)

/-- The bytes that a sweep captures (R120): offset and sealed value of every sealed register. -/
def State.sealBytes (s : State) : List Byte :=
  sealedRegs.flatMap fun p => leList p.1 4 ++ leList ((s.reg p.1) &&& p.2).toNat 4

/-- The CRC of a snapshot taken now (R120). -/
def State.sealCrc (s : State) : W32 := crc32c s.sealBytes

/-- SEAL_SWEEP_SNAPSHOT (R122, R129): a periodic snapshot, skipped while a commit's computation runs. -/
def execSealSweepSnapshot (s : State) : Host.Outcome State Fault Refusal :=
  .next (if s.running && s.sealer.commit.isNone
    then { s with sealer := { s.sealer with sweep := some s.sealCrc } } else s)

/-- What the end of a periodic sweep with result `crc` does (R122, R124, R126, R127). -/
def State.sweepEnd (s : State) (crc : W32) : State :=
  let s1 := (s.setReg Off.SEAL_CURRENT crc).count F.SEAL_STATUS.SEAL_COUNT 1
  let hold := s.flag F.SEAL_CTRL.HOLD
  let n := if hold then s.sealer.holdCount + 1 else 0
  let s2 := { s1 with sealer := { s1.sealer with sweep := none, holdCount := n } }
  if s.flag F.SEAL_CTRL.ARMED && !hold && crc != s.reg Off.SEAL_REF
  then (s2.fset F.SEAL_STATUS.FAULT 1).pkgEvent evPkgFault else s2

/-- SEAL_SWEEP_END (R122, R124). -/
def execSealSweepEnd (s : State) : Host.Outcome State Fault Refusal :=
  .next (match s.sealer.sweep with
    | some crc => s.sweepEnd crc
    | none => s)

/-- SEAL_HOLD_EXPIRY (R127): HOLD clears itself at the end of the 200th consecutive sweep under it. -/
def execSealHoldExpiry (s : State) : Host.Outcome State Fault Refusal :=
  .next (if s.flag F.SEAL_CTRL.HOLD && decide (200 ≤ s.sealer.holdCount) then
    let s1 := { s with sealer := { s.sealer with holdCount := 0 } }
    (s1.fset F.SEAL_CTRL.HOLD 0).fset F.SEAL_STATUS.HOLD_EXPIRED 1
  else s)

/-- A commit begins (R128, R129): COMMIT reads one, a sweep or an earlier commit is abandoned, the snapshot is taken.
Whether its end arms comparison is settled by the keyed write (R123). -/
def State.startCommit (s : State) : State :=
  let s1 := s.fset F.SEAL_CTRL.COMMIT 1
  { s1 with sealer := { s1.sealer with sweep := none, commit := some (s1.sealCrc, s1.flag F.KEYSTONE_CTRL.SET) } }

/-- SEAL_COMMIT (R128): a keyed write of SEAL_CTRL with COMMIT one. -/
def execSealCommit (w : BusWr) (s : State) : Host.Outcome State Fault Refusal :=
  .next (s.keyedWrite Off.SEAL_CTRL w fun keyed s1 =>
    if keyed && bitAt w.val.toNat 1 then s1.startCommit else s1)

/-- A commit ends (R123, R128). The count of consecutive sweeps under HOLD starts again with it; clearing HOLD and setting it
again between two sweep ends does not start it again (assumption log 104, DESIGN CHOICE: R127 says neither). -/
def State.endCommit (s : State) : State :=
  match s.sealer.commit with
  | some p =>
    let s1 := ((s.setReg Off.SEAL_REF p.1).setReg Off.SEAL_CURRENT p.1).count F.SEAL_STATUS.SEAL_COUNT 1
    let s2 := (s1.fset F.SEAL_CTRL.HOLD 0).fset F.SEAL_CTRL.COMMIT 0
    let s3 := if p.2 then s2.fset F.SEAL_CTRL.ARMED 1 else s2
    { s3 with sealer := { s3.sealer with commit := none, holdCount := 0 } }
  | none => s

/-- SEAL_COMMIT_END (R123, R128). -/
def execSealCommitEnd (s : State) : Host.Outcome State Fault Refusal := .next s.endCommit

/-! ### KEYSTONE_SET (R137, R138) -/

/-- Base of the context table (R142). -/
def State.ctxRoot (s : State) : Nat :=
  s.fget F.CTX_ROOT_HI.ADDR_HI * 0x100000000 + s.fget F.CTX_ROOT_LO.ADDR_LO * 4096

/-- Base and end of party-wall window `n`. -/
def State.pwWindow (s : State) (n : Nat) : Nat × Nat :=
  let b := s.fget (F.PW_BASE.BASE n) * 0x200000
  (b, b + s.fget (F.PW_SIZE.SIZE n) * 0x200000)

/-- The four privileged inputs of ARB_PRIV: management core, mirror engine, fault and spill path, flue (R142). -/
def State.arbPriv (s : State) : List Nat :=
  [s.fget F.ARB_PRIV.MGMT_IN, s.fget F.ARB_PRIV.MIRROR_IN, s.fget F.ARB_PRIV.FAULT_IN, s.fget F.ARB_PRIV.FLUE_IN]

/-- The code of the first failing check of R138; zero when every check passes. -/
def State.keystoneCheck (s : State) : Nat :=
  let parts := (List.range 16).filter fun n => s.flag (F.PART_CTX.EN n)
  let wins := (List.range 8).filter fun n => s.fget (F.PW_SIZE.SIZE n) != 0
  if parts.any fun n => decide (s.fget (F.PART_CTX.LAST n) < s.fget (F.PART_CTX.FIRST n)) then 1
  else if parts.any fun n => s.fget (F.PART_ROOMS.ROOM_MASK n) == 0 then 2
  else if parts.any fun n => let m := s.fget (F.PART_ROOMS.MAX_INBOXES n); decide (m < 1) || decide (96 < m) then 3
  else if !inHbm s.ctxRoot 0x20000 then 4
  else if wins.any fun n => decide (hbmEnd < (s.pwWindow n).2) then 5
  else if wins.any fun n => wins.any fun m => n != m &&
      decide ((s.pwWindow n).1 < (s.pwWindow m).2) && decide ((s.pwWindow m).1 < (s.pwWindow n).2) then 6
  else if !decide s.arbPriv.Nodup then 7
  else 0

/-- A request of KEYSTONE_SET (R136, R137): accepted when every check passes. The wall leaves OFF for STALE, cause INIT,
when WALL_EN is one (R496; assumption log 26). -/
def State.keystoneRequest (s : State) : State :=
  if s.flag F.KEYSTONE_CTRL.SET then s
  else
    let e := s.keystoneCheck
    let s1 := s.fset F.KEYSTONE_CTRL.ERR e
    if e ≠ 0 then s1
    else
      let s2 := s1.fset F.KEYSTONE_CTRL.SET 1
      if s2.flag F.PW_ROLE.WALL_EN then (s2.fset F.PW_STATUS.STATE 1).fset F.PW_STATUS.CAUSE 1 else s2

/-- KEYSTONE_SET (R135 to R138): a write of KEYSTONE_CTRL by the management core, keyed, with SET one. -/
def execKeystoneSet (w : BusWr) (s : State) : Host.Outcome State Fault Refusal :=
  .next (s.keyedWrite Off.KEYSTONE_CTRL w fun keyed s1 =>
    if keyed && bitAt w.val.toNat 0 then s1.keystoneRequest else s1)

end Sys2Proof.Machine
end

