-- ==== Sys2Proof/Machine/Boot.lean ====
section
/-! DEFINITION. Boot from flash (R532 to R536), the test and zeroing of SRAM (R583), the load of routine images (R377, R567,
R581), and start-up (R569, R581, R582). -/

namespace Sys2Proof.Machine

/-! ### The boot directory (R533, R534) -/

/-- The `n`-byte field of the flash at an offset. -/
def flashLe (m : FMap Byte) (a n : Nat) : Nat := Mem.leNat m a n

/-- Offset of a directory copy. -/
def dirBase (c : Nat) : Nat := c * 0x1000

/-- A directory copy is valid: MAGIC and DIR_CRC are correct. -/
def dirValid (m : FMap Byte) (c : Nat) : Bool :=
  flashLe m (dirBase c) 4 == 0x4A445244 && flashLe m (dirBase c + 0xFFC) 4 == (crc32c (Mem.bytes m (dirBase c) 0xFFC)).toNat

/-- SEQ of a directory copy. -/
def dirSeq (m : FMap Byte) (c : Nat) : Nat := flashLe m (dirBase c + 4) 4

/-- The copy that the boot ROM uses: the valid one with the higher SEQ, copy 0 when both are valid and equal (R534). -/
def dirPick (m : FMap Byte) : Option Nat :=
  match dirValid m 0, dirValid m 1 with
  | true, true => some (if dirSeq m 0 < dirSeq m 1 then 1 else 0)
  | true, false => some 0
  | false, true => some 1
  | false, false => none

/-- An item of a directory. `at_` is the flash offset of the entry itself. -/
structure DirItem where
  at_  : Nat
  ty   : Nat
  act  : Bool
  off  : Nat
  size : Nat
  crc  : Nat
  ver  : Nat
deriving DecidableEq, Repr

/-- Item i of a directory copy. -/
def dirItem (m : FMap Byte) (c i : Nat) : DirItem :=
  let a := dirBase c + 0x10 + 32 * i
  { at_ := a, ty := flashLe m a 2, act := bitAt (flashLe m (a + 2) 2) 0, off := flashLe m (a + 8) 8, size := flashLe m (a + 16) 8
    crc := flashLe m (a + 24) 4, ver := flashLe m (a + 28) 4 }

/-- The items of a directory copy; COUNT is 1 to 32. -/
def dirItems (m : FMap Byte) (c : Nat) : List DirItem :=
  (List.range (min 32 (flashLe m (dirBase c + 8) 4))).map fun i => dirItem m c i

/-- The first item of a type. -/
def itemOf (m : FMap Byte) (c ty : Nat) : Option DirItem := (dirItems m c).find? fun x => x.ty == ty

/-- The CRC of an item is correct. -/
def itemCrcOk (m : FMap Byte) (x : DirItem) : Bool := (crc32c (Mem.bytes m x.off x.size)).toNat == x.crc

/-- A firmware slot that can be loaded: at most 4 MiB and its CRC correct. -/
def slotOk (m : FMap Byte) (x : DirItem) : Bool := decide (x.size ≤ 0x400000) && itemCrcOk m x

/-- The firmware slot to load, and whether it is the inactive one (R534). -/
def pickSlot (m : FMap Byte) (c : Nat) : Option (DirItem × Bool) :=
  let l := (dirItems m c).filter fun x => x.ty == 1 || x.ty == 2
  match l.find? fun x => x.act with
  | none => none
  | some a =>
    if slotOk m a then some (a, false)
    else match l.find? fun x => x.ty != a.ty with
      | some b => if slotOk m b then some (b, true) else none
      | none => none

/-! ### SRAM (R583) -/

/-- What the test fences: the unit that R388 names, for a floor cache the die (R51). -/
def State.sramFence (s : State) (x : SramFail) : State :=
  match x with
  | .engine e => s.fenceEngine e.val
  | .room r => s.fenceRoom r.val
  | .floorCache f => s.fenceDieUnits (f.val / 3)

/-- The boot stops in RECOVERY with an error (R535). -/
def State.recovery (s : State) (err : Nat) : State := (s.fset F.BOOT_STATUS.STAGE 0xF).fset F.BOOT_STATUS.ERR err

/-- The test of SRAM: units beyond repair are fenced; with no die left boot stops with ERR 0x8 (R583). -/
def State.sramTest (s : State) (l : List SramFail) : State :=
  let s1 := l.foldl State.sramFence s
  if s1.dieUp 0 || s1.dieUp 1 then s1 else s1.recovery 8

/-! ### Routine images (R377, R567, R581) -/

/-- Loads the routine image of the booted slot into the inactive bank of a room and swaps it in; an image that fails its CRC
is not loaded. -/
def State.loadImage (s : State) (r : Nat) : State :=
  if s.boot.imageOk then
    let b := s.inactive r
    let x := s.room r
    let s1 := s.setRoom r (x.setBank b s.boot.image)
    (s1.setReg (Off.RS_CRC r) (bankCrc s.boot.image)).fset (F.RS_CTRL.ACTIVE r) b
  else s

/-- Loads the image into every room that is not gated (R564, R579, R581). -/
def State.loadImages (s : State) : State :=
  (List.range 30).foldl (fun st r => if st.roomOut r then st else st.loadImage r) s

/-! ### Stages of start-up (R535, R581) -/

/-- The mapping of a repair record's remap, when it names five different positions properly (R66). -/
def remapWords (v : Nat) : Option (List Nat) :=
  let m := (List.range 4).map fun i => bitsAt v (3 * i) 3
  if decide m.Nodup && m.all fun x => decide (x < 5) then some m else none

/-- Applies one remap of the repair record (R581). -/
def State.repairRemap (s : State) (p : RemapReg × W32) : State :=
  match remapWords p.2.toNat with
  | some m => s.setMapping (remapOff p.1) m
  | none => s

/-- After the repair record the room that SPARE_PHYS reports is gated and the others are not (R569). -/
def State.gateSpares (s : State) : State :=
  (List.range 6).foldl (fun st f =>
    let p := st.sparePhys (Off.FLOOR_REMAP f)
    let v := if p < 5 then 2 ^ p else 0
    (st.fset (F.ROOM_PWR.GATE f) v).fset (F.ROOM_PWR.GATED f) v) s

/-- The repair record is applied (R581): remaps, HBM_PC_REMAP before training (R386), and room gates. -/
def State.repairAll (s : State) (env : StartEnv) : State :=
  let s1 := env.remaps.foldl State.repairRemap s
  let s2 := env.pcRemaps.foldl (fun st p => if pcRemapOk p.2.toNat then st.setPcRemap p.1.val p.2.toNat else st) s1
  s2.gateSpares

/-- The pairs of a keystone block (R536). -/
def keyPairs (m : FMap Byte) (x : DirItem) : List (Nat × Nat) :=
  (List.range (flashLe m x.off 4)).map fun i => (flashLe m (x.off + 4 + 8 * i) 4, flashLe m (x.off + 8 + 8 * i) 4)

/-- A keystone block is valid (R536): CRC, COUNT, and every offset a word of the keystone range. -/
def keyBlockOk (m : FMap Byte) (x : DirItem) : Bool :=
  itemCrcOk m x && decide (flashLe m x.off 4 ≤ 256) &&
    (keyPairs m x).all fun p => decide (0x1010 ≤ p.1) && decide (p.1 ≤ 0x13FF) && p.1 % 4 == 0

/-- Each value is written by keyed write in block order (R536). -/
def State.writeKeys (s : State) (l : List (Nat × Nat)) : State := l.foldl (fun st p => st.writePlain p.1 p.2 true) s

/-- What a cellar port finds is shown in its registers (R529, R531). -/
def State.cellarUp (s : State) (p : Nat) (x : CxlFound) : State :=
  if s.flag (F.CXL_CTRL.ENABLE p) then
    match x with
    | .none => s
    | .device w sp n =>
      let s1 := ((s.fset (F.CXL_STATUS.LINK_UP p) 1).fset (F.CXL_STATUS.WIDTH p) w.val).fset (F.CXL_STATUS.SPEED p) sp.val
      (s1.fset (F.CXL_STATUS.DEV_OK p) 1).fset (F.CXL_SIZE.SIZE p) n.val
    | .error c => s.fset (F.CXL_STATUS.ERR p) c.val
  else s

/-- The PHY PLLs lock, and port P, whose ENABLE is one, enters DETECT (R581 step 8). -/
def State.phyUp (s : State) : State :=
  let s1 := ((s.fset F.CLK_STATUS.LORLINK_LOCK 0x1F).fset F.CLK_STATUS.HBM_LOCK 0xFF).fset F.CLK_STATUS.CXL_LOCK 3
  s1.portTo 4 1

/-- Stage START_UP after the seal's commit (R581 steps 8 to 13). -/
def State.startUp (s : State) (env : StartEnv) : State :=
  let s1 := s.phyUp
  let f := env.hbmFail.toNat
  let s2 := (s1.fset F.HBM_TRAIN.DONE (255 - f)).fset F.HBM_TRAIN.FAIL f
  if f ≠ 0 then s2.recovery 7
  else
    let s3 := s2.sramTest env.sramFails
    if s3.fget F.BOOT_STATUS.STAGE = 0xF then s3
    else if !env.imageCrcOk then s3.recovery 9
    else (((s3.loadImages).cellarUp 0 env.cxl0).cellarUp 1 env.cxl1).fset F.BOOT_STATUS.STAGE 5

/-- Stage KEYSTONE and the seal's commit (R535, R536, R581 steps 6 and 7). -/
def State.keystoneStage (s : State) (c : Nat) (env : StartEnv) : State :=
  match itemOf s.boot.flash c 3 with
  | none => s.recovery 4
  | some x =>
    if !keyBlockOk s.boot.flash x then s.recovery 4
    else
      let s1 := (s.writeKeys (keyPairs s.boot.flash x)).keystoneRequest
      if s1.flag F.KEYSTONE_CTRL.SET then (s1.startCommit.endCommit).startUp env else s1.recovery 5

/-- Stage REPAIR (R535, R581 step 5): the record's CRC goes to identity item 0x04. -/
def State.repairStage (s : State) (c : Nat) (env : StartEnv) : State :=
  match itemOf s.boot.flash c 4 with
  | none => s.recovery 3
  | some x =>
    if !itemCrcOk s.boot.flash x || !env.repairOk then s.recovery 3
    else State.keystoneStage (State.repairAll { s with boot := { s.boot with repair := BitVec.ofNat 32 x.crc } } env) c env

/-- Stages ROM and FIRMWARE (R534, R535): directory, firmware slot, identity item 0x03 and the slot's routine image. -/
def State.romStage (s : State) (env : StartEnv) : State :=
  if !env.flashOk then s.recovery 6
  else match dirPick s.boot.flash with
    | none => s.recovery 1
    | some c =>
      let s1 := s.fset F.BOOT_STATUS.DIR_FALLBACK (b2n (!dirValid s.boot.flash 0))
      match pickSlot s.boot.flash c with
      | none => s1.recovery 2
      | some p =>
        let s2 := s1.fset F.BOOT_STATUS.FALLBACK (b2n p.2)
        State.repairStage { s2 with boot := { s2.boot with
          dirCopy := c, slotB := p.1.ty == 2, image := Mem.writeList [] 0 env.routineImage, imageOk := env.imageCrcOk
          fwVer := env.fwVersion } } c env

/-- What the boot flash holds at the release of cold reset: what it held, or what the board put there (assumption log 46). -/
def State.flashAt (s : State) (env : StartEnv) : FMap Byte :=
  match env.flash with
  | some l => Mem.writeList [] 0 l
  | none => s.boot.flash

/-- The boot flash as the boot ROM finds it. -/
def State.loadFlash (s : State) (env : StartEnv) : State := { s with boot := { s.boot with flash := s.flashAt env } }

/-- Start-up from the release of cold reset (R551, R472, R537, R581): the root PLL locks, the timestamp counts from zero, a new
instance value is drawn, the straps are sampled, the endpoint answers, and boot runs. -/
def State.coldStart (s : State) (env : StartEnv) : State :=
  let d := (s.loadFlash env).draw
  let s1 := { d.2 with
    ts := 0
    pwr := { d.2.pwr with hold := .up, resetN := false }
    boot := { d.2.boot with inst := BitVec.ofNat 32 d.1 }
    hs := { d.2.hs with linkUp := true }
    mg := { d.2.mg with straps := env.straps.val } }
  ((s1.fset F.CLK_STATUS.ROOT_LOCK 1).fset F.CLK_STATUS.PCIE_LOCK 1).romStage env

/-- What fits the device: a routine image of one bank (R375), a boot flash of 128 MiB (R532); log 62. -/
def startFits (env : StartEnv) : StartEnv :=
  { env with flash := env.flash.map fun l => l.take 0x8000000, routineImage := env.routineImage.take 0x8000 }

/-- COLD_RESET_RELEASE (R577, R581): RESET_N and PWR_GOOD are high, every rail is good, and neither a clock loss nor a thermal
trip is latched. -/
def execColdResetRelease (env : StartEnv) (s : State) : Host.Outcome State Fault Refusal :=
  .next (if s.pwr.hold = .cold ∧ env.pinsOk then s.coldStart (startFits env) else s)

end Sys2Proof.Machine
end

