-- ==== Sys2Proof/Machine/Mortar.lean ====
section
/-! DEFINITION. The mortar tree (R268 to R280): MORTAR_OPEN, contributions, and the floor, die and package stages. -/

namespace Sys2Proof.Machine

/-! ### The merge control block (R268) -/

/-- The field of `n` bytes at offset `off` of a merge control block. -/
def mcbF (m : BitVec 512) (off n : Nat) : Nat := bitsAt m.toNat (8 * off) (8 * n)
/-- MERGE. -/
def mcbMerge (m : BitVec 512) : Nat := mcbF m 0x00 1
/-- SCOPE. -/
def mcbScope (m : BitVec 512) : Nat := mcbF m 0x01 1
/-- COUNT_MODE. -/
def mcbMode (m : BitVec 512) : Nat := mcbF m 0x02 1
/-- CONST_COUNT. -/
def mcbConst (m : BitVec 512) : Nat := mcbF m 0x03 1
/-- T_LO. -/
def mcbLo (m : BitVec 512) : Nat := mcbF m 0x04 4
/-- T_HI. -/
def mcbHi (m : BitVec 512) : Nat := mcbF m 0x08 4
/-- SLABS. -/
def mcbSlabs (m : BitVec 512) : Nat := mcbF m 0x0C 2
/-- ACT. -/
def mcbAct (m : BitVec 512) : Nat := mcbF m 0x0E 1
/-- CONV. -/
def mcbConv (m : BitVec 512) : Conv := Conv.of (mcbF m 0x0F 1)
/-- ALPHA. -/
def mcbAlpha (m : BitVec 512) : Nat := mcbF m 0x10 2
/-- HOME_SHIFT. -/
def mcbShift (m : BitVec 512) : Nat := mcbF m 0x12 1
/-- OUT. -/
def mcbOut (m : BitVec 512) : Nat := mcbF m 0x18 8
/-- BIAS. -/
def mcbBias (m : BitVec 512) : Nat := mcbF m 0x20 8
/-- COUNTS. -/
def mcbCounts (m : BitVec 512) : Nat := mcbF m 0x28 8
/-- HOME. -/
def mcbHome (m : BitVec 512) : Nat := mcbF m 0x30 8
/-- AREA. -/
def mcbArea (m : BitVec 512) : Nat := mcbF m 0x38 8

/-- A merge control block without reserved encodings (R268). -/
def mcbOk (m : BitVec 512) : Bool :=
  decide (mcbScope m ≤ 1) && decide (mcbMode m ≤ 1) && (mcbMode m == 1 || mcbConst m != 0) && decide (mcbLo m ≤ mcbHi m) &&
    decide (1 ≤ mcbSlabs m) && decide (mcbSlabs m ≤ 512) && decide (mcbAct m ≤ 6) && (mcbConv m).legal && mcbF m 0x13 5 == 0

/-- Rows of the output: the tokens homed here. -/
def mcbRows (m : BitVec 512) : Nat := mcbHi m - mcbLo m

/-! ### Open merges -/

/-- Open merge `k`. -/
def State.merge (s : State) (k : Nat) : Option Merge := s.mo.merges.get (fun _ => none) k

/-- Replaces merge `k`. -/
def State.setMerge (s : State) (k : Nat) (m : Option Merge) : State :=
  { s with mo := { s.mo with merges := s.mo.merges.set (fun _ => none) k m } }

/-- Frees merge object `k`; the records of it still on their way are discarded (R269). -/
def State.closeMerge (s : State) (k : Nat) : State :=
  let keep := fun (l : List MergeRec) => l.filter fun e => e.key.merge.val != k
  let mo := s.mo
  { s with mo := { mo with
      merges := mo.merges.set (fun _ => none) k none
      floorTab := mo.floorTab.mapV (fun _ => []) keep
      dieTab := mo.dieTab.mapV (fun _ => []) keep
      dieIn := mo.dieIn.mapV (fun _ => []) keep
      pkgIn := keep mo.pkgIn } }

/-- The expected contributions of token `t` (R268). -/
def State.expected (s : State) (m : Merge) (t : Nat) : Nat :=
  if mcbMode m.mcb = 0 then mcbConst m.mcb
  else leOfList (s.readVa m.cmd.room.val m.ctx (mcbCounts m.mcb + (t - mcbLo m.mcb)) 1).1.bytes

/-- The contributions that complete a merge: the expected counts of its tokens, in every slab (R277). -/
def State.expectedAll (s : State) (m : Merge) : Nat :=
  ((List.range (mcbRows m.mcb)).map fun i => s.expected m (mcbLo m.mcb + i)).sum * mcbSlabs m.mcb

/-! ### Output rows (R276) -/

/-- Writes bytes at a virtual address, page by page. -/
def State.writeVaPages (s : State) (r ctx va : Nat) (l : List Byte) : State :=
  (pageChunks (l.length / 4096 + 2) va l.length).foldl (fun st c =>
    st.writeVa r ctx c.1 ((l.drop (c.1 - va)).take c.2)) s

/-- The accumulator of column c. -/
def MergeRec.cell (e : MergeRec) (c : Nat) : Int := e.acc.get (fun _ => 0) c

/-- The value of column c of a package-stage entry (R272). -/
def MergeRec.value (e : MergeRec) (c : Nat) : Num :=
  match e.flag.get (fun _ => 0) c with
  | 0 => .fin ((e.cell c : Rat) * pow2 (-160))
  | 1 => .inf false
  | 2 => .inf true
  | _ => .nan

/-- The FP32 bias of 128 columns from column `c0` (R268). -/
def State.mergeBias (s : State) (m : Merge) (c0 : Nat) : List Num × State :=
  if mcbBias m.mcb = 0 then ((List.range 128).map fun _ => .fin 0, s)
  else
    let p := s.readVa m.cmd.room.val m.ctx (mcbBias m.mcb + 4 * c0) 512
    let n := leOfList p.1.bytes
    ((List.range 128).map fun i => elemNum 8 none (bitsAt n (32 * i) 32), p.2)

/-- Bias, activation and conversion of 128 columns of a token: encodings, and the scale of each run of 32 (R276). -/
def mergeStages (m : Merge) (t slab : Nat) (bias : List Num) (v : Nat → Num) : List Nat × List Nat :=
  let c := mcbConv m.mcb
  let y := fun i => activate (mcbAct m.mcb) (elemNum 6 none (mcbAlpha m.mcb)) ((v i).add (bias.getD i (.fin 0)))
  let q := fun i => if c.rnd then some ({ tag := m.mtag, ctx := m.ctx, batch := 0 : DrawIn }.q 1 0 t (slab * 128 + i)) else none
  if c.mx then
    let runs := (List.range 4).map fun j =>
      convertRun c.target ((List.range 32).map fun i => y (32 * j + i)) ((List.range 32).map fun i => q (32 * j + i)) c.sat
    (runs.flatMap fun p => p.1, runs.map fun p => p.2)
  else ((List.range 128).map fun i => encodeNum c.target (y i) (q i) c.sat, [])

/-- Packs encodings of b bits into bytes (R150). -/
def packEnc (b : Nat) (l : List Nat) : List Byte :=
  leList ((l.foldl (fun (a : Nat × Nat) e => (a.1 + e * 2 ^ a.2, a.2 + b)) (0, 0)).1) (l.length * b / 8)

/-- Writes one row of one slab of the OUT of a merge control block: four runs of 32 elements, then their scale bytes from the next
256-byte boundary. -/
def State.putRow (s : State) (r ctx : Nat) (b : BitVec 512) (row slab : Nat) (enc sc : List Nat) : State :=
  let n := elemBits (mcbConv b).target
  let g := regionGrid false (mcbRows b) (128 * mcbSlabs b) (mcbConv b).target (mcbConv b).mx (mcbOut b)
  let s1 := (List.range 4).foldl (fun st j =>
    st.writeVaPages r ctx (g.bit row (slab * 128 + 32 * j) / 8) (packEnc n ((enc.drop (32 * j)).take 32))) s
  sc.zipIdx.foldl (fun st p => st.writeVa r ctx (g.sc row (slab * 128 + 32 * p.2)) [BitVec.ofNat 8 p.1]) s1

/-- One row of one slab of OUT becomes free, with its scale bytes (R7, R8, R278). -/
def State.freeRow (s : State) (r ctx : Nat) (b : BitVec 512) (row slab : Nat) : State :=
  let n := elemBits (mcbConv b).target
  let d := s.draw
  d.2.putRow r ctx b row slab ((List.range 128).map fun i => bitsAt d.1 (n * i) n)
    (if (mcbConv b).mx then (List.range 4).map fun i => bitsAt d.1 (128 * n + 8 * i) 8 else [])

/-- The rows of OUT that `done` does not list become free. -/
def State.freeRows (s : State) (r ctx : Nat) (b : BitVec 512) (done : List (Nat × Nat)) : State :=
  (List.range (mcbRows b)).foldl (fun st row =>
    (List.range (mcbSlabs b)).foldl (fun st2 sl =>
      if done.contains (row, sl) then st2 else st2.freeRow r ctx b row sl) st) s

/-- The whole OUT of a merge control block becomes free (R7, R8). -/
def State.spoilOut (s : State) (r ctx : Nat) (b : BitVec 512) : State := s.freeRows r ctx b []

/-- The rows of a merge not yet written become unspecified (R278). -/
def State.spoilRows (s : State) (m : Merge) : State := s.freeRows m.cmd.room.val m.ctx m.mcb m.written

/-- Writes the result of R276 for values `v` to the row of token t. -/
def State.writeMergeRow (s : State) (m : Merge) (t slab : Nat) (v : Nat → Num) : State :=
  if m.bad then s.freeRow m.cmd.room.val m.ctx m.mcb (t - mcbLo m.mcb) slab
  else
    let b := s.mergeBias m (slab * 128)
    let e := mergeStages m t slab b.1 v
    b.2.putRow m.cmd.room.val m.ctx m.mcb (t - mcbLo m.mcb) slab e.1 e.2

/-- The rows of tokens that expect nothing, written for a zero sum (R277). -/
def State.writeZeroRows (s : State) (m : Merge) : State :=
  (List.range (mcbRows m.mcb)).foldl (fun st i =>
    let t := mcbLo m.mcb + i
    if s.expected m t = 0 then
      (List.range (mcbSlabs m.mcb)).foldl (fun st2 sl => st2.writeMergeRow m t sl fun _ => .fin 0) st
    else st) s

/-- The merge completes when all contributions have arrived (R277). -/
def State.mergeEnd (s : State) (k : Nat) : State :=
  match s.merge k with
  | some m =>
    if m.got = s.expectedAll m then ((s.writeZeroRows m).closeMerge k).workDone m.cmd.room.val m.cmd.seq else s
  | none => s

/-- MORTAR_OPEN faults (R278). -/
def State.mergeFault (s : State) (k cause : Nat) : State :=
  match s.merge k with
  | some m => ((s.spoilRows m).closeMerge k).workFault m.cmd.room.val m.cmd.seq (FaultInfo.mk0 cause)
  | none => s

/-! ### MORTAR_OPEN (R268, R269) -/

/-- MORTAR_OPEN: the object named by the merge control block opens for the command's context and the command runs until the
merge completes. -/
def execMortarOpen (c : CmdRef) (s : State) : Host.Outcome State Fault Refusal :=
  .next (match s.plainStart c 8 with
    | none => s
    | some d =>
      let r := c.room.val
      let p := s.readVa r d.ctx (dMcb d.desc) 64
      let m : Merge := { cmd := c, ctx := d.ctx, mtag := dTag d.desc, mcb := BitVec.ofNat 512 (leOfList p.1.bytes), got := 0,
                         entries := [], written := [], bad := false }
      if (!openLegal d.desc || !mcbOk m.mcb) && d.isIssued then p.2.workIssued r d.seq
      else if !openLegal d.desc || !mcbOk m.mcb then
        let s1 := p.2.spoilOut r d.ctx m.mcb
        s1.draw.2.workUndef r d.seq s1.draw.1
      else
        ((p.2.updCmd r d.seq fun k => { k with started := true }).setMerge (mcbMerge m.mcb) (some m)).mergeEnd (mcbMerge m.mcb))

/-! ### Contributions (R272, R273) -/

/-- The sum of two records of one key (R273). -/
def MergeRec.add (a b : MergeRec) : MergeRec :=
  { ctx := a.ctx, key := a.key, count := a.count + b.count
    acc := FMap.setRange (fun _ => 0) a.acc 0 128 fun c => a.cell c + b.cell c
    flag := FMap.setRange (fun _ => 0) a.flag 0 128 fun c => spJoin (a.flag.get (fun _ => 0) c) (b.flag.get (fun _ => 0) c) }

/-- An exact contribution as a multiple of 2^-160 rounded by RNE, and its flag (R272). -/
def contribution (x : Num) : Int × Nat :=
  match x with
  | .fin q =>
    if pow2 128 ≤ rabs q then (0, if q < 0 then 2 else 1)
    else
      let n := (roundMag (rabs q * pow2 160) none : Int)
      (if q < 0 then -n else n, 0)
  | .inf s => (0, if s then 2 else 1)
  | _ => (0, 3)

/-- V of column c of an engine record. -/
def EngineRec.cell (e : EngineRec) (c : Nat) : Int := e.v.get (fun _ => 0) c

/-- The value of column c of an engine record: V × 2^A or its special value. -/
def EngineRec.value (e : EngineRec) (c : Nat) : Num :=
  match e.flag.get (fun _ => 0) c with
  | 0 => .fin ((e.cell c : Rat) * pow2 e.anchor)
  | 1 => .inf false
  | 2 => .inf true
  | _ => .nan

/-- The merge record of an engine record: each element gated exactly (R272); its count is one (R273). -/
def EngineRec.toMerge (e : EngineRec) : MergeRec :=
  let x := fun c => contribution ((elemNum 8 none e.gate).mul (e.value c))
  { ctx := e.ctx, count := 1
    key := { merge := ⟨e.merge % 256, Nat.mod_lt _ (by decide)⟩, token := BitVec.ofNat 32 e.token, slab := e.slab }
    acc := FMap.setRange (fun _ => 0) [] 0 128 fun c => (x c).1
    flag := FMap.setRange (fun _ => 0) [] 0 128 fun c => (x c).2 }

/-! ### Tables (R274) -/

/-- A record enters a stage's table of `cap` entries, least recently updated first: it joins its key's entry, or takes a
new one, for which a full table forwards its first. -/
def tabPut (l : List MergeRec) (cap : Nat) (e : MergeRec) : List MergeRec × List MergeRec :=
  match l.find? fun x => x.key == e.key with
  | some x => ((l.filter fun y => y.key != e.key) ++ [x.add e], [])
  | none => if cap ≤ l.length then (l.drop 1 ++ [e], l.take 1) else (l ++ [e], [])

/-- Table of floor stage f. -/
def State.floorTabOf (s : State) (f : Nat) : List MergeRec := s.mo.floorTab.get (fun _ => []) f
/-- Table of die stage d. -/
def State.dieTabOf (s : State) (d : Nat) : List MergeRec := s.mo.dieTab.get (fun _ => []) d

/-- Replaces a floor stage's table and forwards records to its die stage. -/
def State.setFloorTab (s : State) (f : Nat) (l out : List MergeRec) : State :=
  let mo := s.mo
  { s with mo := { mo with
      floorTab := mo.floorTab.set (fun _ => []) f l
      dieIn := mo.dieIn.set (fun _ => []) (f / 3) (mo.dieIn.get (fun _ => []) (f / 3) ++ out) } }

/-- Replaces a die stage's table and forwards records to the package stage. -/
def State.setDieTab (s : State) (d : Nat) (l out : List MergeRec) : State :=
  let mo := s.mo
  { s with mo := { mo with dieTab := mo.dieTab.set (fun _ => []) d l, pkgIn := mo.pkgIn ++ out } }

/-- The engine clocks of the tree run. -/
def State.treeOn (s : State) : Bool := s.running

/-! ### The stages -/

/-- A merge object is open for a context. -/
def State.openFor (s : State) (k ctx : Nat) : Bool :=
  match s.merge k with
  | some m => m.ctx == ctx
  | none => false

/-- The floor stage has accepted every record of a slot: it becomes FREE; the MATMUL that waits for it can go on, or its work is
over with its last record (R238, R271). -/
def State.slotDrained (s : State) (e slot : Nat) : State :=
  let x := s.eng e
  if x.recs.any fun q => q.slot == slot then s
  else
    let s1 := s.setEng e (x.setAcc slot AccSlot.reset)
    let r := engRoom e
    match (s1.room r).cmds.find? fun c => c.eng == some e && c.prog.isSome && c.fault.isNone && (dECtl c.desc).slots.contains slot with
    | some c =>
      if (c.prog.map (·.ended)).getD false then
        if x.recs.any fun q => (dECtl c.desc).slots.contains q.slot then s1
        else (s1.updCmd r c.seq fun d => { d with prog := none }).workDone r c.seq
      else s1.updCmd r c.seq fun d => { d with prog := d.prog.map fun p => { p with wait := false } }
    | none => s1

/-- ENGINE_RECORD (R271, R272, R274): the floor stage accepts the engine's oldest record. A record of a merge that is no
longer open for its context is discarded. -/
def execEngineRecord (e : EngIx) (s : State) : Host.Outcome State Fault Refusal :=
  .next (let x := s.eng e.val
    match x.recs with
    | [] => s
    | q :: rest =>
      if !s.treeOn then s
      else
        let s1 := s.setEng e.val { x with recs := rest }
        let f := engFloor e.val
        let s2 := if s1.openFor q.merge q.ctx then
            let p := tabPut (s1.floorTabOf f) 2048 q.toMerge
            s1.setFloorTab f p.1 p.2
          else s1
        s2.slotDrained e.val q.slot)

/-- DIE_STAGE_RECORD (R273, R274). -/
def execDieStageRecord (d : DieIx) (s : State) : Host.Outcome State Fault Refusal :=
  .next (match s.mo.dieIn.get (fun _ => []) d.val with
    | [] => s
    | q :: rest =>
      if !s.treeOn then s
      else
        let s1 := { s with mo := { s.mo with dieIn := s.mo.dieIn.set (fun _ => []) d.val rest } }
        let p := tabPut (s1.dieTabOf d.val) 4096 q
        s1.setDieTab d.val p.1 p.2)

/-- MORTAR_FORWARD_TIMEOUT (R274): 2 µs without a record for a key forward its entry. -/
def execMortarForwardTimeout (st : MortarStage) (k : MergeKey) (s : State) : Host.Outcome State Fault Refusal :=
  .next (if !s.treeOn then s else match st with
    | .floor f =>
      let l := s.floorTabOf f.val
      s.setFloorTab f.val (l.filter fun y => y.key != k) (l.filter fun y => y.key == k)
    | .die d =>
      let l := s.dieTabOf d.val
      s.setDieTab d.val (l.filter fun y => y.key != k) (l.filter fun y => y.key == k))

/-- A merge record as the data of a MORTAR message: a 64-byte header with token, slab, count and flags, then the
accumulators of 40 bytes each (R272, R461). -/
def MergeRec.bytes (e : MergeRec) : List Byte :=
  leList (e.key.token.toNat + e.key.slab % 2 ^ 16 * 2 ^ 32 + e.count % 2 ^ 32 * 2 ^ 64 +
    ((List.range 128).foldl (fun a c => a + e.flag.get (fun _ => 0) c % 4 * 2 ^ (2 * c)) 0) * 2 ^ 256) 64 ++
  (List.range 128).flatMap fun c => leList (e.cell c % (2 ^ 320 : Int)).toNat 40

/-- The merge record that the data of a MORTAR message holds. -/
def MergeRec.ofBytes (merge : Fin 256) (ctx : Nat) (l : List Byte) : MergeRec :=
  let h := leOfList (l.take 64)
  { ctx := ctx, key := { merge := merge, token := BitVec.ofNat 32 (bitsAt h 0 32), slab := bitsAt h 32 16 }, count := bitsAt h 64 32
    acc := FMap.setRange (fun _ => 0) [] 0 128 fun c => toSigned 320 (leOfList ((l.drop (64 + 40 * c)).take 40))
    flag := FMap.setRange (fun _ => 0) [] 0 128 fun c => bitsAt h (256 + 2 * c) 2 }

/-- A record whose token is homed on another package leaves for its home (R274). -/
def State.ringStage (s : State) (m : Merge) (e : MergeRec) : State :=
  let p := s.readVa m.cmd.room.val m.ctx (mcbHome m.mcb + e.key.token.toNat / 2 ^ mcbShift m.mcb) 1
  p.2.originate { Msg.blank 6 4 (leOfList p.1.bytes % 64) with
    addr := e.key.merge.val, ctx := m.ctx % 2048, data := e.bytes }

/-- The presence bit and the entry of a token and slab in the mortar area take contents that no rule lays out: those bytes become
free (R269, R274; assumption log 88). -/
def State.areaWrite (s : State) (m : Merge) (k : MergeKey) : State :=
  let n := (k.token.toNat - mcbLo m.mcb) * mcbSlabs m.mcb + k.slab
  let bits := ceilDiv (ceilDiv (mcbRows m.mcb * mcbSlabs m.mcb) 8) 4096 * 4096
  let a := s.freeBytes 1
  let b := (a.2.writeVa m.cmd.room.val m.ctx (mcbArea m.mcb + n / 8) a.1).freeBytes 5184
  b.2.writeVaPages m.cmd.room.val m.ctx (mcbArea m.mcb + bits + n * 5184) b.1

/-- A record of a token homed here meets its entry of the mortar area (R276, R278). -/
def State.areaStage (s : State) (m : Merge) (e : MergeRec) : State :=
  let k := e.key.merge.val
  let t := e.key.token.toNat
  let x := s.expected m t
  let old := m.entries.find? fun y => y.key == e.key
  let y := match old with
    | some o => o.add e
    | none => e
  if x < y.count then s.mergeFault k 0x03
  else
    let full := y.count = x
    let m1 := { m with
      got := m.got + e.count
      entries := (m.entries.filter fun z => z.key != e.key) ++ [y]
      written := if full then m.written ++ [(t - mcbLo m.mcb, e.key.slab)] else m.written }
    let s1 := (s.areaWrite m e.key).setMerge k (some m1)
    ((if full then s1.writeMergeRow m1 t e.key.slab y.value else s1)).mergeEnd k

/-- A record came to a package where its merge is not open: the result is undefined for the sending context (R279). The record is
discarded, and every output of a merge that this context has open here is unspecified (assumption log 117). -/
def State.senderUndef (s : State) (ctx : Nat) : State :=
  s.mo.merges.foldl (fun st p =>
    match p.2 with
    | some m => if m.ctx = ctx then (st.setMerge p.1 (some { m with bad := true })).spoilOut m.cmd.room.val ctx m.mcb else st
    | none => st) s

/-- PACKAGE_STAGE_RECORD (R274, R276 to R279): the oldest record that waits is forwarded to its home, faults the merge, or
joins its entry. -/
def execPackageStageRecord (s : State) : Host.Outcome State Fault Refusal :=
  .next (match s.mo.pkgIn with
    | [] => s
    | e :: rest =>
      if !s.treeOn then s
      else
        let s1 := { s with mo := { s.mo with pkgIn := rest } }
        match s1.merge e.key.merge.val with
        | none => s1.senderUndef e.ctx
        | some m =>
          let t := e.key.token.toNat
          if m.ctx ≠ e.ctx then s1.senderUndef e.ctx
          else if t < mcbLo m.mcb ∨ mcbHi m.mcb ≤ t then
            if mcbScope m.mcb = 1 then s1.ringStage m e else s1.mergeFault e.key.merge.val 0x04
          else if mcbSlabs m.mcb ≤ e.key.slab then s1.mergeFault e.key.merge.val 0x05
          else s1.areaStage m e)

end Sys2Proof.Machine
end

