-- ==== Sys2Proof/Machine/Coproc.lean ====
section
/-! DEFINITION. The coprocessor group (R351 to R357, R359 to R362): task slots bound to a call, tile registers, issued
commands, and latches. An instruction that holds its commit stage until something happens changes nothing while it holds. -/

namespace Sys2Proof.Machine

/-- The tile register that GC names; GC[4] must be zero (R351). -/
def cpTile (f : CpWord) : Nat := f.gc.val % 16

/-- A coprocessor instruction with the SUB of its operation whose unused fields are zero; any other is reserved (R351, R347 detail
0x01). -/
def State.cp (s : State) (r : Pipe) (ok : Bool) (f : CoreSt → State) : Host.Outcome State Fault Refusal :=
  s.ins r fun c => if ok then f c else s.coFault r (routineInfo 1)

/-- Commits with the registers `c` and an action that leaves the pair (R366). -/
def State.finishAct (s : State) (r : Pipe) (c : CoreSt) (a : HeldAct) : State :=
  (s.setCore r.val c.advance).commitIns r.val (some a)

/-- The number of commands a call has issued that have neither completed nor faulted (R356). -/
def RoomSt.outstanding (x : RoomSt) (n : Nat) : Nat :=
  (x.cmds.filter fun c => match c.src with
    | .issued v t => v == n && decide (t < 65536)
    | _ => false).length +
  (x.reading.filter fun i => i.level == n && decide (i.ticket < 65536)).length +
  (x.held.filter fun h => match h with
    | some (.read i) => i.level == n && decide (i.ticket < 65536)
    | _ => false).length

/-- A ticket whose command has neither completed nor faulted. -/
def RoomSt.ticketOpen (x : RoomSt) (n : Nat) (t : Nat) : Bool :=
  (x.cmds.any fun c => c.src == .issued n t) || (x.reading.any fun i => i.level == n && i.ticket == t) ||
  (x.held.any fun h => match h with
    | some (.read i) => i.level == n && i.ticket == t
    | _ => false)

/-- Every command issued into the slot that the executing call holds has ended (R355). -/
def RoomSt.slotIdle (x : RoomSt) : Bool :=
  match x.cop.eng with
  | some e => !x.usesSlot e x.cop.slot
  | none => true

/-- ESEL (R352, R353, R355): holds CO until the commands of the slot held have ended; released, it binds a slot of logical engine
ga[2:0]. A register that holds more than 4 names no unit. -/
def execEsel (r : Pipe) (f : CpWord) (s : State) : Host.Outcome State Fault Refusal :=
  s.cp r (f.sub == 0 && f.gb.val == 0 && f.imm == 0) fun c =>
    if !(s.room r.val).slotIdle then s
    else s.commitIns r.val (some (.esel f.gc.val ((c.rd f.ga.val).toNat % 8)))

/-- The data-memory address of TLOAD and TSTORE (R352). -/
def tileAddr (c : CoreSt) (f : CpWord) : Nat := ((c.rd f.ga.val).toNat + f.imm.toNat * 16) % 2 ^ 32

/-- TLOAD (R352, R359, R360, R362): without a bound slot it faults; without a free entry it stalls; an address outside R340
transfers zeros, which are never made visible, and faults. -/
def execTload (r : Pipe) (f : CpWord) (s : State) : Host.Outcome State Fault Refusal :=
  s.cp r (f.sub == 1 && decide (f.gc.val < 16) && f.gb.val == 0) fun c =>
    let x := s.room r.val
    let a := tileAddr c f
    match x.cop.eng with
    | none => s.coFault r (routineInfo 6)
    | some e =>
      if 8 ≤ x.tloads.length then s
      else if dmOk c.fw a 16 then
        (s.startTload r.val e x.cop.slot (cpTile f) a none).finishAct r c (.tload x.nextTload)
      else (s.startTload r.val e x.cop.slot (cpTile f) a (some false)).coFault r (dmInfo a)

/-- TLOAD_TRANSFER_END (R359): the oldest transfer that has been released or squashed ends in the shadow slot; a committed one
becomes visible; the entry is freed. -/
def execTloadTransferEnd (r : RoomIx) (s : State) : Host.Outcome State Fault Refusal :=
  .next (let x := s.room r.val
    match x.tloads.find? fun t => t.commit.isSome with
    | none => s
    | some t =>
      let k := (s.eng t.eng).slot t.slot
      let k1 := { k with shad := k.shad.set (fun _ => 0) t.treg t.data }
      let k2 := if t.commit = some true then k1.setTile t.treg t.data else k1
      let s1 := s.setEng t.eng ((s.eng t.eng).setSlot t.slot k2)
      (s1.setRoom r.val { x with tloads := x.tloads.filter fun u => u.num != t.num }).freeBound r.val)

/-- TPREF (R352, R361). -/
def execTpref (r : Pipe) (f : CpWord) (s : State) : Host.Outcome State Fault Refusal :=
  s.cp r (f.sub == 2 && f.gc.val == 0 && decide (f.imm.toNat < 8)) fun c =>
    let va := (c.rd f.gb.val).toNat % 2 ^ 25 * 2 ^ 32 + (c.rd f.ga.val).toNat
    (s.prefetch r.val c.ctx va (f.imm.toNat + 1)).finish r c

/-- TSTORE (R352): waits for a TLOAD in flight on its tile register. -/
def execTstore (r : Pipe) (f : CpWord) (s : State) : Host.Outcome State Fault Refusal :=
  s.cp r (f.sub == 3 && decide (f.gc.val < 16) && f.gb.val == 0) fun c =>
    let x := s.room r.val
    let a := tileAddr c f
    match x.cop.eng with
    | none => s.coFault r (routineInfo 6)
    | some e =>
      if x.tloads.any fun t => t.eng == e && t.slot == x.cop.slot && t.treg == (cpTile f) && t.commit != some false then s
      else if dmOk c.fw a 16 then
        let v := (((s.eng e).slot x.cop.slot).tile (cpTile f)).toNat
        (s.setRoom r.val { x with dmem := Mem.writeLe x.dmem a 16 v }).finish r c
      else s.coFault r (dmInfo a)

/-! ### Issued commands (R356) -/

/-- The inbox that the executing CALL came through (R250). -/
def RoomSt.callInbox (x : RoomSt) : Option Nat :=
  match x.core.call.bind x.find with
  | some c => match c.src with
    | .inbox i => some i
    | _ => none
  | none => none

/-- EISSUE (R352, R356): holds CO while 16 commands of the call are outstanding; gc takes the issue ordinal, counted from
zero (assumption log 38). -/
def execEissue (r : Pipe) (f : CpWord) (s : State) : Host.Outcome State Fault Refusal :=
  s.cp r (f.sub == 4 && f.gb.val == 0 && f.imm == 0) fun c =>
    let x := s.room r.val
    let a := (c.rd f.ga.val).toNat
    match x.cop.eng with
    | none => s.coFault r (routineInfo 6)
    | some e =>
      if !dmOk c.fw a 256 then s.coFault r (dmInfo a)
      else if 16 ≤ x.outstanding x.level then s
      else
        let t := x.cop.issued % 65536
        let k := x.cop
        let y := x.setCop { k with issued := k.issued + 1, ended := k.ended.filter fun p => p.1 != t }
        (s.setRoom r.val y).finishAct r (c.wrG f.gc.val (BitVec.ofNat 32 t))
          (.read { level := x.level, ticket := t, addr := a, eng := e, slot := k.slot, ctx := c.ctx, fw := c.fw, home := x.callInbox })

/-- A descriptor with the engine field of PLACE zero: EISSUE ignores that field (R356; assumption log 118). -/
def noEngine (d : BitVec 2048) : BitVec 2048 := d &&& ~~~(7#2048 <<< 22)

/-- What can be judged of an issued descriptor as it is read: reserved encodings, the opcodes, and the room that PLACE names (R6,
R356). What its run judges further faults the call in the same way (`State.workIssued`). -/
def State.issueOk (s : State) (r : Nat) (d : BitVec 2048) : Bool :=
  let p := dPlace d
  headerOk d && s.physRoom (plFloor p) (plRoom p) == some r && s.dieUp (plDie p) &&
  match dOpcode d with
  | 1 => syncLegal d
  | 2 => mmWordsOk d && (dAgen d == 2 || agenOk d 0)
  | 3 | 4 => moveWordsOk d && (dAgen d == 2 || agenOk d 0)
  | 5 | 6 => gsWordsOk d && (dAgen d == 2 || agenOk d 0)
  | 7 => haloWordsOk d && (dAgen d == 2 || agenOk d 0)
  | 8 => openLegal d
  | _ => false

/-- The descriptor that an EISSUE names. -/
def RoomSt.issuedDesc (x : RoomSt) (i : IssueRead) : BitVec 2048 := BitVec.ofNat 2048 (Mem.leNat x.dmem i.addr 256)

/-- A fault of a call that an issued descriptor causes (R356): of the CALL, or of a service entry. -/
def State.issueFault (s : State) (r : Nat) (i : IssueRead) : State :=
  let f := routineInfo 6
  if 65536 ≤ i.ticket then s
  else if i.level = 0 then s.faultCall r f
  else if (s.room r).core.active && (s.room r).level == i.level then s.routineFault r f
  else s

/-- The command of a read descriptor enters the room for the bound engine and slot. -/
def State.enterIssued (s : State) (r : Nat) (i : IssueRead) (d : BitVec 2048) : State :=
  let q := (s.room r).nextSeq
  (s.enterRoom r (.issued i.level i.ticket) i.ctx d 0xFFFFFFFF).updCmd r q fun c =>
    { c with eng := some i.eng, slot := i.slot, home := i.home }

/-- ISSUED_DESCRIPTOR_READ_END (R356, R315): the oldest read ends; the command takes its room sequence number, or the call
faults with detail 0x06. -/
def execIssuedDescriptorReadEnd (r : RoomIx) (s : State) : Host.Outcome State Fault Refusal :=
  .next (let x := s.room r.val
    match x.reading with
    | [] => s
    | i :: rest =>
      let d := noEngine (x.issuedDesc i)
      let s1 := s.setRoom r.val { x with reading := rest }
      if s.issueOk r.val d then s1.enterIssued r.val i d else s1.issueFault r.val i)

/-- EWAIT (R352, R354). -/
def execEwait (r : Pipe) (f : CpWord) (s : State) : Host.Outcome State Fault Refusal :=
  s.cp r (f.sub == 5 && f.gb.val == 0 && f.imm == 0) fun c =>
    let x := s.room r.val
    let t := (c.rd f.ga.val).toNat % 65536
    if x.ticketOpen x.level t then
      (s.setCore r.val { c with wait := .ewait f.gc.val t }).commitIns r.val none
    else
      let st := match x.cop.ended.find? fun p => p.1 == t with
        | some p => p.2
        | none => 2
      s.finish r (c.wrG f.gc.val (BitVec.ofNat 32 st))

/-! ### Latches (R352, R354) -/

/-- An instruction that names latch ga[13:0]; at routine level one outside the context's range faults with LATCH_RANGE
(R347, R354). -/
def State.latchIns (s : State) (r : Pipe) (f : CpWord) (ok : Bool) (g : CoreSt → Nat → State) : Host.Outcome State Fault Refusal :=
  s.cp r ok fun c =>
    let l := (c.rd f.ga.val).toNat % 2 ^ 14
    if c.fw || s.latchIn c.ctx l then g c l else s.coFault r (FaultInfo.mk0 causeLatchRange)

/-- LSIG (R352, R299). -/
def execLsig (r : Pipe) (f : CpWord) (s : State) : Host.Outcome State Fault Refusal :=
  s.latchIns r f (f.sub == 6 && f.gc.val == 0 && decide (f.imm.toNat < 3)) fun c l =>
    s.finishAct r c (.signal f.imm.toNat l (c.rd f.gb.val).toNat)

/-- LWAIT (R352, R353). -/
def execLwait (r : Pipe) (f : CpWord) (s : State) : Host.Outcome State Fault Refusal :=
  s.latchIns r f (f.sub == 7 && (f.imm == 2 || f.imm == 3)) fun c l =>
    let x := (c.rd f.gb.val).toNat
    if latchHolds f.imm.toNat (s.latchVal l) x then s.finish r (c.wrG f.gc.val (s.latchVal l))
    else (s.setCore r.val { c with wait := .lwait f.gc.val l f.imm.toNat x }).commitIns r.val none

/-- LREAD (R352). -/
def execLread (r : Pipe) (f : CpWord) (s : State) : Host.Outcome State Fault Refusal :=
  s.latchIns r f (f.sub == 8 && f.gb.val == 0 && f.imm == 0) fun c l => s.finish r (c.wrG f.gc.val (s.latchVal l))

end Sys2Proof.Machine
end

