-- ==== Sys2Proof/Machine/Flits.lean ====
section
/-! DEFINITION. Lorlink messages on their way (R448 to R451, R457 to R467, R477 to R480, R488): routing at the source, egress,
reception, forwarding, retry, gaps, route invalidation and flushing. -/

namespace Sys2Proof.Machine

/-! ### Messages as bytes (R458, R460) -/

/-- The 32 bytes of a header. -/
def Msg.header (m : Msg) : List Byte :=
  leList (m.mtype + m.ptag % 2 ^ 8 * 2 ^ 8 + m.src % 2 ^ 8 * 2 ^ 16 + m.dst % 2 ^ 8 * 2 ^ 24 + m.hops % 2 ^ 8 * 2 ^ 32 +
    (m.data.length + m.left) % 2 ^ 16 * 2 ^ 48 + m.stag % 2 ^ 32 * 2 ^ 64 + m.bseq % 2 ^ 32 * 2 ^ 96 + m.addr % 2 ^ 64 * 2 ^ 128 +
    m.ctx % 2 ^ 11 * 2 ^ 192 + m.orig % 2 ^ 16 * 2 ^ 208 + m.aux % 2 ^ 32 * 2 ^ 224) 32

/-- A field of `n` bytes at offset `off` of the bytes of a message. -/
def msgField (l : List Byte) (off n : Nat) : Nat := leOfList ((l.drop off).take n)

/-- The message that bytes on a VC hold, from its header on. -/
def Msg.ofBytes (vc : Nat) (l : List Byte) : Msg :=
  { mtype := msgField l 0 1, ptag := msgField l 1 1, src := msgField l 2 1, dst := msgField l 3 1, hops := msgField l 4 1
    stag := msgField l 8 4, bseq := msgField l 0xC 4, addr := msgField l 0x10 8, ctx := msgField l 0x18 2 % 2048
    orig := msgField l 0x1A 2, aux := msgField l 0x1C 4, data := (l.drop 32).take (msgField l 6 2), vc := vc, origin := none
    held := 0, old := false, sent := 0, left := msgField l 6 2 - ((l.drop 32).take (msgField l 6 2)).length, via := none }

/-- The payload of flit `j` of a message that begins a flit of its own, padded with zeros. -/
def Msg.payload (m : Msg) (j : Nat) : List Byte :=
  let c := ((m.header ++ m.data).drop (j * 256)).take 256
  c ++ List.replicate (256 - c.length) 0

/-- The flits of a message that the bytes present fill. -/
def Msg.ready (m : Msg) : Nat := if m.left = 0 then ceilDiv (32 + m.data.length) 256 else (32 + m.data.length) / 256

/-! ### Course-pack (R464) -/

/-- A range of HBM offsets inside one enabled CP range. -/
def State.inCp (s : State) (a n : Nat) : Bool :=
  (List.range 8).any fun k =>
    let b := s.fget (F.CP_BASE.BASE k) * 0x100000
    let z := s.fget (F.CP_SIZE.SIZE k) * 0x100000
    decide (b ≤ a) && decide (a + n ≤ b + z)

/-- The 64-byte units of a list. -/
def units64 (l : List Byte) : List (List Byte) := (List.range (l.length / 64)).map fun i => (l.drop (i * 64)).take 64

/-- The 32 BF16 encodings of a unit. -/
def unitWords (l : List Byte) : List Nat := (List.range 32).map fun i => leOfList ((l.drop (2 * i)).take 2)

/-- A message as port `q` of the package that originates it sends it (R464). -/
def State.coursed (s : State) (q : Nat) (m : Msg) : Msg :=
  if m.via.isNone && m.sent == 0 && (m.mtype == 2 || m.mtype == 3) && m.ptag == 0 && s.flag (F.PORT_CTRL.CP_EN q) && s.inCp m.addr m.orig &&
      m.addr % 64 == 0 && m.orig % 64 == 0 then
    { m with ptag := 2, data := (units64 m.data).flatMap fun u => coursePack (unitWords u) }
  else m

/-- The data of a received message after decoding (R462, R184). -/
def Msg.plain (m : Msg) : List Byte :=
  if m.ptag = 2 then
    (List.range (m.data.length / 33)).flatMap fun i => courseUnpack ((m.data.drop (i * 33)).take 33)
  else m.data

/-! ### Egress (R450, R465, R467) -/

/-- Sends one DATA flit of a message: it takes the next SEQ and a credit, and stays in the replay buffer. FS marks a frame
whose position in time the model does not keep, and is free. -/
def State.sendFlit (s : State) (q vc cseq j : Nat) (pay : List Byte) : State :=
  let p := s.port q
  let h := 1 + s.draw.1 % 2 * 2 ^ 4 + vc * 2 ^ 5 + p.txSeq * 2 ^ 8 +
    (if j = 0 then 0 else 2 ^ 41 + cseq % 2 ^ 16 * 2 ^ 42)
  let f := p.stamp { hdr := BitVec.ofNat 64 h, payload := pay, crc := 0, fecLanes := [] }
  (s.draw.2.setPort q { p with
    txSeq := (p.txSeq + 1) % 1024, credit := vcSet p.credit vc (vcGet p.credit vc - 1)
    replay := p.replay ++ [(p.txSeq, f)] }).emit (.flit (portIx q) f)

/-- Credit and replay buffer admit one flit of a VC (R450, R465, R467). -/
def PortSt.admits (p : PortSt) (vc : Nat) : Bool := decide (0 < vcGet p.credit vc) && decide (p.replay.length < 512)

/-- Sends up to `n` flits of a message, as far as they are there and its VC admits them; each gives back one receive buffer that
the message holds. -/
def State.sendFlits (q : Nat) : Nat → Msg → State → Msg × State
  | 0, m, s => (m, s)
  | n + 1, m, s =>
    if decide (m.sent < m.ready) && (s.port q).admits m.vc then
      let s1 := s.sendFlit q m.vc m.bseq m.sent (m.payload m.sent)
      State.sendFlits q n { m with sent := m.sent + 1, held := m.held - 1 } (s1.freeBufs { m with held := min m.held 1 })
    else (m, s)

/-- Every flit of a message has been sent. -/
def Msg.gone (m : Msg) : Bool := m.left == 0 && decide (m.ready ≤ m.sent)

/-- Sends what a Live port can send, the messages of each VC in order and one after the other (R458); the list is what the
egress queue holds, `held` the VCs whose message is not yet gone. -/
def State.pumpList (q : Nat) : List Msg → List Nat → State → List Msg × State
  | [], _, s => ([], s)
  | m :: l, held, s =>
    if held.contains m.vc then
      let r := State.pumpList q l held s
      (m :: r.1, r.2)
    else
      let c := State.sendFlits q (s.coursed q m).ready (s.coursed q m) s
      if c.1.gone then State.pumpList q l held (c.2.freeBufs c.1)
      else
        let r := State.pumpList q l (m.vc :: held) c.2
        ((if c.1.sent = 0 then m else c.1) :: r.1, r.2)

/-- Sends what port `q` can send. -/
def State.pump (s : State) (q : Nat) : State :=
  if s.running && s.isLive q then
    let r := State.pumpList q (s.port q).egress [] s
    r.2.setPort q { r.2.port q with egress := r.1 }
  else s

/-- Appends a message to a port's egress queue. -/
def State.enqueue (s : State) (q : Nat) (m : Msg) : State :=
  let p := s.port q
  s.setPort q { p with egress := p.egress ++ [m] }

/-- The route of a message of this package: a stream's by its floor's copy, others by the register (R448, R449). -/
def State.msgRoute (s : State) (m : Msg) : W32 × State :=
  match m.origin with
  | some (t, _) => s.floorRoute (engFloor t.eng.val) m.dst
  | none => (s.reg (Off.ROUTE m.dst), s)

/-- Routes a message at its source (R450): the party wall's go to port P. One that goes by a stale copy while INV is one leaves
before INV clears (R449). -/
def State.routeMsg (s : State) (m : Msg) : State :=
  if m.vc = 3 then s.enqueue 4 m
  else
    let v := s.msgRoute m
    if v.2.noPath v.1 m.dst then
      match m.origin with
      | some (t, k) => v.2.parkBlock t k xfUnreachable
      | none => v.2.countSat (F.PORT_CNT3.MISROUTE (routePort v.1)) 1
    else v.2.enqueue (routePort v.1) { m with old := s.flag F.RT_CTRL.INV && v.1 != s.reg (Off.ROUTE m.dst) }

/-- Every port sends what it can. -/
def State.pumpAll (s : State) : State := (List.range 5).foldl (fun st q => st.pump q) s

/-- MESSAGE_EGRESS (R448 to R450, R464, R465, R467): the oldest message of this package is routed, and every Live port sends
what its credits allow. -/
def execMessageEgress (s : State) : Host.Outcome State Fault Refusal :=
  .next (if !s.running then s
    else match s.link.out with
    | [] => s.pumpAll
    | m :: rest => (State.routeMsg { s with link := { s.link with out := rest } } m).pumpAll)

/-! ### Received flits (R456, R465 to R468, R477) -/

/-- Drops what an ACK covers from a replay buffer (R467). -/
def dropAcked (l : List (Nat × Flit)) (ack : Nat) : List (Nat × Flit) :=
  if l.any fun e => e.1 == ack then (l.dropWhile fun e => e.1 != ack).drop 1 else l

/-- The ACK and credits of a received header (R465, R467). -/
def PortSt.takeHdr (p : PortSt) (h : W64) : PortSt :=
  let vc := hCrVc h
  let n := (hCrCount h + 512 - vcGet p.partnerCr vc) % 512
  { p with
    replay := if hAckV h then dropAcked p.replay (hAck h) else p.replay
    credit := vcSet p.credit vc (vcGet p.credit vc + n)
    partnerCr := vcSet p.partnerCr vc (hCrCount h) }

/-- Sends a NAK (R466). -/
def State.sendNak (s : State) (q : Nat) : State :=
  let p := s.port q
  (s.setPort q { p with nakWait := true }).emit (.nakFlit (portIx q) p.lastAck p.rxAny)

/-- A flit is discarded: one NAK, until a correct flit arrives (R466). -/
def State.badFlit (s : State) (q : Nat) : State := if (s.port q).nakWait then s else s.sendNak q

/-- Corrected bytes count, and retrain the port when one lane exceeds its limit within 1 ms (R468): 125,000 timestamp
clocks. -/
def State.fecCount (s : State) (q : Nat) (lanes : List (Fin 18)) : State :=
  let s1 := s.count (F.PORT_CNT1.FEC_CORR q) lanes.length
  let now := s.ts.toNat
  let p := s1.port q
  let log := (p.fecLog.filter fun e => decide (now < e.2 + 125000)) ++ lanes.map fun n => (n.val, now)
  let s2 := s1.setPort q { p with fecLog := log }
  match (List.range 18).find? fun n => decide (s.fget (F.PORT_CTRL.LANE_ERR_MAX q) < (log.filter fun e => e.1 == n).length) with
  | some n => if s.isLive q then s2.retrain q (some n) else s2
  | none => s2

/-- VC of a message type (R459); none for a type that does not exist. -/
def vcOfType : Nat → Option Nat
  | 1 => some 0
  | 2 => some 1
  | 3 => some 2
  | 4 => some 1
  | 5 => some 5
  | 6 => some 4
  | 7 => some 5
  | 8 => some 3
  | 9 => some 3
  | 0xA => some 3
  | _ => none

/-- A message that breaks the protocol (R461 to R463): a type that does not exist or lies on another VC, a reserved payload
tag, a course-packed request. -/
def Msg.bad (m : Msg) : Bool := vcOfType m.mtype != some m.vc || decide (2 < m.ptag) || (m.mtype == 1 && m.ptag == 2)

/-- A message that arrives on ring port `q` for another package goes out of the opposite port; else it is dropped (R448, R451). -/
def State.onward (s : State) (q : Nat) (m : Msg) : Bool :=
  q != 4 && m.hops != 0 && !(s.span q).contains m.dst && s.isLive (q ^^^ 1)

/-- A message for another package, or the beginning of one (R448, R451). -/
def State.forward (s : State) (q : Nat) (m : Msg) : State :=
  if s.onward q m then (s.enqueue (q ^^^ 1) { m with hops := m.hops - 1, via := some q }).pump (q ^^^ 1)
  else (s.giveBack q m.vc m.held).countSat (F.PORT_CNT3.MISROUTE q) 1

/-- A whole message has arrived on port `q`. -/
def State.arrive (s : State) (q : Nat) (m : Msg) : State :=
  if m.dst ≠ s.pkgNum then s.forward q m
  else if m.bad then (s.giveBack q m.vc m.held).countSat (F.PORT_CNT3.PROTO_ERR q) 1
  else
    let p := s.port q
    s.setPort q { p with rx := p.rx ++ [m] }

/-- The next 32-byte boundary. -/
def pad32 (n : Nat) : Nat := 32 * ceilDiv n 32

/-- Cuts payload bytes into whole messages and the beginning of one more; an MTYPE of zero marks padding (R458). -/
def cutMsgs : Nat → List Byte → List (List Byte) × Option Partial
  | 0, _ => ([], none)
  | fuel + 1, l =>
    if l.length < 32 ∨ msgField l 0 1 = 0 ∨ 5184 < msgField l 6 2 then ([], none)
    else
      let need := 32 + msgField l 6 2
      if need ≤ l.length then
        let r := cutMsgs fuel (l.drop (pad32 need))
        (l.take need :: r.1, r.2)
      else ([], some { bytes := l, need := need, flits := 1, course := .here })

/-- Gives the flit's buffer to the last message that has bytes in it: the one that goes on, or the last whole one. -/
def holdLast (msgs : List Msg) : List Msg :=
  match msgs.reverse with
  | [] => []
  | m :: l => ({ m with held := m.held + 1 } :: l).reverse

/-- A message begins whose last byte has not arrived (R448, R451, R477). -/
def State.beginPart (s : State) (q vc : Nat) (x : Partial) : State :=
  let m := { Msg.ofBytes vc x.bytes with held := x.flits }
  let note := fun (st : State) (c : Course) =>
    let p := st.port q
    st.setPort q { p with parts := p.parts.set (fun _ => none) vc (some { x with course := c }) }
  if m.dst = s.pkgNum then note s .here
  else (note s (if s.onward q m then .onward else .dropped)).forward q m

/-- Takes in the messages that a flit completes, and the one that goes on. -/
def State.takeMsgs (s : State) (q vc : Nat) (msgs : List Msg) (part : Option Partial) : State :=
  let p := s.port q
  let s1 := s.setPort q { p with parts := p.parts.set (fun _ => none) vc none }
  let l := if part.isSome then msgs else holdLast msgs
  let s2 := l.foldl (fun st m => st.arrive q m) s1
  match part with
  | some x => s2.beginPart q vc x
  | none => if msgs.isEmpty then s2.giveBack q vc 1 else s2

/-- A queued message that the rest of an incomplete one on a VC of port `q` goes to. -/
def Msg.fedBy (m : Msg) (q vc : Nat) : Bool := m.via == some q && m.vc == vc && m.left != 0

/-- More bytes of a message that is not for this package: they go on as they come (R448), or are dropped; `bufs` flit buffers
come with them. -/
def State.feed (s : State) (q vc bufs : Nat) (l : List Byte) : State :=
  let p := s.port (q ^^^ 1)
  let add := fun (m : Msg) =>
    if m.fedBy q vc then { m with data := m.data ++ l, left := m.left - l.length, held := m.held + bufs } else m
  if p.egress.any fun m => m.fedBy q vc then (s.setPort (q ^^^ 1) { p with egress := p.egress.map add }).pump (q ^^^ 1)
  else s.giveBack q vc bufs

/-- More bytes of an incomplete message, and the messages that its last flit begins. -/
def State.continuePart (s : State) (q vc : Nat) (x : Partial) (pay : List Byte) : State :=
  let k := x.need - x.bytes.length
  let p := s.port q
  let y := { x with bytes := x.bytes ++ pay.take k, flits := x.flits + 1 }
  let r := cutMsgs 8 (pay.drop (pad32 k))
  let next := r.1.map (Msg.ofBytes vc)
  if x.course = .here then
    if k ≤ 256 then s.takeMsgs q vc ({ Msg.ofBytes vc y.bytes with held := x.flits } :: next) r.2
    else s.setPort q { p with parts := p.parts.set (fun _ => none) vc (some y) }
  else if 256 < k then (s.setPort q { p with parts := p.parts.set (fun _ => none) vc (some y) }).feed q vc 1 pay
  else
    let last := next.isEmpty && r.2.isNone
    let s1 := (s.setPort q { p with parts := p.parts.set (fun _ => none) vc none }).feed q vc (b2n last) (pay.take k)
    if last then s1 else s1.takeMsgs q vc next r.2

/-- An incomplete message that is not for this package ends: what is queued of it goes, and a forwarding package passes an
ABORT on (R479). -/
def State.endOnward (s : State) (q vc : Nat) (x : Partial) : State :=
  let p := s.port q
  let s1 := s.setPort q { p with parts := p.parts.set (fun _ => none) vc none }
  let o := s1.port (q ^^^ 1)
  let s2 := (o.egress.filter fun m => m.fedBy q vc).foldl (fun st m => st.freeBufs m)
    (s1.setPort (q ^^^ 1) { o with egress := o.egress.filter fun m => !m.fedBy q vc })
  if x.course = .onward && s.isLive (q ^^^ 1) then s2.emit (.abortFlit (portIx (q ^^^ 1)) vc (msgField x.bytes 0xC 2)) else s2

/-- An incomplete message whose next flit begins another is discarded and counted in PROTO_ERR (assumption log 40). -/
def State.cutShort (s : State) (q vc : Nat) (x : Partial) : State :=
  let s1 := s.countSat (F.PORT_CNT3.PROTO_ERR q) 1
  if x.course = .here then s1.giveBack q vc x.flits else s1.endOnward q vc x

/-- The payload of an accepted DATA flit (R458, R477, R480): it continues a message, or begins new ones. -/
def State.takePayload (s : State) (q vc cseq : Nat) (cont : Bool) (pay : List Byte) : State :=
  let parts := (s.port q).parts.get (fun _ => none) vc
  if cont then
    match parts with
    | some x =>
      if msgField x.bytes 0xC 2 = cseq then s.continuePart q vc x pay
      else (s.countSat (F.PORT_CNT2.ORPHAN q) 1).giveBack q vc 1
    | none => (s.countSat (F.PORT_CNT2.ORPHAN q) 1).giveBack q vc 1
  else
    let s1 := match parts with
      | some x => s.cutShort q vc x
      | none => s
    let r := cutMsgs 8 pay
    s1.takeMsgs q vc (r.1.map (Msg.ofBytes vc)) r.2

/-- A DATA flit (R466): accepted in order, or discarded. -/
def State.dataFlit (s : State) (q : Nat) (f : Flit) : State :=
  let p := s.port q
  if hSeq f.hdr ≠ p.rxSeq then s.badFlit q
  else
    (s.setPort q { p with rxSeq := (p.rxSeq + 1) % 1024, rxAny := true, nakWait := false }).takePayload q (hVc f.hdr)
      (hCseq f.hdr) (hCont f.hdr) f.payload

/-- A NAK (R467, R468): the buffer is resent from ACK + 1; eight in a row with one ACK retrain the port. -/
def State.takeNak (s : State) (q : Nat) (h : W64) : State :=
  let s1 := s.countSat (F.PORT_CNT0.NAKS q) 1
  let p := (s1.port q).takeHdr h
  let key := if hAckV h then hAck h else 1024
  let run := if p.nakRun ≠ 0 ∧ p.nakAck = key then p.nakRun + 1 else 1
  let s2 := s1.setPort q { p with nakAck := key, nakRun := run }
  if 8 ≤ run then s2.retrain q none else s2.resend q

/-! ### Gaps (R478 to R480, R484) -/

/-- The block that a response of package `src` answers: an unanswered remote read or write with the BSEQ, modulo `m`. -/
def State.findRemote (s : State) (src bseq m : Nat) (write : Bool) : Option (StreamRef × Stream × InFlight) :=
  (List.finRange 150).findSome? fun e =>
    (s.eng e.val).streams.findSome? fun t =>
      if t.isWrite = write then
        (t.flight.find? fun f => (match f.reach with
          | .remote b => b % m == bseq % m
          | _ => false) && remotePkg (f.pa / 8) == src).map fun f => ({ eng := e, id := t.id }, t, f)
      else none

/-- A partial message is abandoned at its destination (R480); the block of an abandoned RD_RSP parks at once (R484). -/
def State.abandon (s : State) (q vc : Nat) (x : Partial) : State :=
  let m := Msg.ofBytes vc x.bytes
  let p := s.port q
  let s1 := (s.setPort q { p with parts := p.parts.set (fun _ => none) vc none }).giveBack q vc x.flits
  let s2 := ((s1.countSat (F.PORT_CNT2.ABANDON q) 1).fset (F.ABANDON_TAG.STAG q) m.stag).pkgEvent evLorlink
  if m.mtype = 2 then
    match s2.findRemote m.src m.aux (2 ^ 32) false with
    | some b => s2.parkBlock b.1 b.2.2.k xfUnreachable
    | none => s2
  else s2

/-- A partial message ends here, at its destination or at a forwarding package (R479, R480). -/
def State.endPartial (s : State) (q vc : Nat) (x : Partial) : State :=
  if x.course = .here then s.abandon q vc x else s.endOnward q vc x

/-- An ABORT (R480) ends the partial message with its CSEQ. -/
def State.takeAbort (s : State) (q : Nat) (h : W64) : State :=
  let s1 := s.setPort q ((s.port q).takeHdr h)
  match (s1.port q).parts.get (fun _ => none) (hVc h) with
  | some x => if msgField x.bytes 0xC 2 = hCseq h then s1.endPartial q (hVc h) x else s1
  | none => s1

/-- A flit that passes its checks. -/
def State.goodFlit (s : State) (q : Nat) (f : Flit) : State :=
  match hKind f.hdr with
  | 1 => (s.setPort q ((s.port q).takeHdr f.hdr)).dataFlit q f
  | 2 => s.takeNak q f.hdr
  | 3 => s.takeAbort q f.hdr
  | _ => s.setPort q ((s.port q).takeHdr f.hdr)

/-- The 256 payload bytes of a flit (R455): bytes that the operand does not name are free, bytes beyond them are no part of
the flit (log 62). -/
def State.carried (s : State) (f : Flit) : Flit × State :=
  if f.payload.length = 256 then (f, s)
  else
    let d := s.draw
    ({ f with payload := (f.payload ++ leList d.1 256).take 256 }, d.2)

/-- A flit of 256 payload bytes arrives at a LIVE port. -/
def State.flitIn (s : State) (q : Nat) (f : Flit) : State :=
  let s1 := s.fecCount q f.fecLanes
  if !s1.isLive q then s1
  else if crc32c (flitBytes f) != f.crc then s1.badFlit q
  else if hReserved f.hdr then (s1.countSat (F.PORT_CNT3.PROTO_ERR q) 1).badFlit q
  else (s1.goodFlit q f).pump q

/-- FLIT_RECEIVE (R455, R456, R465, R466, R468, R477, R480). -/
def execFlitReceive (q : PortIx) (f : Flit) (s : State) : Host.Outcome State Fault Refusal :=
  .next (if s.running && s.isLive q.val then (s.carried f).2.flitIn q.val (s.carried f).1 else s)

/-- NAK (R467, R468): the header of a NAK flit that passed its checks. -/
def execNak (q : PortIx) (hdr : W64) (s : State) : Host.Outcome State Fault Refusal :=
  .next (if s.running && s.isLive q.val && hKind hdr == 2 && !hReserved hdr then s.takeNak q.val hdr else s)

/-- NAK_TIMEOUT (R466): no correct flit within 256 flit times of a NAK. -/
def execNakTimeout (q : PortIx) (s : State) : Host.Outcome State Fault Refusal :=
  .next (if s.running && s.isLive q.val && (s.port q.val).nakWait then s.sendNak q.val else s)

/-- ABORT (R480): the header of an ABORT flit that passed its checks. -/
def execAbort (q : PortIx) (hdr : W64) (s : State) : Host.Outcome State Fault Refusal :=
  .next (if s.running && s.isLive q.val && hKind hdr == 3 && !hReserved hdr then s.takeAbort q.val hdr else s)

/-- LL_GAP_EXPIRY (R478 to R480). -/
def execLlGapExpiry (q : PortIx) (vc : Fin 8) (s : State) : Host.Outcome State Fault Refusal :=
  .next (if s.running then
    match (s.port q.val).parts.get (fun _ => none) vc.val with
    | some x => s.endPartial q.val vc.val x
    | none => s
  else s)

/-- LL_RESP_EXPIRY (R483): block k of a stream has had no response. -/
def execLlRespExpiry (t : StreamRef) (k : Nat) (s : State) : Host.Outcome State Fault Refusal :=
  .next (match s.stream t with
    | some st =>
      if st.flight.any fun f => f.k == k && (match f.reach with
        | .remote _ => true
        | _ => false) then s.parkBlock t k xfUnreachable else s
    | none => s)

/-! ### Route invalidation and flushing (R449, R488) -/

/-- A queued message that ROUTE sent: one of this package and not of the party wall (R448, R449). -/
def Msg.routed (m : Msg) : Bool := m.via.isNone && m.vc != 3

/-- RT_INV (R449): INV reads one; what ROUTE has queued until now was routed under old entries. -/
def execRtInv (w : BusWr) (s : State) : Host.Outcome State Fault Refusal :=
  .next (s.openWrite Off.RT_CTRL w fun s1 =>
    if bitAt w.val.toNat 0 then
      (List.range 5).foldl (fun st q =>
        let p := st.port q
        st.setPort q { p with egress := p.egress.map fun m => { m with old := m.old || m.routed } }) (s1.fset F.RT_CTRL.INV 1)
    else s1)

/-- RT_INV_DONE (R449): the floors' copies go and INV clears once what was queued has left. -/
def execRtInvDone (s : State) : Host.Outcome State Fault Refusal :=
  .next (if s.running && s.flag F.RT_CTRL.INV && (List.range 5).all fun q => (s.port q).egress.all fun m => !m.old then
    { s.fset F.RT_CTRL.INV 0 with link := { s.link with routeC := [] } }
  else s)

/-- A flushed message (R488): a stream's block parks, LATCH and MORTAR messages are counted. -/
def State.flushed (s : State) (m : Msg) : State :=
  match m.origin with
  | some (t, k) => s.parkBlock t k xfUnreachable
  | none => if m.mtype = 5 ∨ m.mtype = 6 then (s.freeBufs m).countSat F.LL_COUNTS.FLUSHED 1 else s.freeBufs m

/-- FLUSH (R488): every message that waits for FLUSH_DST is dropped; one of which a flit has been sent no longer waits
(assumption log 74). -/
def execFlush (w : BusWr) (s : State) : Host.Outcome State Fault Refusal :=
  .next (s.openWrite Off.RT_CTRL w fun s1 =>
    if bitAt w.val.toNat 1 then
      let hit := fun (m : Msg) => m.sent == 0 && m.dst == s1.fget F.RT_CTRL.FLUSH_DST
      let gone := ((List.range 5).flatMap fun q => (s1.port q).egress.filter hit) ++ s1.link.out.filter hit
      let s2 := (List.range 5).foldl (fun st q =>
        let p := st.port q
        st.setPort q { p with egress := p.egress.filter fun m => !hit m }) s1
      let s3 := { s2 with link := { s2.link with out := s2.link.out.filter fun m => !hit m } }
      gone.foldl (fun st m => st.flushed m) s3
    else s1)

end Sys2Proof.Machine
end

