-- ==== Sys2Proof/Machine/Host.lean ====
section
/-! DEFINITION. The host boundary: creation and teardown of contexts (R519 to R525), the configuration that a LIVE context
protects (R510, R527), MSI-X intervals (R517), the host link (R507), power management and SR-IOV (R506), and the loss of a
cellar link (R530). -/

namespace Sys2Proof.Machine

/-! ### What teardown leaves unspecified (R523) -/

/-- The write blocks that a command of room `r` has not issued: those of its streams, or those it would stream had its work
begun. -/
def State.unwritten (s : State) (r : Nat) (c : RoomCmd) : List Block :=
  match c.eng <|> s.engineOf r c with
  | none => []
  | some e =>
    let t := if c.started then s else match dOpcode c.desc with
      | 4 => s.moveWork r c e
      | 6 => s.gsWork r c e
      | _ => s
    ((t.eng e).streams.filter fun y => y.cmd == c.seq && y.isWrite).flatMap fun y => y.blocks

/-- The output rows of a MORTAR_OPEN: those of its open merge not yet written, or all that it would open. -/
def State.spoilMerge (s : State) (r : Nat) (c : RoomCmd) : State :=
  match s.mo.merges.find? fun p => match p.2 with
    | some m => m.cmd.room.val == r && m.cmd.seq == c.seq
    | none => false with
  | some (k, some m) => (s.spoilRows m).closeMerge k
  | _ =>
    let p := s.readVa r c.ctx (dMcb c.desc) 64
    let m := BitVec.ofNat 512 (leOfList p.1.bytes)
    if mcbOk m then p.2.spoilOut r c.ctx m else p.2

/-- The own output regions of a command that ends without completing become free: its regions in engine buffers and the room
store, what it has not written of its memory windows, and its status word (R523; assumption log 41). -/
def State.spoilCmd (s : State) (r : Nat) (c : RoomCmd) : State :=
  let s1 := s.freeParts r c.ctx (s.cmdRegions r c)
  let s2 := s1.spoilBlocks r c.ctx (s1.unwritten r c)
  let s3 := match dOpcode c.desc with
    | 7 => s2.freeHalo { c with dst := c.dst <|> s2.haloDst c.desc }
    | 8 => s2.spoilMerge r c
    | _ => s2
  if dStatus c.desc = 0 then s3 else
    let f := s3.freeBytes 16
    f.2.writeVa r c.ctx (dStatus c.desc) f.1

/-! ### Ending a context (R523) -/

/-- Gives free tickets to the streams that wait longest for one (R412). -/
def State.grantTickets (s : State) : State :=
  s.ms.noTicket.foldl (fun st p =>
    if st.freeTicket.isNone then st
    else
      let st1 := { st with ms := { st.ms with noTicket := st.ms.noTicket.drop 1 } }
      match st1.stream p.1 with
      | some y => st1.giveTicket p.1 y.ctx p.2
      | none => st1) s

/-- Frees the park tickets of context `c` and discards its fault-ring records that wait (R409, R412, R523). -/
def State.dropTickets (s : State) (c : Nat) : State :=
  let mine := fun (t : StreamRef) => match s.stream t with
    | some y => y.ctx == c
    | none => true
  let kept := s.ms.tickets.filter fun t => t.ctx != c
  State.grantTickets { s with ms := { s.ms with
    tickets := kept
    noTicket := s.ms.noTicket.filter fun p => !mine p.1
    xfWait := s.ms.xfWait.filter fun n => kept.any fun t => t.num == n } }

/-- A stream that issues no further block; none when nothing of it is in flight. -/
def Stream.halted (t : Stream) : Option Stream :=
  if t.flight.isEmpty then none else some { t with blocks := [], park := none, walking := false, err := none }

/-- The streams of context `c` issue no further block; those with a block in flight stay until it completes. -/
def State.haltStreams (s : State) (c : Nat) : State :=
  (List.range 150).foldl (fun st e =>
    let x := st.eng e
    let keep := fun (t : Stream) => if t.ctx = c then t.halted else some t
    st.setEng e { x with streams := x.streams.filterMap keep }) s

/-- The routine of a CALL that ends without completing stops, with what it has not yet released or read (R347). -/
def State.endCall (s : State) (r : Nat) (c : RoomCmd) : State :=
  if c.calls then
    let s1 := (s.stopRoutine r).dropCall r c
    let x := s1.room r
    s1.setRoom r { x with
      reading := x.reading.filter fun i => i.level != 0
      held := x.held.map fun o => match o with
        | some (.read i) => if i.level != 0 then some (.read i) else none
        | some (.ret _) => none
        | a => a }
  else s

/-- Takes the commands of context `c` out of room `r`: no status word, no signal, no flue record (R523). -/
def State.endRoom (s : State) (r c : Nat) : State :=
  let mine := (s.room r).cmds.filter fun d => d.ctx == c
  if mine.isEmpty then s
  else
    let s1 := mine.foldl (fun st d => (st.spoilCmd r d).endCall r d) s
    let x := s1.room r
    (s1.setRoom r { x with cmds := x.cmds.filter fun d => d.ctx != c }).unbindIdle r

/-- The accumulator slots of context `c` return to FREE, and its records to the floor stage go (R224, R523). -/
def State.freeAccs (s : State) (c : Nat) : State :=
  (List.range 150).foldl (fun st e =>
    let x := st.eng e
    let mine := fun (n : Nat) => (x.accSlot n).st != .free && (x.accSlot n).owner == c
    let y := { x with recs := x.recs.filter fun q => !mine q.slot }
    st.setEng e ((List.range 4).foldl (fun z n => if mine n then z.setAcc n AccSlot.reset else z) y)) s

/-- The merge objects of context `c` are freed (R269, R523). -/
def State.freeMerges (s : State) (c : Nat) : State :=
  s.mo.merges.foldl (fun st p => match p.2 with
    | some m => if m.ctx = c then (st.spoilRows m).closeMerge p.1 else st
    | none => st) s

/-- A context stops (R523): its queue and doorbell, its descriptors, its tasks at their next break point, and what they
hold. Blocks in flight go on. -/
def State.haltContext (s : State) (c : Nat) : State :=
  let s1 := s.setCtx c { s.ctx c with stopped := true }
  let s2 := (List.range 30).foldl (fun st r => st.endRoom r c) s1
  (((s2.haltStreams c).dropTickets c).freeAccs c).freeMerges c

/-- No issued block of context `c` is in flight. -/
def State.quiet (s : State) (c : Nat) : Bool :=
  s.engs.all fun x => x.2.streams.all fun t => t.ctx != c || t.flight.isEmpty

/-- The DB_DEPTH reads that are held for context `c` return zero: its page is no longer one of a LIVE context (R148). -/
def State.endHeld (s : State) (c : Nat) : State :=
  (s.ctx c).heldReads.foldl (fun st p => st.emit (.pageRead p 0)) s

/-- The end of a teardown: task slots, cached translations and the doorbell page (R148, R409, R523). -/
def State.clearContext (s : State) (c : Nat) : State :=
  let s1 := (List.range 150).foldl (fun st e =>
    let x := st.eng e
    let y := { x with streams := x.streams.filter fun t => t.ctx != c
                      active := if x.active = some c then none else x.active }
    st.setEng e ((List.range 4).foldl (fun z n =>
      if (z.slot n).used && (z.slot n).ctx == c then z.setSlot n TaskSlot.empty else z) y)) s
  ((((s1.dropTlbs fun t => t.ctx == c).dropLedger fun k _ => k == c).dropLines fun x => x.keep == some c).endHeld c).setCtx c Ctx.none

/-! ### Context commands (R520 to R524) -/

/-- RESULT of a context command, the end of BUSY and the event (R520). -/
def State.ctxResult (s : State) (r : Nat) : State :=
  ((({ s with hs := { s.hs with ctxOp := none } }).fset F.CTX_STATUS.RESULT r).fset F.CTX_STATUS.BUSY 0).pkgEvent evCtx

/-- A context command starts (R520). -/
def State.startCtxOp (s : State) (c : CtxId) (op : CtxOp) : State :=
  (({ s with hs := { s.hs with ctxOp := some op } }).fset F.CTX_STATUS.BUSY 1).fset F.CTX_STATUS.CTX c.val

/-- The device accepts context commands: start-up is over (R535; assumption log 42). -/
def State.ready (s : State) : Bool := s.running && s.fget F.BOOT_STATUS.STAGE == 5

/-- A write to CTX_CMD (R520, R525, R528): ignored with DROP while a command or a function-level reset is in progress; OP
CREATE and DESTROY start a command; a reserved OP leaves its field. A DESTROY of a context that is not LIVE has nothing to
tear down. -/
def State.ctxCmd (s : State) (w : BusWr) : State :=
  s.openWrite Off.CTX_CMD w fun s1 =>
    let v := w.val.toNat
    let c : CtxId := Fin.ofNat 2048 v
    let op := bitsAt v 12 2
    if s1.flag F.CTX_STATUS.BUSY || !s1.hs.flr.isEmpty then s1.fset F.CTX_STATUS.DROP 1
    else
      let s2 := s1.fset F.CTX_CMD.CTX c.val
      let s3 := if op = 3 then s2 else s2.fset F.CTX_CMD.OP op
      if !s3.ready then s3
      else if op = 1 then s3.startCtxOp c (.create c)
      else if op = 2 then
        let s4 := s3.startCtxOp c (.destroy c)
        if (s4.ctx c.val).live then s4.haltContext c.val else s4
      else s3

/-- CREATE (R520): the write of CTX_CMD. -/
def execCreate (w : BusWr) (s : State) : Host.Outcome State Fault Refusal := .next (s.ctxCmd w)

/-- DESTROY (R520, R523): the write of CTX_CMD. -/
def execDestroy (w : BusWr) (s : State) : Host.Outcome State Fault Refusal := .next (s.ctxCmd w)

/-- Field of `n` bytes at byte `off` of a context-table entry. -/
def entryF (e : BitVec 512) (off n : Nat) : Nat := bitsAt e.toNat (8 * off) (8 * n)

/-- The context that an entry describes (R519, R522). -/
def entryCtx (e : BitVec 512) : Ctx :=
  { Ctx.none with
    live := true, compat := bitAt e.toNat 1, qlog2 := entryF e 0x01 1, func := entryF e 0x02 2, vslot := entryF e 0x04 1
    qbase := entryF e 0x08 8, ptRoot := entryF e 0x10 8, faultRec := entryF e 0x18 8, latchFirst := entryF e 0x20 2
    latchLast := entryF e 0x22 2, cmplVec := entryF e 0x24 2, faultVec := entryF e 0x26 2 }

/-- The entry of context `c` (R142, R519). -/
def State.ctxEntry (s : State) (c : Nat) : BitVec 512 := BitVec.ofNat 512 (s.physLe (s.ctxRoot + c * 64) 64)

/-- VALID is one and every reserved field is zero (R519). -/
def entryOkRsv (e : BitVec 512) : Bool :=
  bitAt e.toNat 0 && entryF e 0x00 1 / 4 == 0 && entryF e 0x05 3 == 0 && entryF e 0x28 24 == 0

/-- The queue lies in HBM, and for a VF in its aperture. -/
def State.queueOk (s : State) (x : Ctx) : Bool :=
  let n := x.qsize * 256
  inHbm x.qbase n &&
    match funcOf x.func with
    | .pf => true
    | .vf v => let a := s.aperture v.val; decide (a.1 ≤ x.qbase) && decide (x.qbase + n ≤ a.1 + a.2)

/-- FUNC names the PF or an enabled VF. -/
def State.funcOk (s : State) (x : Ctx) : Bool := x.func == 0 || (s.hs.vfEn && decide (x.func ≤ s.hs.numVfs))

/-- VSLOT: zero for the PF; at most 7 and held by no other LIVE context of the VF. -/
def State.vslotOk (s : State) (c : Nat) (x : Ctx) : Bool :=
  if x.func = 0 then x.vslot == 0
  else decide (x.vslot ≤ 7) && s.ctxs.all fun p => p.1 == c || !p.2.live || p.2.func != x.func || p.2.vslot != x.vslot

/-- A vector of the function's table, and for the PF one of those that contexts may use (R514, R521). -/
def ctxVecOk (func v : Nat) : Bool := if func = 0 then decide (16 ≤ v) && decide (v < 2048) else decide (v < 8)

/-- RESULT of a CREATE of context `c` with entry `e`: the first failing check, in order (R521). -/
def State.createCheck (s : State) (c : Nat) (e : BitVec 512) : Nat :=
  let x := entryCtx e
  if (s.ctx c).live || !s.flag F.KEYSTONE_CTRL.SET then 0x1
  else if !entryOkRsv e then 0x2
  else if (s.partitionOf c).isNone then 0x3
  else if x.qlog2 < 6 ∨ 20 < x.qlog2 then 0x4
  else if !s.queueOk x then 0x5
  else if x.ptRoot % 4096 != 0 || !inHbm x.ptRoot 4096 then 0x6
  else if x.faultRec % 64 != 0 || !s.backed (s.foldAddr x.faultRec) then 0x7
  else if !s.funcOk x then 0x8
  else if !s.vslotOk c x then 0x9
  else if x.latchLast < x.latchFirst ∨ 16383 < x.latchLast then 0xA
  else if !ctxVecOk x.func x.cmplVec || !ctxVecOk x.func x.faultVec then 0xB
  else if !s.flag F.MEM_CTRL.EN then 0xC
  else 0

/-- CREATE_END (R521, R522): the entry is read and checked, and the context becomes LIVE when every check passes. -/
def execCreateEnd (s : State) : Host.Outcome State Fault Refusal :=
  .next (match s.hs.ctxOp with
    | some (.create c) =>
      let e := s.ctxEntry c.val
      let r := s.createCheck c.val e
      (if r = 0 then s.setCtx c.val (entryCtx e) else s).ctxResult r
    | _ => s)

/-- The contexts of a function-level reset whose blocks have ended are cleared (R525). -/
def State.finishFlr (s : State) : State :=
  let done := s.hs.flr.filter s.quiet
  let s1 := done.foldl (fun st c => st.clearContext c) s
  { s1 with hs := { s1.hs with flr := s.hs.flr.filter fun c => !done.contains c } }

/-- DESTROY_END (R520, R523, R524, R525): a DESTROY ends once no issued block of its context is in flight; so does the teardown
of a function-level reset. -/
def execDestroyEnd (s : State) : Host.Outcome State Fault Refusal :=
  .next (let s0 := s.finishFlr
    match s0.hs.ctxOp with
    | some (.destroy c) => if s0.quiet c.val then (s0.clearContext c.val).ctxResult 0 else s0
    | _ => s0)

/-! ### Function-level reset, link and power management (R506, R507, R525, R577) -/

/-- The number of a function in a context-table entry (R519). -/
def funcNum : Func → Nat
  | .pf => 0
  | .vf v => v.val + 1

/-- Clears the MSI-X table, PBA, waiting messages and power state of a VF: its PCIe configuration state (R507, R577). -/
def State.resetVfCfg (s : State) (v : Nat) : State :=
  { s with hs := { s.hs with
    vfRegs := s.hs.vfRegs.filter fun p => p.1 / 0x10000 != v
    msixPnd := s.hs.msixPnd.filter fun p => funcNum p.1 != v + 1
    d3hot := s.hs.d3hot.filter fun p => p.1 != v + 1 } }

/-- Clears the MSI-X table, PBA, waiting messages and power state of the PF, and VF Enable with every VF's state (R507, R525,
R577). -/
def State.resetPfCfg (s : State) : State :=
  let r := s.regs.filter fun p => !(decide (0x440000 ≤ p.1) && decide (p.1 < 0x450100))
  { s with regs := r, hs := { s.hs with
    vfRegs := [], msixPnd := [], d3hot := [], vfEn := false, numVfs := 0 } }

/-- The LIVE contexts that a reset of the function destroys. -/
def State.liveOf (s : State) (f : Func) : List Nat :=
  (s.ctxs.filter fun p => p.2.live && !p.2.stopped && (funcNum f == 0 || p.2.func == funcNum f)).map fun p => p.1

/-- A function-level reset (R525): every LIVE context of the function is torn down, and the function's configuration state
resets. -/
def State.flr (s : State) (f : Func) : State :=
  let l := s.liveOf f
  let s1 := l.foldl (fun st c => st.haltContext c) s
  let s2 := State.finishFlr { s1 with hs := { s1.hs with flr := s1.hs.flr ++ l } }
  match f with
  | .pf => ((s2.resetPfCfg).fset F.PKG_IRQ_STATUS.EVENTS 0).fset F.FLUE_HEAD.HEAD 0
  | .vf v => s2.resetVfCfg v.val

/-- FUNCTION_LEVEL_RESET (R525). -/
def execFunctionLevelReset (f : Func) (s : State) : Host.Outcome State Fault Refusal :=
  .next (if s.running then s.flr f else s)

/-- The host link goes down (R507). -/
def State.linkDown (s : State) : State :=
  let s1 := s.flr .pf
  { s1 with hs := { s1.hs with linkUp := false, barWait := [] } }

/-- PCIE_LINK_DOWN (R507): by a link failure or a hot reset. -/
def execPcieLinkDown (s : State) : Host.Outcome State Fault Refusal :=
  .next (if s.running && s.hs.linkUp then s.linkDown else s)

/-- PCIE_LINK_UP (R502, R507, R549): the PCIe PLL has locked and the endpoint trains. -/
def execPcieLinkUp (s : State) : Host.Outcome State Fault Refusal :=
  .next (if s.running then
    let s1 := s.fset F.CLK_STATUS.PCIE_LOCK 1
    { s1 with hs := { s1.hs with linkUp := true } }
  else s)

/-- PM_D3HOT (R506): refused on the PF while any context is LIVE. -/
def execPmD3hot (f : Func) (s : State) : Host.Outcome State Fault Refusal :=
  .next (if s.running && !(f == .pf && s.ctxs.any fun p => p.2.live) then
    { s with hs := { s.hs with d3hot := s.hs.d3hot.set (fun _ => false) (funcNum f) true } }
  else s)

/-- VF_ENABLE (R506): VF Enable and NumVFs, at most TotalVFs; NumVFs changes only while VF Enable is clear, and a VF that goes
loses its configuration state (assumption log 43). -/
def execVfEnable (en : Bool) (numVfs : Fin 257) (s : State) : Host.Outcome State Fault Refusal :=
  .next (if s.running then
    let n := if s.hs.vfEn then s.hs.numVfs else numVfs.val
    let s1 := { s with hs := { s.hs with vfEn := en, numVfs := n } }
    if en then s1 else (List.range 256).foldl (fun st v => st.resetVfCfg v) s1
  else s)

/-! ### Protected configuration (R510, R527) -/

/-- VF_APT_WRITE (R510): a keyed write, refused while a context of the VF is LIVE or when the resulting aperture does not lie in
HBM. -/
def execVfAptWrite (v : Fin 256) (isSize : Bool) (w : BusWr) (s : State) : Host.Outcome State Fault Refusal :=
  let off := if isSize then Off.VF_APT_SIZE v.val else Off.VF_APT_BASE v.val
  .next (s.keyedWrite off w fun keyed s1 =>
    let x := if isSize then w.val.toNat % 2 ^ 12 else w.val.toNat % 2 ^ 27
    let f := if isSize then F.VF_APT_SIZE.SIZE v.val else F.VF_APT_BASE.BASE v.val
    let s2 := s1.fset f x
    let a := s2.aperture v.val
    if !keyed || (isSize && decide (2048 < x)) then s1
    else if s1.ctxs.any (fun p => p.2.live && p.2.func == v.val + 1) || !inHbm a.1 a.2 then s1.fset F.CTX_STATUS.CFG_REFUSED 1
    else s2)

/-- FLUE_CONFIG_WRITE (R527, R528): FLUE_BASE_LO, FLUE_BASE_HI or FLUE_SIZE, refused while any context is LIVE. -/
def execFlueConfigWrite (k : Fin 3) (w : BusWr) (s : State) : Host.Outcome State Fault Refusal :=
  let off := if k = 0 then Off.FLUE_BASE_LO else if k = 1 then Off.FLUE_BASE_HI else Off.FLUE_SIZE
  .next (s.openWrite off w fun s1 =>
    let v := w.val.toNat
    if s1.ctxs.any fun p => p.2.live then s1.fset F.CTX_STATUS.CFG_REFUSED 1
    else if k = 0 then s1.fset F.FLUE_BASE_LO.ADDR_LO (bitsAt v 12 20)
    else if k = 1 then s1.fset F.FLUE_BASE_HI.ADDR_HI (bitsAt v 0 16)
    else if 8 ≤ v % 32 ∧ v % 32 ≤ 20 then s1.fset F.FLUE_SIZE.LOG2 (v % 32)
    else s1)

/-- MSIX_INTERVAL_END (R517): merged events go out as one message, which opens the next interval; without any the interval
closes. -/
def execMsixIntervalEnd (f : Func) (vec : Nat) (s : State) : Host.Outcome State Fault Refusal :=
  .next (if s.hs.msixOn.contains (f, vec) then
    if s.hs.msixPnd.contains (f, vec) then
      ({ s with hs := { s.hs with msixPnd := s.hs.msixPnd.filter fun p => p != (f, vec) } }).sendMsix f vec
    else { s with hs := { s.hs with msixOn := s.hs.msixOn.filter fun p => p != (f, vec) } }
  else s)

/-! ### Loss of a cellar link (R530) -/

/-- Address range of a cellar port (R383). -/
def inCellarPort (p a : Nat) : Bool :=
  decide (0x100000000000 + p * 0x20000000000 ≤ a) && decide (a < 0x100000000000 + (p + 1) * 0x20000000000)

/-- A request in flight at cellar port `p` (R416, R530). -/
def State.atCellar (s : State) (p : Nat) (f : InFlight) : Bool :=
  match f.reach with
  | .cellar q n => q == p && s.ms.bursts.any fun b => b.port == q && b.seq == n && decide (b.got < b.need)
  | .here => inCellarPort p (s.foldAddr (f.pa / 8))
  | .floor _ _ => false
  | .remote _ => false

/-- One block at a lost port is abandoned: its burst discarded and counted, the block to be issued again (R417, R530). -/
def State.loseBlock (s : State) (t : StreamRef) (f : InFlight) : State :=
  let s1 := match f.reach with
    | .cellar q n => { s with ms := { s.ms with
        bursts := s.ms.bursts.filter fun b => !(b.port == q && b.seq == n), dead := s.ms.dead ++ [n] } }
    | _ => s
  (s1.countSat F.CELLAR_EVENTS.ABANDON 1).updStream t fun y => { y with
    blocks := f.blk :: y.blocks, flight := y.flight.filter fun g => g.k != f.k }

/-- The blocks of one stream at a lost port are abandoned, and it parks on the earliest with ABANDON (R411, R417). -/
def State.loseStream (s : State) (p : Nat) (t : StreamRef) (st : Stream) : State :=
  let l := st.flight.reverse.filter (s.atCellar p)
  if l.isEmpty then s
  else
    let s1 := l.foldl (fun q f => q.loseBlock t f) s
    if st.park.isSome then s1 else s1.parkStream t xfAbandon 0xFF

/-- Every block at a lost port, streams in ascending engine and number. -/
def State.loseBlocks (s : State) (p : Nat) : State :=
  (List.range 150).foldl (fun st e =>
    if h : e < 150 then
      (st.eng e).streams.foldl (fun st1 t => st1.loseStream p { eng := ⟨e, h⟩, id := t.id } t) st
    else st) s

/-- The fills that read from a lost port are abandoned (R396). -/
def State.loseFills (s : State) (p : Nat) : State :=
  (s.ms.fills.filter fun f => inCellarPort p (ldCellar f.entry)).foldl (fun st f =>
    (({ st with ms := { st.ms with dead := st.ms.dead ++ [f.seq] } }).countSat F.CELLAR_EVENTS.ABANDON 1).abandonFill f.expert) s

/-- A cellar port that had a device loses its link (R530, R531). -/
def State.cxlLost (s : State) (p : Nat) : State :=
  if s.flag (F.CXL_STATUS.DEV_OK p) then
    let s1 := (s.loseBlocks p).loseFills p
    let s2 := ((s1.fset (F.CXL_STATUS.LINK_UP p) 0).fset (F.CXL_STATUS.WIDTH p) 0).fset (F.CXL_STATUS.SPEED p) 0
    (s2.fset (F.CXL_STATUS.DEV_OK p) 0).fset (F.CXL_STATUS.ERR p) 4
  else s

/-- CXL_LINK_LOST (R530). -/
def execCxlLinkLost (p : Fin 2) (s : State) : Host.Outcome State Fault Refusal :=
  .next (if s.running then s.cxlLost p.val else s)

end Sys2Proof.Machine
end

