-- ==== Sys2Proof/Machine/Jtag.lean ====
section
/-! DEFINITION. The test access port (R543 to R545). -/

namespace Sys2Proof.Machine

/-- Selects a TAP instruction (R543). No TAP action changes state outside the TAP and its cells (R545). -/
def State.setIr (s : State) (ir : Byte) : State := { s with jtag := { s.jtag with ir := ir } }

/-- EXTEST (R543, R544). -/
def execExtest (s : State) : Host.Outcome State Fault Refusal := .next (s.setIr 0)

/-- SAMPLE/PRELOAD (R543): the cells take the values shifted in. -/
def execSamplePreload (cells : W64) (s : State) : Host.Outcome State Fault Refusal :=
  .next { s with jtag := { ir := 1, cells := cells } }

/-- IDCODE (R543): version 0xB, part 0x9400, manufacturer 0x236, bit 0 one. -/
def execIdcode (s : State) : Host.Outcome State Fault Refusal := .next ((s.setIr 2).emit (.tdo 0xB940046D))

/-- HIGHZ (R543, R544). -/
def execHighz (s : State) : Host.Outcome State Fault Refusal := .next (s.setIr 3)

/-- CLAMP (R543, R544). -/
def execClamp (s : State) : Host.Outcome State Fault Refusal := .next (s.setIr 4)

/-- BYPASS (R543): selected by every instruction value but those of the other five rows. -/
def execBypass (ir : Byte) (s : State) : Host.Outcome State Fault Refusal := .next (if 5 ≤ ir.toNat then s.setIr ir else s)

/-- TRST_N (R545): the TAP is reset, which selects IDCODE (assumption log 21). -/
def execTrstN (s : State) : Host.Outcome State Fault Refusal := .next (s.setIr 2)

/-- What the TAP does to the pins of R546. -/
inductive PinDrive where
  | device
  | cells
  | highZ
deriving DecidableEq, Repr

/-- EXTEST, HIGHZ and CLAMP take effect on the pins only while RESET_N is asserted (R544). -/
def State.pinDrive (s : State) : PinDrive :=
  if s.pwr.resetN then
    (match s.jtag.ir.toNat with
     | 0 => .cells
     | 3 => .highZ
     | 4 => .cells
     | _ => .device)
  else .device

end Sys2Proof.Machine
end

