-- ==== Sys2Proof/Machine/Lorlink.lean ====
section
/-! DEFINITION. Lorlink messages at their destination (R461 to R464, R481 to R487, R492): each command takes the oldest message of
its VC on a port when that has its type. -/

namespace Sys2Proof.Machine

/-- The oldest message of a VC on port `q`, if it has the type. -/
def State.headMsg (s : State) (q vc ty : Nat) : Option Msg :=
  if s.running then
    match (s.port q).rx.find? fun m => m.vc == vc with
    | some m => if m.mtype = ty then some m else none
    | none => none
  else none

/-- Takes that message out and returns its flit buffers (R465). -/
def State.consume (s : State) (q : Nat) (m : Msg) : State :=
  let p := s.port q
  (s.setPort q { p with rx := p.rx.erase m }).giveBack q m.vc m.held

/-- The command on port `q` with the message it is for. -/
def State.onMsg (s : State) (q vc ty : Nat) (f : Msg → State → State) : Host.Outcome State Fault Refusal :=
  .next (match s.headMsg q vc ty with
    | some m => f m (s.consume q m)
    | none => s)

/-! ### Remote access (R481 to R484, R487) -/

/-- Bytes of this package's HBM; offsets beyond it read zero and set UNBACKED (R384). -/
def State.hbmRead (s : State) (a n : Nat) : List Byte × State :=
  if inHbm a n then s.physRead a n
  else ((List.range n).map fun i => if a + i < hbmEnd then s.physByte (a + i) else 0, s.fset F.MEM_STATUS.UNBACKED 1)

/-- Writes this package's HBM; what lies beyond it is dropped and sets UNBACKED (R384). -/
def State.hbmWrite (s : State) (a : Nat) (l : List Byte) : State :=
  if inHbm a l.length then s.physWrite a l
  else (s.physWrite a (l.take (hbmEnd - a))).fset F.MEM_STATUS.UNBACKED 1

/-- A request of 1 to 4,096 bytes is answered (R463, R481); any other length breaks the protocol (R461). -/
def State.serveRead (s : State) (q : Nat) (m : Msg) : State :=
  if m.aux = 0 ∨ 4096 < m.aux then s.countSat (F.PORT_CNT3.PROTO_ERR q) 1
  else
    let p := s.hbmRead m.addr m.aux
    p.2.originate { Msg.blank 2 1 m.src with
      ptag := if m.ptag = 1 then 1 else 0, stag := m.stag, addr := m.addr, ctx := m.ctx, aux := m.bseq, data := p.1 }

/-- RD_REQ (R461, R463, R481). -/
def execRdReq (q : PortIx) (s : State) : Host.Outcome State Fault Refusal :=
  s.onMsg q.val 0 1 fun m s1 => s1.serveRead q.val m

/-- A response that no block awaits is an orphan (R483). -/
def State.orphan (s : State) (q : Nat) : State := s.countSat (F.PORT_CNT2.ORPHAN q) 1

/-- A prefetched block arrives (R361): it fills its line. -/
def State.ackFetch (s : State) (m : Msg) (bad : List Nat) : Option State :=
  match s.link.fetches.find? fun p => p.pkg == m.src && p.bseq == m.aux with
  | some p =>
    let s1 := { s with link := { s.link with fetches := s.link.fetches.erase p } }
    some (s1.fillLine p.fl (p.blk * 4096) m.plain bad id)
  | none => none

/-- RD_RSP (R482, R483, R184, R389): a remote read block completes with the decoded data. The beats of the block
whose data carries the mark of R389 come as an operand: the message has no field for them (assumption log 107). -/
def execRdRsp (q : ReadRsp) (s : State) : Host.Outcome State Fault Refusal :=
  s.onMsg q.port.val 1 2 fun m s1 =>
    let bad := q.poison.map fun k => k.val
    match s1.findRemote m.src m.aux (2 ^ 32) false with
    | some b => s1.completeRead b.1 b.2.1 b.2.2 m.plain bad
    | none =>
      match s1.ackFetch m bad with
      | some s2 => s2
      | none => s1.orphan q.port.val

/-- The acknowledgement of a WR (R461, R482, R487). -/
def State.ackWrite (s : State) (m : Msg) (blocked : Bool) : State :=
  s.originate { Msg.blank 4 1 m.src with
    stag := m.stag, addr := m.addr, ctx := m.ctx, aux := m.bseq % 2 ^ 31 + (if blocked then 2 ^ 31 else 0) }

/-- WR (R463, R481, R482, R487, R490, R494, R495): it waits while the mirror queue is full. -/
def execWr (q : PortIx) (s : State) : Host.Outcome State Fault Refusal :=
  .next (match s.headMsg q.val 2 3 with
    | some m =>
      let l := m.plain
      if s.wallBlocks m.addr l.length then (s.consume q.val m).ackWrite m true
      else if s.wallFull m.addr l.length then s
      else ((s.consume q.val m).hbmWrite m.addr l).ackWrite m false
    | none => s)

/-- The status word whose WR_ACK has arrived. -/
def State.ackStatus (s : State) (m : Msg) : Option State :=
  match s.link.acks.find? fun p => p.pkg == m.src && p.bseq % 2 ^ 31 == m.aux % 2 ^ 31 with
  | some p => some { s with link := { s.link with acks := s.link.acks.erase p } }
  | none => none

/-- WR_ACK (R482, R483, R487). -/
def execWrAck (q : PortIx) (s : State) : Host.Outcome State Fault Refusal :=
  s.onMsg q.val 1 4 fun m s1 =>
    match s1.findRemote m.src m.aux (2 ^ 31) true with
    | some b => if bitAt m.aux 31 then s1.parkBlock b.1 b.2.2.k xfProtected else s1.retire b.1 b.2.2.k false
    | none =>
      match s1.ackStatus m with
      | some s2 => s2
      | none => s1.orphan q.val

/-! ### VC SYNC and VC MORTAR (R274, R461, R485, R486) -/

/-- LATCH (R486): applied to a latch inside LATCH_IN, dropped and counted otherwise. -/
def execLatch (q : PortIx) (s : State) : Host.Outcome State Fault Refusal :=
  s.onMsg q.val 5 5 fun m s1 =>
    let l := m.addr % 2 ^ 14
    if s1.fget F.LATCH_IN.FIRST ≤ l ∧ l ≤ s1.fget F.LATCH_IN.LAST then s1.applySignal (bitsAt m.addr 14 2) l m.aux
    else s1.countSat F.LL_COUNTS.LATCH_DROP 1

/-- MORTAR (R274): a merge record reaches the package stage of its home. -/
def execMortar (q : PortIx) (s : State) : Host.Outcome State Fault Refusal :=
  s.onMsg q.val 4 6 fun m s1 =>
    let e := MergeRec.ofBytes (Fin.ofNat 256 m.addr) m.ctx m.data
    { s1 with mo := { s1.mo with pkgIn := s1.mo.pkgIn ++ [e] } }

/-- HEARTBEAT (R461): no rule gives it an effect. -/
def execHeartbeat (q : PortIx) (s : State) : Host.Outcome State Fault Refusal := s.onMsg q.val 5 7 fun _ s1 => s1

/-! ### VC MIRROR (R492) -/

/-- EPOCH_DATA (R492, R496). -/
def execEpochData (q : PortIx) (s : State) : Host.Outcome State Fault Refusal :=
  s.onMsg q.val 3 8 fun m s1 => s1.epochData m.aux m.addr m.data

/-- EPOCH_END (R492). -/
def execEpochEnd (q : PortIx) (s : State) : Host.Outcome State Fault Refusal :=
  s.onMsg q.val 3 9 fun m s1 => s1.epochEnd m.aux m.addr

/-- EPOCH_ACK (R492, R496). -/
def execEpochAck (q : PortIx) (s : State) : Host.Outcome State Fault Refusal :=
  s.onMsg q.val 3 0xA fun m s1 => s1.epochAck m.aux

end Sys2Proof.Machine
end

