-- ==== Sys2Proof/WellFormed.lean ====
section
/-! DEFINITION. What the operand types do not bound: alignment of bus addresses (R80), lengths of data operands, and
numbers with no encoding. A command that fails its check is no command that a bus, link or pin can carry; it runs on what
they can carry of it (assumption log 62). -/

namespace Sys2Proof

/-- An aligned word of BAR0, of a doorbell page, or of a VF's BAR2 outside its pages (R80, R143, R147, R509). -/
def RegTarget.ok : RegTarget → Bool
  | .bar0 off => decide (off < 0x10000000) && off % 4 == 0
  | .page _ off => decide (off < 0x1000) && off % 4 == 0
  | .vfBar2 _ off => decide (0x8000 ≤ off) && decide (off < 0x10000) && off % 4 == 0

/-- A flit carries 256 payload bytes (R455). -/
def Flit.ok (f : Flit) : Bool := f.payload.length == 256

/-- A beat or line address is 64-byte aligned (R388, R389). -/
def SramSite.ok : SramSite → Bool
  | .floorCacheClean _ a => a.toNat % 64 == 0
  | .floorCacheModified _ a => a.toNat % 64 == 0
  | _ => true

/-- RING_SIZE of the partner fits its register (R500). -/
def TrainInfo.ok (i : TrainInfo) : Bool := decide (i.ringSize < 128) && decide (i.logSize < 4096)

/-- The routine image is one bank (R375); a boot flash holds at most 128 MiB (R532). -/
def StartEnv.ok (e : StartEnv) : Bool :=
  decide (e.routineImage.length ≤ 0x8000) &&
  (match e.flash with
   | some l => decide (l.length ≤ 0x8000000)
   | none => true)

/-- A BAR4 access moves 1 to 4,096 bytes inside the BAR; a write carries as many (R504, R506). -/
def bar4Ok (f : Func) (addr : BitVec 39) (wdata : Option (List Byte)) (n : Nat) : Bool :=
  decide (1 ≤ n) && decide (n ≤ 4096) &&
  (match f with
   | .pf => decide (addr.toNat + n ≤ 0x8000000000)
   | .vf _ => decide (addr.toNat + n ≤ 0x100000000)) &&
  (match wdata with
   | some l => l.length == n
   | none => true)

/-- A firmware slot holds at most 4 MiB (R533). -/
def updateOk (data : List Byte) : Bool := decide (data.length ≤ 0x400000)

/-- A vector number of a function's table (R513). -/
def vectorOk (f : Func) (vec : Nat) : Bool :=
  match f with
  | .pf => decide (vec < 2048)
  | .vf _ => decide (vec < 8)

/-- A burst of 1 to 8 beats (R435). -/
def beatsOk (b : Fin 9) : Bool := decide (1 ≤ b.val)

/-- Whether every operand of a command is one that its bus, link or pin can carry. -/
def Instr.wellFormed : Instr → Bool
  | .registerWrite t _ => t.ok
  | .sramUncorrectable x => x.ok
  | .flitReceive _ f => f.ok
  | .trainingStageExit _ i => i.ok
  | .coldResetRelease e => e.ok
  | .bar4Access f a d n => bar4Ok f a d n
  | .updatecomponent _ _ _ d => updateOk d
  | .msixIntervalEnd f v => vectorOk f v
  | .arbRequest _ _ b _ => beatsOk b
  | _ => true

end Sys2Proof
end

