-- ==== Sys2Proof/Machine/Mgmt.lean ====
section
/-! DEFINITION. The management endpoint (R537 to R542): MCTP control, PLDM base, platform monitoring and firmware update. What
the DMTF documents that R537 names fix and the manual does not repeat (message fields, completion codes, the states of an
update) is taken from them (assumption log 20). -/

namespace Sys2Proof.Machine

/-! ### Receiving and answering (R535, R537) -/

/-- Whether a message over a bus reaches the endpoint (R507, R537). -/
def State.mgHears (s : State) (b : MBus) : Bool :=
  s.running && (match b with
    | .pcieVdm => s.hs.linkUp
    | .smbus => true)

/-- Boot has stopped in RECOVERY, where only MCTP control and PLDM firmware update are answered (R535). -/
def State.inRecovery (s : State) : Bool := s.fget F.BOOT_STATUS.STAGE == 0xF

/-- Answers an MCTP control command. -/
def State.mctp (s : State) (b : MBus) (cc : Nat) (data : List Byte) : State := s.emit (.mctp b cc data)

/-- Answers a PLDM command. -/
def State.pldm (s : State) (b : MBus) (cc : Nat) (data : List Byte) : State := s.emit (.pldm b cc data)

/-- A control command that reaches the endpoint. -/
def State.onMctp (s : State) (b : MBus) (f : State → State) : State := if s.mgHears b then f s else s

/-- A command of PLDM type 0 or 2 that reaches the endpoint and is answered. -/
def State.onPldm (s : State) (b : MBus) (f : State → State) : State := if s.mgHears b && !s.inRecovery then f s else s

/-- A command of PLDM type 5 that reaches the endpoint. -/
def State.onUpdate (s : State) (b : MBus) (f : State → State) : State := if s.mgHears b then f s else s

/-- Completion code ERROR_INVALID_DATA. -/
def ccInvalidData : Nat := 2
/-- Completion code ERROR_UNSUPPORTED_CMD, and ERROR_UNSUPPORTED_PLDM_CMD (R538, R539). -/
def ccUnsupported : Nat := 5

/-- An endpoint or terminus ID that can be assigned. -/
def idOk (x : Byte) : Bool := x != 0 && x != 0xFF

/-! ### MCTP control (R538) -/

/-- Set Endpoint ID: operations 0 and 1 set it, 2 resets a static ID, of which the device has none, 3 sets the Discovered
flag, which only the PCIe binding has. -/
def State.setEid (s : State) (b : MBus) (op : Nat) (eid : Byte) : State :=
  if op < 2 then
    if idOk eid then State.mctp { s with mg := { s.mg with eid := eid } } b 0 [0, eid, 0] else s.mctp b ccInvalidData []
  else if op = 3 ∧ b = .pcieVdm then s.mctp b 0 [0, s.mg.eid, 0]
  else s.mctp b ccInvalidData []

/-- SET_ENDPOINT_ID (R538). -/
def execSetEndpointId (b : MBus) (op : BitVec 2) (eid : Byte) (s : State) : Host.Outcome State Fault Refusal :=
  .next (s.onMctp b fun s1 => s1.setEid b op.toNat eid)

/-- GET_ENDPOINT_ID (R538). -/
def execGetEndpointId (b : MBus) (s : State) : Host.Outcome State Fault Refusal :=
  .next (s.onMctp b fun s1 => s1.mctp b 0 [s1.mg.eid, 0, 0])

/-- GET_ENDPOINT_UUID (R538). -/
def execGetEndpointUuid (b : MBus) (s : State) : Host.Outcome State Fault Refusal :=
  .next (s.onMctp b fun s1 => s1.mctp b 0 (leList Config.endpointUuid.toNat 16))

/-- GET_MCTP_VERSION_SUPPORT (R538): the base specification (0xFF) and the two message types have versions. -/
def execGetMctpVersionSupport (b : MBus) (ty : Byte) (s : State) : Host.Outcome State Fault Refusal :=
  .next (s.onMctp b fun s1 =>
    if ty = 0xFF ∨ ty = 0 ∨ ty = 1 then s1.mctp b 0 (1 :: leList (Config.mctpVersion ty).toNat 4) else s1.mctp b 0x80 [])

/-- GET_MESSAGE_TYPE_SUPPORT (R538): PLDM, besides control. -/
def execGetMessageTypeSupport (b : MBus) (s : State) : Host.Outcome State Fault Refusal :=
  .next (s.onMctp b fun s1 => s1.mctp b 0 [1, 1])

/-- The control commands that R538 lists. -/
def mctpKnown (cmd : Byte) : Bool := decide (1 ≤ cmd.toNat) && decide (cmd.toNat ≤ 5)

/-- UNSUPPORTED_MCTP_MESSAGE (R538): another control command is answered with ERROR_UNSUPPORTED_CMD, another message type
is dropped. -/
def execUnsupportedMctpMessage (b : MBus) (ty : BitVec 7) (cmd : Byte) (s : State) : Host.Outcome State Fault Refusal :=
  .next (s.onMctp b fun s1 => if ty = 0 ∧ !mctpKnown cmd then s1.mctp b ccUnsupported [] else s1)

/-! ### PLDM base (R539) -/

/-- SETTID (R539). -/
def execSettid (b : MBus) (tid : Byte) (s : State) : Host.Outcome State Fault Refusal :=
  .next (s.onPldm b fun s1 =>
    if idOk tid then State.pldm { s1 with mg := { s1.mg with tid := tid } } b 0 [] else s1.pldm b ccInvalidData [])

/-- GETTID (R539). -/
def execGettid (b : MBus) (s : State) : Host.Outcome State Fault Refusal :=
  .next (s.onPldm b fun s1 => s1.pldm b 0 [s1.mg.tid])

/-- The commands of a PLDM type (R539), by their DMTF codes. -/
def pldmCmds (ty : Nat) : List Nat :=
  match ty with
  | 0 => [1, 2, 3, 4, 5]
  | 2 => [0x04, 0x10, 0x11, 0x21, 0x50, 0x51]
  | 5 => [0x01, 0x02, 0x10, 0x13, 0x14, 0x16, 0x17, 0x18, 0x1A, 0x1B, 0x1C, 0x1D]
  | _ => []

/-- GETPLDMVERSION (R539): one transfer of the version of a supported type. -/
def execGetpldmversion (b : MBus) (ty : Byte) (s : State) : Host.Outcome State Fault Refusal :=
  .next (s.onPldm b fun s1 =>
    if (pldmCmds ty.toNat).isEmpty then s1.pldm b 0x83 []
    else s1.pldm b 0 ([0, 0, 0, 0, 5] ++ leList (Config.pldmVersion ty).toNat 4))

/-- GETPLDMTYPES (R539): types 0, 2 and 5. -/
def execGetpldmtypes (b : MBus) (s : State) : Host.Outcome State Fault Refusal :=
  .next (s.onPldm b fun s1 => s1.pldm b 0 (leList 0x25 8))

/-- GETPLDMCOMMANDS (R539): bit n of the answer is command n. -/
def execGetpldmcommands (b : MBus) (ty : Byte) (s : State) : Host.Outcome State Fault Refusal :=
  .next (s.onPldm b fun s1 =>
    if (pldmCmds ty.toNat).isEmpty then s1.pldm b 0x83 []
    else s1.pldm b 0 (leList ((pldmCmds ty.toNat).map (2 ^ ·)).sum 32))

/-- Whether the endpoint implements a PLDM command (R539). -/
def pldmKnown (ty cmd : Nat) : Bool := (pldmCmds ty).contains cmd

/-- UNSUPPORTED_PLDM_COMMAND (R539): in RECOVERY only firmware update is answered (R535). -/
def execUnsupportedPldmCommand (b : MBus) (ty : BitVec 6) (cmd : Byte) (s : State) : Host.Outcome State Fault Refusal :=
  .next (if s.mgHears b && (!s.inRecovery || ty == 5) && !pldmKnown ty.toNat cmd.toNat then s.pldm b ccUnsupported [] else s)

/-! ### PLDM platform monitoring (R539 to R541) -/

/-- SETEVENTRECEIVER (R539): 0 disables events, 1 and 3 send them, polling (2) is not supported. -/
def execSeteventreceiver (b : MBus) (enable : Byte) (eid : Byte) (s : State) : Host.Outcome State Fault Refusal :=
  .next (s.onPldm b fun s1 =>
    if enable = 2 then s1.pldm b 0x82 []
    else if enable.toNat ≤ 3 then State.pldm { s1 with mg := { s1.mg with evOn := enable, evEid := eid } } b 0 []
    else s1.pldm b ccInvalidData [])

/-- A numeric sensor (R540). -/
def isNumeric (n : Nat) : Bool := decide (1 ≤ n) && decide (n ≤ 19)

/-- A state sensor (R540). -/
def isStateSensor (n : Nat) : Bool := decide (32 ≤ n) && decide (n ≤ 38)

/-- The reading of a numeric sensor (R540): 17 to 19 are the state's own, the others what their sensor measures. -/
def State.numericReading (s : State) (n : Nat) (measured : W32) : W32 :=
  if n = 17 then BitVec.ofNat 32 (s.fget F.PWR_CAP.CAP)
  else if n = 18 then BitVec.ofNat 32 s.capEngines
  else if n = 19 then BitVec.ofNat 32 (s.fget F.SUPPLY_STATUS.WARN_COUNT)
  else measured

/-- Operational state 0 enabled, 1 disabled, 2 unavailable. -/
def State.sensorOp (s : State) (n : Nat) : Nat := s.mg.senOff.get (fun _ => 0) n

/-- GETSENSORREADING (R539, R540): data size, operational state, four fields of the events' state, reading; the size code and
the event fields are free, and so is the reading of a sensor that is not enabled. -/
def execGetsensorreading (b : MBus) (sensor : BitVec 16) (measured : W32) (s : State) : Host.Outcome State Fault Refusal :=
  .next (s.onPldm b fun s1 =>
    if isNumeric sensor.toNat then
      let op := s1.sensorOp sensor.toNat
      let p := s1.freeBytes 9
      let rd := if op = 0 then leList (s1.numericReading sensor.toNat measured).toNat 4 else p.1.drop 5
      p.2.pldm b 0 (p.1.take 1 ++ [BitVec.ofNat 8 op] ++ (p.1.drop 1).take 4 ++ rd)
    else s1.pldm b 0x80 [])

/-- The state of a state sensor, as its index in R540's list of states. -/
def State.stateOf (s : State) (n : Nat) : Nat :=
  if n = 32 then s.fget F.BOOT_STATUS.STAGE
  else if n = 33 then (if s.flag F.SEAL_STATUS.FAULT then 2 else if s.flag F.SEAL_CTRL.HOLD then 1 else 0)
  else if n = 34 then s.fget (ringFld 0)
  else if n = 35 then s.fget (ringFld 1)
  else if n = 36 then s.wallState
  else b2n (!s.dieUp (n - 37))

/-- The number sent for a state: a register's code where R540 names a register's field. -/
def stateByte (n k : Nat) : Byte :=
  if n = 32 ∨ n = 34 ∨ n = 35 ∨ n = 36 then BitVec.ofNat 8 k else Config.stateCode n k

/-- GETSTATESENSORREADINGS (R539, R540): one sensor, enabled, its present state; the previous state and the event state are
free. -/
def execGetstatesensorreadings (b : MBus) (sensor : BitVec 16) (s : State) : Host.Outcome State Fault Refusal :=
  .next (s.onPldm b fun s1 =>
    let n := sensor.toNat
    if isStateSensor n then
      let p := s1.freeBytes 2
      p.2.pldm b 0 ([1, 0, stateByte n (s1.stateOf n)] ++ p.1)
    else s1.pldm b 0x80 [])

/-- SETNUMERICSENSORENABLE (R539). -/
def execSetnumericsensorenable (b : MBus) (sensor : BitVec 16) (op : Byte) (s : State) : Host.Outcome State Fault Refusal :=
  .next (s.onPldm b fun s1 =>
    if !isNumeric sensor.toNat then s1.pldm b 0x80 []
    else if op.toNat ≤ 2 then
      State.pldm { s1 with mg := { s1.mg with senOff := s1.mg.senOff.set (fun _ => 0) sensor.toNat op.toNat } } b 0 []
    else s1.pldm b 0x81 [])

/-- The sensors in the order of R540: one record each. -/
def sensorIds : List Nat := List.range' 1 19 ++ List.range' 32 7

/-- GETPDRREPOSITORYINFO (R539): repository available, 26 records; times, sizes and the timeout are free. -/
def execGetpdrrepositoryinfo (b : MBus) (s : State) : Host.Outcome State Fault Refusal :=
  .next (s.onPldm b fun s1 =>
    let p := s1.freeBytes 35
    p.2.pldm b 0 ([0] ++ p.1.take 26 ++ leList sensorIds.length 4 ++ p.1.drop 26))

/-- The handle of a record is its position from 1; 0 asks for the first. -/
def pdrIndex (h : Nat) : Nat := h - 1

/-- GETPDR (R539, R540): next handle, and the record of one sensor as far as R540 describes it: its handle, numeric (2) or
state (4) sensor, and sensor ID; the header fields between them are free, and what follows is not represented. -/
def execGetpdr (b : MBus) (handle : W32) (s : State) : Host.Outcome State Fault Refusal :=
  .next (s.onPldm b fun s1 =>
    match sensorIds[pdrIndex handle.toNat]? with
    | some n =>
      let i := pdrIndex handle.toNat
      let nxt := if i + 2 ≤ sensorIds.length then i + 2 else 0
      let p := s1.freeBytes 13
      let kind : Byte := if n < 32 then 2 else 4
      p.2.pldm b 0 (leList nxt 4 ++ p.1.take 4 ++ [5] ++ (p.1.drop 4).take 2 ++ leList (i + 1) 4 ++ (p.1.drop 6).take 1 ++ [kind] ++
        p.1.drop 7 ++ leList n 2)
    | none => s1.pldm b 0x82 [])

/-- Sends a PlatformEventMessage to the event receiver, when there is one (R541). -/
def State.sendEvent (s : State) (n k : Nat) : State :=
  if s.mg.evOn = 0 then s else s.emit (.event s.mg.evEid n (stateByte n k).toNat)

/-- STATE_SENSOR_CHANGE (R541): a change inside the 100 ms interval waits for its end. -/
def execStateSensorChange (sensor : BitVec 16) (s : State) : Host.Outcome State Fault Refusal :=
  .next (
    let n := sensor.toNat
    let k := s.stateOf n
    if s.running && isStateSensor n && s.mg.lastSent.get (fun _ => 0) n != k then
      let s1 := { s with mg := { s.mg with lastSent := s.mg.lastSent.set (fun _ => 0) n k } }
      if s.mg.merging.contains n then
        { s1 with mg := { s1.mg with pendingE := if s1.mg.pendingE.contains n then s1.mg.pendingE else s1.mg.pendingE ++ [n] } }
      else if s.mg.evOn = 0 then s1
      else State.sendEvent { s1 with mg := { s1.mg with merging := s1.mg.merging ++ [n] } } n k
    else s)

/-- EVENT_MERGE_EXPIRY (R541): merged changes are sent as one message with the latest state, from which a new interval
runs. -/
def execEventMergeExpiry (sensor : BitVec 16) (s : State) : Host.Outcome State Fault Refusal :=
  .next (
    let n := sensor.toNat
    if s.mg.merging.contains n then
      if s.mg.pendingE.contains n then
        State.sendEvent { s with mg := { s.mg with pendingE := s.mg.pendingE.filter (· != n) } } n (s.stateOf n)
      else { s with mg := { s.mg with merging := s.mg.merging.filter (· != n) } }
    else s)

/-! ### PLDM firmware update (R539, R542) -/

/-- QUERYDEVICEIDENTIFIERS (R503, R539): PCI vendor ID and device ID. -/
def execQuerydeviceidentifiers (b : MBus) (s : State) : Host.Outcome State Fault Refusal :=
  .next (s.onUpdate b fun s1 =>
    s1.pldm b 0 (leList 12 4 ++ [2] ++ leList 0x0000 2 ++ leList 2 2 ++ leList 0x2D7A 2 ++ leList 0x0100 2 ++ leList 2 2 ++
      leList 0x9400 2))

/-- VERSION of the item of a type in the booted directory copy (R533). -/
def State.itemVersion (s : State) (ty : Nat) : Nat :=
  match itemOf s.boot.flash s.boot.dirCopy ty with
  | some x => x.ver
  | none => 0

/-- The item type of the slot booted (R533, R534). -/
def State.bootedSlot (s : State) : Nat := if s.boot.slotB then 2 else 1

/-- GETFIRMWAREPARAMETERS (R539, R542): two components, of which the answer carries identifier and active comparison stamp;
the capabilities are free and the other fields are not represented. -/
def execGetfirmwareparameters (b : MBus) (s : State) : Host.Outcome State Fault Refusal :=
  .next (s.onUpdate b fun s1 =>
    let p := s1.freeBytes 4
    p.2.pldm b 0 (p.1 ++ leList 2 2 ++ leList 1 2 ++ leList (s1.itemVersion s1.bootedSlot) 4 ++ leList 2 2 ++
      leList (s1.itemVersion 3) 4))

/-- The update goes to another step. -/
def State.updTo (s : State) (u : UpdSt) : State := { s with mg := { s.mg with upd := u } }

/-- A command of an update: outside one it is answered 0x80, in a state that does not take it 0x84. -/
def State.onStep (s : State) (b : MBus) (from_ : List UpdSt) (f : State → State) : State :=
  s.onUpdate b fun s1 =>
    if s1.mg.upd = .idle then s1.pldm b 0x80 []
    else if from_.contains s1.mg.upd then f s1
    else s1.pldm b 0x84 []

/-- REQUESTUPDATE (R539): 0x81 when an update is in progress. -/
def execRequestupdate (b : MBus) (ncomp : BitVec 16) (s : State) : Host.Outcome State Fault Refusal :=
  .next (s.onUpdate b fun s1 =>
    if s1.mg.upd ≠ .idle then s1.pldm b 0x81 []
    else if ncomp = 0 then s1.pldm b ccInvalidData []
    else (s1.updTo .learn).pldm b 0 [])

/-- A component of R542. -/
def compOk (c : Nat) : Bool := c == 1 || c == 2

/-- PASSCOMPONENTTABLE (R539): the answer says whether the component can be updated. -/
def execPasscomponenttable (b : MBus) (comp : BitVec 16) (s : State) : Host.Outcome State Fault Refusal :=
  .next (s.onStep b [.learn, .ready] fun s1 =>
    (s1.updTo .ready).pldm b 0 [BitVec.ofNat 8 (b2n (!compOk comp.toNat))])

/-- The item that an update of a component writes: the firmware slot that is not booted, or the keystone item, as the
directory that would be booted next describes it (R542). -/
def State.updItem (s : State) (c comp : Nat) : Option DirItem :=
  if comp = 1 then itemOf s.boot.flash c (3 - s.bootedSlot) else itemOf s.boot.flash c 3

/-- The directory copy with an item replaced by the update, SEQ and DIR_CRC, as 4,096 bytes (R533, R542). A new firmware slot
becomes the active one. -/
def newDir (m : FMap Byte) (c : Nat) (x : DirItem) (seq ver : Nat) (data : List Byte) : List Byte :=
  let w2 := fun (d : FMap Byte) (y : DirItem) =>
    if (x.ty == 1 || x.ty == 2) && (y.ty == 1 || y.ty == 2)
    then Mem.writeLe d (y.at_ + 2) 2 (setBitsNat (Mem.leNat d (y.at_ + 2) 2) 0 1 (b2n (y.ty == x.ty))) else d
  let m1 := Mem.writeLe m (dirBase c + 4) 4 seq
  let m2 := (dirItems m c).foldl w2 m1
  let m3 := Mem.writeLe (Mem.writeLe m2 (x.at_ + 16) 8 data.length) (x.at_ + 24) 4 (crc32c data).toNat
  let m4 := Mem.writeLe m3 (x.at_ + 28) 4 ver
  let body := Mem.bytes m4 (dirBase c) 0xFFC
  body ++ leList (crc32c body).toNat 4

/-- Writes an update: the data into the item, then the directory into the copy that was not booted from, with SEQ one higher
than the booted copy's (R542). -/
def writeUpdate (m : FMap Byte) (booted base : Nat) (x : DirItem) (ver : Nat) (data : List Byte) : FMap Byte :=
  let m1 := Mem.writeList m x.off data
  Mem.writeList m1 (dirBase (1 - booted)) (newDir m1 base x (dirSeq m booted + 1) ver data)

/-- The update of a component, when a directory describes where it goes (R542). -/
def State.updWrite (s : State) (b : MBus) (comp ver : Nat) (data : List Byte) : State :=
  match dirPick s.boot.flash with
  | none => s.pldm b 1 []
  | some c =>
    match s.updItem c comp with
    | none => s.pldm b 1 []
    | some x =>
      let s1 := { s with boot := { s.boot with flash := writeUpdate s.boot.flash s.boot.dirCopy c x ver data } }
      ((s1.updTo .download).pldm b 0 []).emit (.fwRequest b 0 data.length)

/-- An update that is longer than a firmware slot (R533): no rule says how it is answered. The completion code is free; with
code 0 the device goes on with as much as the slot holds (log 62). -/
def State.updLong (s : State) (b : MBus) (comp ver : Nat) (data : List Byte) : State :=
  let d := s.draw
  if d.1 % 256 = 0 then d.2.updWrite b comp ver (data.take 0x400000) else d.2.pldm b (d.1 % 256) []

/-- UPDATECOMPONENT (R539, R542): the device asks for the data, which it writes as they arrive. -/
def execUpdatecomponent (b : MBus) (comp : BitVec 16) (version : W32) (data : List Byte) (s : State) :
    Host.Outcome State Fault Refusal :=
  .next (s.onStep b [.ready] fun s1 =>
    if !compOk comp.toNat then s1.pldm b ccInvalidData []
    else if updateOk data then s1.updWrite b comp.toNat version.toNat data
    else s1.updLong b comp.toNat version.toNat data)

/-- The end of a stage of an update: on success the next stage, else back to READY XFER. -/
def State.stageDone (s : State) (b : MBus) (at_ nxt : UpdSt) (result : Byte) : State :=
  s.onStep b [at_] fun s1 => (s1.updTo (if result = 0 then nxt else .ready)).pldm b 0 []

/-- TRANSFERCOMPLETE (R539). -/
def execTransfercomplete (b : MBus) (result : Byte) (s : State) : Host.Outcome State Fault Refusal :=
  .next (s.stageDone b .download .verify result)

/-- VERIFYCOMPLETE (R539). -/
def execVerifycomplete (b : MBus) (result : Byte) (s : State) : Host.Outcome State Fault Refusal :=
  .next (s.stageDone b .verify .apply result)

/-- APPLYCOMPLETE (R539). -/
def execApplycomplete (b : MBus) (result : Byte) (s : State) : Host.Outcome State Fault Refusal :=
  .next (s.stageDone b .apply .ready result)

/-- ACTIVATEFIRMWARE (R539, R542): self-contained activation is reported as not supported; the update takes effect at the
next cold reset. -/
def execActivatefirmware (b : MBus) (selfContained : Bool) (s : State) : Host.Outcome State Fault Refusal :=
  .next (s.onStep b [.ready] fun s1 =>
    if selfContained then s1.pldm b 0x8C [] else (s1.updTo .idle).pldm b 0 (leList 0 2))

/-- The DMTF number of an update's state. -/
def updCode : UpdSt → Nat
  | .idle => 0
  | .learn => 1
  | .ready => 2
  | .download => 3
  | .verify => 4
  | .apply => 5

/-- GETSTATUS (R539): the current state; the other fields are free. -/
def execGetstatus (b : MBus) (s : State) : Host.Outcome State Fault Refusal :=
  .next (s.onUpdate b fun s1 =>
    let p := s1.freeBytes 9
    p.2.pldm b 0 (BitVec.ofNat 8 (updCode s1.mg.upd) :: p.1))

/-- CANCELUPDATECOMPONENT (R539). -/
def execCancelupdatecomponent (b : MBus) (s : State) : Host.Outcome State Fault Refusal :=
  .next (s.onStep b [.download, .verify, .apply] fun s1 => (s1.updTo .ready).pldm b 0 [])

/-- CANCELUPDATE (R539): no component is left not working, since the booted slot stays valid (R542). -/
def execCancelupdate (b : MBus) (s : State) : Host.Outcome State Fault Refusal :=
  .next (s.onUpdate b fun s1 =>
    if s1.mg.upd = .idle then s1.pldm b 0x80 [] else (s1.updTo .idle).pldm b 0 (leList 0 9))

end Sys2Proof.Machine
end

