-- ==== Sys2Proof/Machine/Power.lean ====
section
/-! DEFINITION. Clocks, supplies and heat (R547 to R557, R570 to R576), power states (R558 to R564), and room gating (R565 to
R569, R595). -/

namespace Sys2Proof.Machine

/-! ### Timestamp (R551) -/

/-- TS_LO_READ (R551): the low half is returned and the upper half latched into TS_HI. -/
def execTsLoRead (r : Req) (s : State) : Host.Outcome State Fault Refusal :=
  .next (if s.running then
    (s.setReg Off.TS_HI (BitVec.ofNat 32 (s.ts.toNat / 2 ^ 32))).emit (.readData r (BitVec.ofNat 32 s.ts.toNat))
  else s)

/-! ### Supplies (R554 to R556) -/

/-- The number of a rail in WARN_RAIL, from 0 (R584). -/
def railIx : Rail → Nat
  | .vddCore => 0
  | .vddSram => 1
  | .vddIo => 2
  | .vddHbm => 3
  | .vddqHbm => 4
  | .vaux => 5

/-- A warning is reported (R554). -/
def State.warn (s : State) (x : Rail) : State :=
  ((s.fset F.SUPPLY_STATUS.WARN_SEEN 1).setBit F.SUPPLY_STATUS.WARN_RAIL (railIx x)).pkgEvent evPower

/-- The engine clock is stretched; an entry into the stretch counts (R555, R556). -/
def State.stretch (s : State) : State :=
  if s.flag F.CLK_STATUS.STRETCH then s
  else (s.fset F.CLK_STATUS.STRETCH 1).countSat F.SUPPLY_STATUS.WARN_COUNT 1

/-- VDD_CORE_WARNING (R555). -/
def execVddCoreWarning (s : State) : Host.Outcome State Fault Refusal :=
  .next (if s.running then s.stretch.warn .vddCore else s)

/-- STRETCH_END (R556). -/
def execStretchEnd (s : State) : Host.Outcome State Fault Refusal :=
  .next (if s.running then s.fset F.CLK_STATUS.STRETCH 0 else s)

/-- SUPPLY_WARNING (R554, R555): VDD_CORE is answered with the stretch as well. -/
def execSupplyWarning (x : Rail) (s : State) : Host.Outcome State Fault Refusal :=
  .next (if s.running then (if x = .vddCore then s.stretch.warn x else s.warn x) else s)

/-! ### Losses of a PHY PLL (R549) -/

/-- The effect on the interface whose PLL lost lock (R549). -/
def State.pllLost (s : State) (p : Pll) : State :=
  match p with
  | .lorlink q =>
    let s1 := s.clrBit F.CLK_STATUS.LORLINK_LOCK q.val
    if s1.isLive q.val then s1.portErr q.val 1 0xB else s1
  | .hbm _ => s.packageStop
  | .pcie => (s.fset F.CLK_STATUS.PCIE_LOCK 0).linkDown
  | .cellar q => (s.clrBit F.CLK_STATUS.CXL_LOCK q.val).cxlLost q.val

/-- PLL_LOSS (R549, R573). -/
def execPllLoss (p : Pll) (s : State) : Host.Outcome State Fault Refusal :=
  .next (if s.running then ((s.fset F.THERM_STATUS.PLL_LOSS 1).pkgEvent evPower).pllLost p else s)

/-! ### Engine rate (R552, R571, R572) -/

/-- RATE_CAP after an update (R571). -/
def nextRateCap (cap rate power : Nat) : Nat :=
  if cap < power then max 1 (rate - 2) else if power + 30 < cap then min 16 (rate + 1) else rate

/-- RATE_THERM after an update; temperatures in half degrees (R571). -/
def nextRateTherm (rate dieMax hbmMax : Nat) : Nat :=
  if 200 ≤ dieMax ∨ 190 ≤ hbmMax then max 1 (rate - 2)
  else if dieMax < 190 ∧ hbmMax < 180 then min 16 (rate + 1) else rate

/-- RATE_UPDATE (R571 to R573). -/
def execRateUpdate (env : RateEnv) (s : State) : Host.Outcome State Fault Refusal :=
  .next (if s.running then
    let cap := s.fget F.PWR_CAP.CAP
    let c := nextRateCap cap (s.fget F.THERM_STATUS.RATE_CAP) env.power
    let t := nextRateTherm (s.fget F.THERM_STATUS.RATE_THERM) env.dieMax env.hbmMax
    let unmet := cap < env.power && s.fget F.THERM_STATUS.RATE_CAP == 1
    let throttles := decide (t < 16) && !s.flag F.THERM_STATUS.THROTTLE
    let s1 := ((s.fset F.THERM_STATUS.RATE_CAP c).fset F.THERM_STATUS.RATE_THERM t).fset F.CLK_STATUS.RATE (min c t)
    let s2 := s1.fset F.THERM_STATUS.THROTTLE (b2n (decide (t < 16)))
    let s3 := if unmet then (s2.fset F.THERM_STATUS.CAP_UNMET 1).pkgEvent evPower else s2
    if throttles then (s3.fset F.THERM_STATUS.THROTTLE_SEEN 1).pkgEvent evPower else s3
  else s)

/-! ### Power states (R558 to R564) -/

/-- A transition ends with DONE (R559). -/
def State.pwrDone (s : State) : State :=
  ((({ s with pwr := { s.pwr with trans := none } }).fset F.PWR_STATUS.BUSY 0).fset F.PWR_STATUS.DONE 1).pkgEvent evPower

/-- A command is refused: 1 CONTEXTS, 2 DRAIN, 3 ORDER (R559). -/
def State.pwrRefuse (s : State) (why : Nat) : State :=
  ((({ s with pwr := { s.pwr with trans := none, fwHalt := false } }).fset F.PWR_STATUS.BUSY 0).fset
    F.PWR_STATUS.REFUSED why).pkgEvent evPower

/-- A transition starts; REFUSED clears (R559, R584). -/
def State.pwrStart (s : State) (target : Nat) : State :=
  (({ s with pwr := { s.pwr with
    trans := some { target := target, origin := s.fget F.PWR_STATUS.STATE, closed := false } } }).fset F.PWR_STATUS.BUSY 1).fset
    F.PWR_STATUS.REFUSED 0

/-- The accepted write blocks of streams, each with its engine and context (R428). -/
def State.writesInFlight (s : State) : List (Nat × Nat × InFlight) :=
  (List.range 150).flatMap fun e => ((s.eng e).streams.filter fun t => t.isWrite).flatMap fun t =>
    t.flight.map fun f => (e, t.ctx, f)

/-- A store that the device has accepted and not yet written: a write block, a host write that waits, a status word that another
package has not acknowledged (R428). -/
def State.owesStores (s : State) : Bool :=
  !s.writesInFlight.isEmpty || s.hs.barWait.any (fun b => b.wdata.isSome) || !s.link.acks.isEmpty

/-- Every accepted store has been written, and no larder fill is in progress (R428; assumption log 49). -/
def State.drained (s : State) : Bool := !s.owesStores && s.ms.fills.isEmpty

/-- Both rings go OUT, and the open epoch of a mirroring wall closes (R562 step 3, R578 step 2). -/
def State.ringsOut (s : State) : State :=
  let out := fun (st : State) (g : Nat) => if st.fget (ringFld g) = 0 then st else st.ringOut g
  let s1 := out (out s 0) 1
  if s1.wallState = 3 then s1.closeEpoch else s1

/-- The drain has ended: the rings and the epoch are closed (R562 step 3). -/
def State.retainClose (s : State) : State :=
  { s.ringsOut with pwr := { s.ringsOut.pwr with trans := s.pwr.trans.map fun t => { t with closed := true } } }

/-- A TARGET written while no transition is in progress (R559). -/
def State.pwrTarget (s : State) (t : Nat) : State :=
  let st := s.fget F.PWR_STATUS.STATE
  let s1 := s.fset F.PWR_CMD.TARGET t
  if t = st then (s1.fset F.PWR_STATUS.REFUSED 0).pwrDone
  else if t = 2 then
    if s1.ctxs.any fun p => p.2.live then s1.pwrRefuse 1
    else
      let s2 := s1.pwrStart 2
      let s3 := { s2 with pwr := { s2.pwr with fwHalt := true } }
      if s3.drained then s3.retainClose else s3
  else if st = 2 ∧ t = 1 then s1.pwrRefuse 3
  else s1.pwrStart t

/-- A write to PWR_CMD (R558, R559): a reserved TARGET changes nothing; while BUSY a write is dropped. -/
def State.pwrCmd (s : State) (w : BusWr) : State :=
  s.keyedWrite Off.PWR_CMD w fun keyed s1 =>
    let t := w.val.toNat % 4
    if !keyed || t == 3 then s1
    else if s1.flag F.PWR_STATUS.BUSY then s1.fset F.PWR_STATUS.DROP 1
    else s1.pwrTarget t

/-- ACTIVE (R559): the write of PWR_CMD. -/
def execActive (w : BusWr) (s : State) : Host.Outcome State Fault Refusal := .next (s.pwrCmd w)

/-- IDLE (R559): the write of PWR_CMD. -/
def execIdle (w : BusWr) (s : State) : Host.Outcome State Fault Refusal := .next (s.pwrCmd w)

/-- RETAIN (R559, R562): the write of PWR_CMD. -/
def execRetain (w : BusWr) (s : State) : Host.Outcome State Fault Refusal := .next (s.pwrCmd w)

/-- A transition to `target` from `origin` is in progress. -/
def State.inTrans (s : State) (target origin : Nat) : Bool :=
  match s.pwr.trans with
  | some t => t.target == target && t.origin == origin
  | none => false

/-- IDLE_ENTRY_END (R559). -/
def execIdleEntryEnd (s : State) : Host.Outcome State Fault Refusal :=
  .next (if s.inTrans 1 0 then (s.fset F.PWR_STATUS.STATE 1).pwrDone else s)

/-- IDLE_EXIT_END (R559). -/
def execIdleExitEnd (s : State) : Host.Outcome State Fault Refusal :=
  .next (if s.inTrans 0 1 then (s.fset F.PWR_STATUS.STATE 0).pwrDone else s)

/-- The drain of an entry into RETAIN is still in progress. -/
def State.retainDrains (s : State) : Bool :=
  match s.pwr.trans with
  | some t => t.target == 2 && !t.closed
  | none => false

/-- DRAIN_TIMEOUT (R428, R431, R559): accepted stores remain after 10 µs: the transition is refused, and the stores go on
being written. -/
def execDrainTimeout (s : State) : Host.Outcome State Fault Refusal :=
  .next (if s.retainDrains && !s.drained then s.pwrRefuse 2 else s)

/-- A room-window register that the loss of the room's power keeps (R75, R374). -/
def roomRegKept (off : Nat) : Bool :=
  match roomOfOff off with
  | some (_, o) => o == 0x40 || o == 0x44 || o == 0x14000
  | none => true

/-- A room without power (R380, R563, R566): everything is lost but what R374 keeps and a gate change in progress. -/
def RoomSt.off (x : RoomSt) : RoomSt := { RoomSt.reset with outOfSvc := x.outOfSvc, gating := x.gating }

/-- Both compute dies lose power (R562, R563): rooms, engines, caches and mortar stages. -/
def State.diesOff (s : State) : State :=
  { s with
    regs := s.regs.filter fun p => roomRegKept p.1
    rooms := s.rooms.mapV (fun _ => RoomSt.reset) RoomSt.off
    engs := []
    mo := MortarSt.reset
    link := { s.link with routeC := [] }
    ms := { s.ms with roomTlb := [], floorTlb := [], ledgerC := [], lines := [], tickets := [], noTicket := [], xfWait := [],
                      bursts := [] } }

/-- Port P goes OFF and the wall leaves RESYNC, MIRROR or GRACE for STALE (R496, R562). -/
def State.wallOff (s : State) : State := s.wallLeave.setEnable 4 false

/-- RETAIN_ENTRY_END (R562): once the drain has ended the rings and the epoch close; then, after the acknowledgement or the
grace, port P is disabled, HBM enters self-refresh and the dies lose power. -/
def execRetainEntryEnd (s : State) : Host.Outcome State Fault Refusal :=
  .next (match s.pwr.trans with
    | some t =>
      if t.target ≠ 2 then s
      else if t.closed then ((s.wallOff.diesOff).fset F.PWR_STATUS.STATE 2).pwrDone
      else if s.drained then s.retainClose
      else s
    | none => s)

/-- Power returns to the dies (R564): SRAM is tested and zeroed, latches read zero, and every room that is not gated has the
booted image (R301). -/
def State.diesOn (s : State) (l : List SramFail) : State := (State.sramTest { s with latches := [] } l).loadImages

/-- RETAIN_EXIT_END (R559, R564, R583). -/
def execRetainExitEnd (env : TestEnv) (s : State) : Host.Outcome State Fault Refusal :=
  .next (if s.inTrans 0 2 then
    let s1 := s.diesOn env.sramFails
    (State.fset { s1 with pwr := { s1.pwr with fwHalt := false } } F.PWR_STATUS.STATE 0).pwrDone
  else s)

/-! ### Room gating (R565 to R569, R595, R596) -/

/-- A change of a room's GATE bit is refused (R565). -/
def State.gateRefused (s : State) (r : Nat) : Bool :=
  let x := s.room r
  ((List.range 4).any fun i => (x.inbox i).bound) || (x.cmds.any fun c => c.st == .running || c.st == .done) || x.core.active ||
    s.flag (F.RS_CTRL.DRAINING r) || x.gating.isSome

/-- An accepted change of a room's GATE bit starts (R565, R595). -/
def State.startGate (s : State) (r : Nat) (on : Bool) : State :=
  let f := roomFloor r
  let s1 := if on then s.setBit (F.ROOM_PWR.GATE f) (r % 5) else s.clrBit (F.ROOM_PWR.GATE f) (r % 5)
  s1.setRoom r { s1.room r with gating := some on }

/-- The rooms of floor `f` whose GATE bit a write changes, with the new value (R88, R565). -/
def State.gateChanges (s : State) (f v : Nat) : List (Nat × Bool) :=
  (List.range 5).filterMap fun n =>
    if bitAt v (16 + n) && bitAt v n != bitAt (s.fget (F.ROOM_PWR.GATE f)) n then some (f * 5 + n, bitAt v n) else none

/-- A write of GATE bits (R565): each change is judged on its own. -/
def State.writeGates (s : State) (f v : Nat) : State :=
  let l := s.gateChanges f v
  let bad := l.any fun p => s.gateRefused p.1
  let s1 := (l.filter fun p => !s.gateRefused p.1).foldl (fun st p => st.startGate p.1 p.2) s
  if l.isEmpty then s1
  else if bad then (s1.fset (F.ROOM_PWR.REFUSED f) 1).pkgEvent evPower
  else s1.fset (F.ROOM_PWR.REFUSED f) 0

/-- ROOM_PWR_WRITE (R565, R568, R595). -/
def execRoomPwrWrite (f : FloorIx) (w : BusWr) (s : State) : Host.Outcome State Fault Refusal :=
  .next (s.openWrite (Off.ROOM_PWR f.val) w fun s1 => s1.writeGates f.val w.val.toNat)

/-- The engines of a room hold nothing. -/
def State.clearEngines (s : State) (r : Nat) : State :=
  (List.range 5).foldl (fun st k => st.setEng (r * 5 + k) EngSt.reset) s

/-- A room loses its power (R566): commands that wait in it fault with PLACE, and its contents are lost. -/
def State.powerOff (s : State) (r : Nat) : State :=
  let s1 := s.faultCmds r (fun _ => true) fun _ => FaultInfo.mk0 causePlace
  let s2 := (s1.setRoom r { (s1.room r).off with gating := none }).clearEngines r
  { s2 with ms := { s2.ms with roomTlb := s2.ms.roomTlb.filter fun p => p.1 != r } }

/-- ROOM_GATE_END (R565, R566, R573). -/
def execRoomGateEnd (r : RoomIx) (s : State) : Host.Outcome State Fault Refusal :=
  .next (if s.running && (s.room r.val).gating == some true then
    ((s.powerOff r.val).setBit (F.ROOM_PWR.GATED (roomFloor r.val)) (r.val % 5)).pkgEvent evPower
  else s)

/-- ROOM_UNGATE_END (R565, R567, R573, R595): the memories are zero, and the booted image is loaded and swapped in. -/
def execRoomUngateEnd (r : RoomIx) (s : State) : Host.Outcome State Fault Refusal :=
  .next (if s.running && (s.room r.val).gating == some false then
    let s1 := (s.setRoom r.val { (s.room r.val).off with gating := none }).clearEngines r.val
    ((s1.clrBit (F.ROOM_PWR.GATED (roomFloor r.val)) (r.val % 5)).loadImage r.val).pkgEvent evPower
  else s)

end Sys2Proof.Machine
end

