-- ==== Sys2Proof/Machine/Reset.lean ====
section
/-! DEFINITION. Resets and stops of the package (R430, R550, R557, R575 to R579, R587, R588, R596). -/

namespace Sys2Proof.Machine

/-! ### Cold reset, power-on reset and stops (R550, R557, R575 to R577) -/

/-- The bypass relays of biased rings close as the reset removes their bias (R475). -/
def State.unbias (s : State) : State :=
  let one := fun (st : State) (g : RingIx) => if s.flag (biasFld g.val) then st.emit (.rings g false) else st
  one (one s 0) 1

/-- Cold reset begins, and a clock loss or a thermal trip stays latched (R577). -/
def State.coldEnter (s : State) : State := (s.unbias).coldClear (if s.pwr.hold = .up then .cold else s.pwr.hold)

/-- A power-on reset (R577, R584, R587): as cold reset, and everything in the VAUX domain returns to its reset value. Memory
outside the package and the boot flash keep theirs. -/
def State.powerOn (s : State) : State :=
  let u := s.unbias
  { State.reset with
    pending := u.pending, freeCtr := u.freeCtr, outbox := u.outbox
    ms := { MemSt.reset with mem := u.outerMem }
    boot := { State.reset.boot with flash := u.boot.flash }
    pwr := { State.reset.pwr with resetN := u.pwr.resetN } }

/-- POWER_ON_RESET (R557, R577). -/
def execPowerOnReset (s : State) : Host.Outcome State Fault Refusal := .next s.powerOn

/-- The code of a rail in RST_CAUSE.RAIL (R584). -/
def railCode (x : Rail) : Nat := railIx x + 1

/-- SUPPLY_RESET (R430, R557, R577): a rail below its reset level is a cold reset; VAUX is a power-on reset. -/
def execSupplyReset (x : Rail) (s : State) : Host.Outcome State Fault Refusal :=
  .next (if x = .vaux then s.powerOn
    else (s.coldEnter.fset F.RST_CAUSE.SUPPLY 1).fset F.RST_CAUSE.RAIL (railCode x))

/-- RESET_N low: cold reset, which a clock loss and a thermal trip need (R550, R576, R577). -/
def State.resetPin (s : State) : State :=
  let z := (s.unbias).coldClear .cold
  State.fset { z with pwr := { z.pwr with thermtrip := false, resetN := true } } F.RST_CAUSE.PIN 1

/-- COLD_RESET (R430, R577, R580): RESET_N or PWR_GOOD falls. -/
def execColdReset (p : ResetPin) (s : State) : Host.Outcome State Fault Refusal :=
  .next (match p with
    | .resetN => s.resetPin
    | .pwrGood => s.coldEnter.fset F.RST_CAUSE.PWR_GOOD 1)

/-- REFCLK_LOSS (R550). While RESET_N is asserted the clock need not run (R547). -/
def execRefclkLoss (s : State) : Host.Outcome State Fault Refusal :=
  .next (if s.pwr.resetN || s.pwr.hold == .trip then s else s.packageStop)

/-- THERMAL_TRIP (R575, R576): THERMTRIP_N is asserted, the bias is removed, and the package stays in reset. -/
def execThermalTrip (_ : ThermSensor) (s : State) : Host.Outcome State Fault Refusal :=
  .next (if s.pwr.resetN then s
    else
      let z := (s.dropBias).coldClear .trip
      State.fset { z with pwr := { z.pwr with thermtrip := true } } F.RST_CAUSE.THERMTRIP 1)

/-! ### Warm reset (R578, R579, R587, R588, R596) -/

/-- The drain can bring this block to its destination: memory of this package, the host window or the cellar, outside a window
that the wall blocks (R428, R495; assumption log 49). -/
def State.drains (s : State) (f : InFlight) : Bool :=
  match f.reach with
  | .remote _ => false
  | _ => !s.wallBlocks (blockSpan f.pa f.blk.nbits).1 (blockSpan f.pa f.blk.nbits).2

/-- Writes one accepted block to its destination; the mirror queue no longer holds it back (R428, R494). -/
def State.drainOne (s : State) (p : Nat × Nat × InFlight) : State :=
  let f := p.2.2
  if s.drains f then
    let sp := blockSpan f.pa f.blk.nbits
    let v := s.outBits p.1 p.2.1 f.blk
    let old := (List.range sp.2).map fun i => v.2.physByte (sp.1 + i)
    v.2.physWrite sp.1 (mergeBits old (f.pa % 8) f.blk.nbits v.1)
  else s

/-- Stores that no drain can bring to their destination: the rings are OUT, or the wall blocks their window. -/
def State.owesForeign (s : State) : Bool :=
  s.writesInFlight.any (fun p => !s.drains p.2.2) || !s.link.acks.isEmpty

/-- The drain of a warm reset (R428, R429): accepted stores are written; those that remain, all of them or those that no drain
reaches, are lost and noted. -/
def State.warmDrain (s : State) (fails : Bool) : State :=
  if fails && s.owesStores then s.fset F.MEM_STATUS.WARM_LOST 1
  else
    let s1 := s.hs.barWait.foldl (fun st b => st.barDo b) (s.writesInFlight.foldl (fun st p => st.drainOne p) s)
    if s.owesForeign then s1.fset F.MEM_STATUS.WARM_LOST 1 else s1

/-- A register that warm reset keeps whole (R75, R119, R140, R374, R507, R578, R588; assumption log 44). -/
def warmKeeps (off : Nat) : Bool :=
  (match RegMap.find off with
   | some r => r.isSeal
   | none => false) ||
  (decide (0x200 ≤ off) && decide (off < 0x210)) || (decide (0x4000 ≤ off) && decide (off < 0x4084)) ||
  (decide (0x100040 ≤ off) && decide (off < 0x100058)) || off == Off.TS_HI || off == Off.PWR_CAP || off == Off.HBM_TRAIN ||
  off == Off.RST_CAUSE || (decide (0x400000 ≤ off) && decide (off < 0x408000)) ||
  (decide (0x440000 ≤ off) && decide (off < 0x450100)) ||
  ((List.range 2).any fun p => off == Off.CXL_STATUS p || off == Off.CXL_SIZE p) ||
  off == Off.PW_OUT_EPOCH || off == Off.PW_ACKED || off == Off.PW_IN_APPLIED ||
  (decide (0x1000000 ≤ off) && roomRegKept off)

/-- The fields that warm reset keeps of registers that it otherwise resets: clock locks and stretch, PW_STATUS, TAKEOVER,
WARM_LOST, ACTIVE (R429, R496, R497, R578). -/
def keptFields : List Fld :=
  [F.CLK_STATUS.ROOT_LOCK, F.CLK_STATUS.LORLINK_LOCK, F.CLK_STATUS.HBM_LOCK, F.CLK_STATUS.PCIE_LOCK, F.CLK_STATUS.CXL_LOCK,
   F.CLK_STATUS.STRETCH, F.PW_STATUS.STATE, F.PW_STATUS.CAUSE, F.PW_CTRL.TAKEOVER, F.MEM_STATUS.WARM_LOST] ++
  (List.range 30).map F.RS_CTRL.ACTIVE

/-- The registers after warm reset. -/
def State.warmRegs (s : State) : FMap W32 := s.regs.filter fun p => decide (p.1 < bankStride) && warmKeeps p.1

/-- A room after warm reset (R373, R374, R380, R596): both banks, the out-of-service marking, a gate change and
an undefined result (R379) stay. -/
def RoomSt.warm (x : RoomSt) : RoomSt :=
  { RoomSt.reset with bank0 := x.bank0, bank1 := x.bank1, outOfSvc := x.outOfSvc, gating := x.gating, undef := x.undef,
                      undefSwap := x.undefSwap }

/-- The logic is reset (R578 step 4, R587, R588). -/
def State.warmClear (s : State) : State :=
  let z := { State.reset with
    pending := s.pending
    freeCtr := s.freeCtr
    outbox := s.outbox
    ts := s.ts
    regs := s.warmRegs
    pwrites := s.aonWrites
    sealer := s.sealer
    rooms := s.rooms.mapV (fun _ => RoomSt.reset) RoomSt.warm
    ms := { MemSt.reset with mem := s.ms.mem, poison := s.ms.poison, burstSeq := s.ms.burstSeq, locked := s.ms.locked }
    link := { LinkSt.reset with wall := { WallSt.reset with takeover := s.link.wall.takeover } }
    pwr := { s.pwr with trans := none, fwHalt := false }
    boot := s.boot
    hs := { s.hs with ctxOp := none, flr := [], barWait := [] }
    mg := { MgmtSt.reset with straps := s.mg.straps }
    jtag := s.jtag }
  let z1 := keptFields.foldl (fun st f => st.fset f (s.fget f)) z
  if s.aonWrites.isEmpty then z1 else z1.fset F.DOMAIN_BUSY.AON 1

/-- A warm reset finds the package in RETAIN, or in a transition to it whose dies are off already, or leaving it (R579). -/
def State.fromRetain (s : State) : Bool :=
  s.fget F.PWR_STATUS.STATE == 2 || (match s.pwr.trans with
    | some t => t.target == 2 || t.origin == 2
    | none => false)

/-- The routine stores are lost when the SRAM of the dies is zeroed whole (R579). -/
def RoomSt.noBanks (x : RoomSt) : RoomSt := { x with bank0 := [], bank1 := [] }

/-- Steps 5 and 6 of R578, and those of R579 in their place: SRAM is tested, stage START_UP runs, port P trains again. Boot
that had stopped in RECOVERY stays there (assumption log 45). -/
def State.warmStart (s : State) (whole : Bool) (stage err : Nat) (l : List SramFail) : State :=
  if stage = 0xF then s.recovery err
  else
    let s1 := if whole then
        State.fset { s with rooms := s.rooms.mapV (fun _ => RoomSt.reset) RoomSt.noBanks } F.PWR_STATUS.STATE 0
      else s
    let s2 := s1.sramTest l
    if s2.fget F.BOOT_STATUS.STAGE = 0xF then s2
    else
      let s3 := if whole then s2.loadImages else s2
      (s3.portTo 4 1).fset F.BOOT_STATUS.STAGE 5

/-- A warm reset (R578, R579). -/
def State.warmReset (s : State) (env : TestEnv) : State :=
  let live := (s.ctxs.filter fun p => p.2.live).map fun p => p.1
  let s1 := (live.foldl (fun st c => st.haltContext c) s).ringsOut
  let s2 := s1.warmDrain env.drainFails
  let s3 := (((s2.portTo 4 0).wallLeave).warmClear).fset F.RST_CAUSE.WARM 1
  let s4 := if s2.wallState = 0 ∨ s2.wallState = 1 then s3 else (s3.fset F.PW_STATUS.WALL_BREACH 1).pkgEvent evWall
  s4.warmStart s.fromRetain (s.fget F.BOOT_STATUS.STAGE) (s.fget F.BOOT_STATUS.ERR) env.sramFails

/-- WARM (R577, R578): a keyed write of one to RST_CTRL.WARM. -/
def execWarm (w : BusWr) (env : TestEnv) (s : State) : Host.Outcome State Fault Refusal :=
  .next (s.keyedWrite Off.RST_CTRL w fun keyed s1 =>
    if keyed && bitAt w.val.toNat 0 then s1.warmReset env else s1)

end Sys2Proof.Machine
end

