-- ==== Sys2Proof/Machine/Dispatch.lean ====
section
/-! DEFINITION. The dispatch: one arm for each command, each a direct call of the command's meaning. -/

namespace Sys2Proof.Machine

/-- The effect of a command on everything but the queue. -/
def exec (i : Instr) (s : State) : Host.Outcome State Fault Refusal :=
  match i with
  -- registers, lock, mailbox (R80 to R118)
  | .registerWrite t w => Sys2Proof.Machine.execRegisterWrite t w s
  | .lockKeyWrite w => Sys2Proof.Machine.execLockKeyWrite w s
  | .bStagedApply b => Sys2Proof.Machine.execBStagedApply b s
  | .pWriteTakesEffect d => Sys2Proof.Machine.execPWriteTakesEffect d s
  | .mailboxSelWrite w => Sys2Proof.Machine.execMailboxSelWrite w s
  | .mailboxFetchDone r => Sys2Proof.Machine.execMailboxFetchDone r s
  | .mailboxLastWordRead r => Sys2Proof.Machine.execMailboxLastWordRead r s
  -- remap, fence, failures (R61 to R76, R388)
  | .remapWrite t w => Sys2Proof.Machine.execRemapWrite t w s
  | .fenceRequestWrite t w => Sys2Proof.Machine.execFenceRequestWrite t w s
  | .fenceDrainEnd u => Sys2Proof.Machine.execFenceDrainEnd u s
  | .unitFailureDetected f => Sys2Proof.Machine.execUnitFailureDetected f s
  | .sramUncorrectable x => Sys2Proof.Machine.execSramUncorrectable x s
  -- seal and keystone (R119 to R142)
  | .sealSweepSnapshot => Sys2Proof.Machine.execSealSweepSnapshot s
  | .sealSweepEnd => Sys2Proof.Machine.execSealSweepEnd s
  | .sealHoldExpiry => Sys2Proof.Machine.execSealHoldExpiry s
  | .sealCommit w => Sys2Proof.Machine.execSealCommit w s
  | .sealCommitEnd => Sys2Proof.Machine.execSealCommitEnd s
  | .keystoneSet w => Sys2Proof.Machine.execKeystoneSet w s
  -- queues and commands (R281 to R334)
  | .dbTailWrite p w => Sys2Proof.Machine.execDbTailWrite p w s
  | .dbDepthRead p => Sys2Proof.Machine.execDbDepthRead p s
  | .compatHoldEnd p timeout => Sys2Proof.Machine.execCompatHoldEnd p timeout s
  | .descriptorDelivery => Sys2Proof.Machine.execDescriptorDelivery s
  | .commandDispatch c => Sys2Proof.Machine.execCommandDispatch c s
  | .commandComplete c => Sys2Proof.Machine.execCommandComplete c s
  | .commandFault c => Sys2Proof.Machine.execCommandFault c s
  | .sync c => Sys2Proof.Machine.execSync c s
  | .matmul c => Sys2Proof.Machine.execMatmul c s
  | .load c => Sys2Proof.Machine.execLoad c s
  | .store c => Sys2Proof.Machine.execStore c s
  | .gather c => Sys2Proof.Machine.execGather c s
  | .scatter c => Sys2Proof.Machine.execScatter c s
  | .halo c => Sys2Proof.Machine.execHalo c s
  | .mortarOpen c => Sys2Proof.Machine.execMortarOpen c s
  | .call c => Sys2Proof.Machine.execCall c s
  | .latchValWrite w => Sys2Proof.Machine.execLatchValWrite w s
  | .fwGo r w => Sys2Proof.Machine.execFwGo r w s
  | .brkModeWrite r w => Sys2Proof.Machine.execBrkModeWrite r w s
  | .brkResume r w => Sys2Proof.Machine.execBrkResume r w s
  -- mortar tree (R268 to R279)
  | .engineRecord e => Sys2Proof.Machine.execEngineRecord e s
  | .dieStageRecord d => Sys2Proof.Machine.execDieStageRecord d s
  | .mortarForwardTimeout st k => Sys2Proof.Machine.execMortarForwardTimeout st k s
  | .packageStageRecord => Sys2Proof.Machine.execPackageStageRecord s
  -- control cores (R335 to R364)
  | .serviceEntry r sq => Sys2Proof.Machine.execServiceEntry r sq s
  | .routineLimitExpiry r => Sys2Proof.Machine.execRoutineLimitExpiry r s
  | .iadd r rd ra b => Sys2Proof.Machine.execIadd r rd ra b s
  | .isub r rd ra b => Sys2Proof.Machine.execIsub r rd ra b s
  | .iand r rd ra b => Sys2Proof.Machine.execIand r rd ra b s
  | .ior r rd ra b => Sys2Proof.Machine.execIor r rd ra b s
  | .ixor r rd ra b => Sys2Proof.Machine.execIxor r rd ra b s
  | .inor r rd ra b => Sys2Proof.Machine.execInor r rd ra b s
  | .shl r rd ra b => Sys2Proof.Machine.execShl r rd ra b s
  | .shr r rd ra b => Sys2Proof.Machine.execShr r rd ra b s
  | .shra r rd ra b => Sys2Proof.Machine.execShra r rd ra b s
  | .cmplt r rd ra b => Sys2Proof.Machine.execCmplt r rd ra b s
  | .cmpltu r rd ra b => Sys2Proof.Machine.execCmpltu r rd ra b s
  | .cmpeq r rd ra b => Sys2Proof.Machine.execCmpeq r rd ra b s
  | .imovh r rd imm => Sys2Proof.Machine.execImovh r rd imm s
  | .isel r rd ra rb rc => Sys2Proof.Machine.execIsel r rd ra rb rc s
  | .clz r rd ra => Sys2Proof.Machine.execClz r rd ra s
  | .bitcnt r rd ra => Sys2Proof.Machine.execBitcnt r rd ra s
  | .imul r rd ra rb => Sys2Proof.Machine.execImul r rd ra rb s
  | .ld8 r rd ra off => Sys2Proof.Machine.execLd8 r rd ra off s
  | .ld8u r rd ra off => Sys2Proof.Machine.execLd8u r rd ra off s
  | .ld16 r rd ra off => Sys2Proof.Machine.execLd16 r rd ra off s
  | .ld16u r rd ra off => Sys2Proof.Machine.execLd16u r rd ra off s
  | .ld32 r rd ra off => Sys2Proof.Machine.execLd32 r rd ra off s
  | .st8 r rs ra off => Sys2Proof.Machine.execSt8 r rs ra off s
  | .st16 r rs ra off => Sys2Proof.Machine.execSt16 r rs ra off s
  | .st32 r rs ra off => Sys2Proof.Machine.execSt32 r rs ra off s
  | .ld2w r rd ra off => Sys2Proof.Machine.execLd2w r rd ra off s
  | .st2w r rs ra off => Sys2Proof.Machine.execSt2w r rs ra off s
  | .brz r ra tgt sq => Sys2Proof.Machine.execBrz r ra tgt sq s
  | .brnz r ra tgt sq => Sys2Proof.Machine.execBrnz r ra tgt sq s
  | .breq r ra rb tgt sq => Sys2Proof.Machine.execBreq r ra rb tgt sq s
  | .brne r ra rb tgt sq => Sys2Proof.Machine.execBrne r ra rb tgt sq s
  | .brlt r ra rb tgt sq => Sys2Proof.Machine.execBrlt r ra rb tgt sq s
  | .brltu r ra rb tgt sq => Sys2Proof.Machine.execBrltu r ra rb tgt sq s
  | .jmp r tgt => Sys2Proof.Machine.execJmp r tgt s
  | .jmpr r ra => Sys2Proof.Machine.execJmpr r ra s
  | .rcall r rt => Sys2Proof.Machine.execRcall r rt s
  | .ret r => Sys2Proof.Machine.execRet r s
  | .dmbar r => Sys2Proof.Machine.execDmbar r s
  | .haltw r => Sys2Proof.Machine.execHaltw r s
  | .sysrd r rd n => Sys2Proof.Machine.execSysrd r rd n s
  | .syswr r ra n => Sys2Proof.Machine.execSyswr r ra n s
  | .trapret r => Sys2Proof.Machine.execTrapret r s
  | .esel r f => Sys2Proof.Machine.execEsel r f s
  | .tload r f => Sys2Proof.Machine.execTload r f s
  | .tloadTransferEnd r => Sys2Proof.Machine.execTloadTransferEnd r s
  | .tpref r f => Sys2Proof.Machine.execTpref r f s
  | .tstore r f => Sys2Proof.Machine.execTstore r f s
  | .eissue r f => Sys2Proof.Machine.execEissue r f s
  | .issuedDescriptorReadEnd r => Sys2Proof.Machine.execIssuedDescriptorReadEnd r s
  | .ewait r f => Sys2Proof.Machine.execEwait r f s
  | .lsig r f => Sys2Proof.Machine.execLsig r f s
  | .lwait r f => Sys2Proof.Machine.execLwait r f s
  | .lread r f => Sys2Proof.Machine.execLread r f s
  -- lockstep and routine store (R365 to R382)
  | .lockstepCompare r main chk railsOk parityOk => Sys2Proof.Machine.execLockstepCompare r main chk railsOk parityOk s
  | .lockstepInjection r passed => Sys2Proof.Machine.execLockstepInjection r passed s
  | .swapReq r w => Sys2Proof.Machine.execSwapReq r w s
  | .swapCopyEnd r => Sys2Proof.Machine.execSwapCopyEnd r s
  | .routineStoreWindowWrite r word w => Sys2Proof.Machine.execRoutineStoreWindowWrite r word w s
  | .debugPathWrite r word val => Sys2Proof.Machine.execDebugPathWrite r word val s
  | .swap r w => Sys2Proof.Machine.execSwap r w s
  | .swapCheckEnd r => Sys2Proof.Machine.execSwapCheckEnd r s
  | .drainingEnd r => Sys2Proof.Machine.execDrainingEnd r s
  -- memory (R383 to R444)
  | .streamBlockIssue s0 => Sys2Proof.Machine.execStreamBlockIssue s0 s
  | .streamBlockComplete s0 k => Sys2Proof.Machine.execStreamBlockComplete s0 k s
  | .translationWalkEnd s0 => Sys2Proof.Machine.execTranslationWalkEnd s0 s
  | .faultRingRecordWrite => Sys2Proof.Machine.execFaultRingRecordWrite s
  | .xfResume w => Sys2Proof.Machine.execXfResume w s
  | .invGo w => Sys2Proof.Machine.execInvGo w s
  | .invDone => Sys2Proof.Machine.execInvDone s
  | .larderFillEnd x => Sys2Proof.Machine.execLarderFillEnd x s
  | .cellarBurstData p seq n poison => Sys2Proof.Machine.execCellarBurstData p seq n poison s
  | .cellarGapExpiry p seq => Sys2Proof.Machine.execCellarGapExpiry p seq s
  | .lateThreshExpiry e => Sys2Proof.Machine.execLateThreshExpiry e s
  | .quantumExpiry e => Sys2Proof.Machine.execQuantumExpiry e s
  | .preempt e w => Sys2Proof.Machine.execPreempt e w s
  | .contextSwitch e => Sys2Proof.Machine.execContextSwitch e s
  | .drainTimeout => Sys2Proof.Machine.execDrainTimeout s
  | .arbRequest a i0 beats cycle => Sys2Proof.Machine.execArbRequest a i0 beats cycle s
  | .arbDecision a cycle withdrawn => Sys2Proof.Machine.execArbDecision a cycle withdrawn s
  | .arbStarve a i0 cycle => Sys2Proof.Machine.execArbStarve a i0 cycle s
  | .arbClassWrite a w cycle => Sys2Proof.Machine.execArbClassWrite a w cycle s
  | .cntClr a w => Sys2Proof.Machine.execCntClr a w s
  | .memCtrlEn w => Sys2Proof.Machine.execMemCtrlEn w s
  | .hbmPcRemapWrite s0 w => Sys2Proof.Machine.execHbmPcRemapWrite s0 w s
  -- Lorlink (R445 to R501)
  | .messageEgress => Sys2Proof.Machine.execMessageEgress s
  | .flitReceive q f => Sys2Proof.Machine.execFlitReceive q f s
  | .nak q hdr => Sys2Proof.Machine.execNak q hdr s
  | .nakTimeout q => Sys2Proof.Machine.execNakTimeout q s
  | .abort q hdr => Sys2Proof.Machine.execAbort q hdr s
  | .llGapExpiry q vc => Sys2Proof.Machine.execLlGapExpiry q vc s
  | .llRespExpiry s0 k => Sys2Proof.Machine.execLlRespExpiry s0 k s
  | .rdReq q => Sys2Proof.Machine.execRdReq q s
  | .rdRsp q => Sys2Proof.Machine.execRdRsp q s
  | .wr q => Sys2Proof.Machine.execWr q s
  | .wrAck q => Sys2Proof.Machine.execWrAck q s
  | .latch q => Sys2Proof.Machine.execLatch q s
  | .mortar q => Sys2Proof.Machine.execMortar q s
  | .heartbeat q => Sys2Proof.Machine.execHeartbeat q s
  | .epochData q => Sys2Proof.Machine.execEpochData q s
  | .epochEnd q => Sys2Proof.Machine.execEpochEnd q s
  | .epochAck q => Sys2Proof.Machine.execEpochAck q s
  | .retrain q w => Sys2Proof.Machine.execRetrain q w s
  | .portEnable q w => Sys2Proof.Machine.execPortEnable q w s
  | .trainingStageExit q i0 => Sys2Proof.Machine.execTrainingStageExit q i0 s
  | .trainingTimeout q fewLanes => Sys2Proof.Machine.execTrainingTimeout q fewLanes s
  | .los q => Sys2Proof.Machine.execLos q s
  | .join w => Sys2Proof.Machine.execJoin w s
  | .joinTimerExpiry g => Sys2Proof.Machine.execJoinTimerExpiry g s
  | .rtInv w => Sys2Proof.Machine.execRtInv w s
  | .rtInvDone => Sys2Proof.Machine.execRtInvDone s
  | .flush w => Sys2Proof.Machine.execFlush w s
  | .epochTimer => Sys2Proof.Machine.execEpochTimer s
  | .close w => Sys2Proof.Machine.execClose w s
  | .resync w => Sys2Proof.Machine.execResync w s
  | .takeover w => Sys2Proof.Machine.execTakeover w s
  | .wallGraceExpiry => Sys2Proof.Machine.execWallGraceExpiry s
  -- host boundary (R502 to R531)
  | .pcieLinkDown => Sys2Proof.Machine.execPcieLinkDown s
  | .pmD3hot f => Sys2Proof.Machine.execPmD3hot f s
  | .create w => Sys2Proof.Machine.execCreate w s
  | .destroy w => Sys2Proof.Machine.execDestroy w s
  | .destroyEnd => Sys2Proof.Machine.execDestroyEnd s
  | .functionLevelReset f => Sys2Proof.Machine.execFunctionLevelReset f s
  | .vfAptWrite v isSize w => Sys2Proof.Machine.execVfAptWrite v isSize w s
  | .flueConfigWrite k w => Sys2Proof.Machine.execFlueConfigWrite k w s
  | .msixIntervalEnd f vec => Sys2Proof.Machine.execMsixIntervalEnd f vec s
  | .cxlLinkLost p => Sys2Proof.Machine.execCxlLinkLost p s
  -- management endpoint (R537 to R542)
  | .setEndpointId b op eid => Sys2Proof.Machine.execSetEndpointId b op eid s
  | .getEndpointId b => Sys2Proof.Machine.execGetEndpointId b s
  | .getEndpointUuid b => Sys2Proof.Machine.execGetEndpointUuid b s
  | .getMctpVersionSupport b ty => Sys2Proof.Machine.execGetMctpVersionSupport b ty s
  | .getMessageTypeSupport b => Sys2Proof.Machine.execGetMessageTypeSupport b s
  | .unsupportedMctpMessage b ty cmd => Sys2Proof.Machine.execUnsupportedMctpMessage b ty cmd s
  | .settid b tid => Sys2Proof.Machine.execSettid b tid s
  | .gettid b => Sys2Proof.Machine.execGettid b s
  | .getpldmversion b ty => Sys2Proof.Machine.execGetpldmversion b ty s
  | .getpldmtypes b => Sys2Proof.Machine.execGetpldmtypes b s
  | .getpldmcommands b ty => Sys2Proof.Machine.execGetpldmcommands b ty s
  | .seteventreceiver b enable eid => Sys2Proof.Machine.execSeteventreceiver b enable eid s
  | .getsensorreading b sensor measured => Sys2Proof.Machine.execGetsensorreading b sensor measured s
  | .getstatesensorreadings b sensor => Sys2Proof.Machine.execGetstatesensorreadings b sensor s
  | .setnumericsensorenable b sensor op => Sys2Proof.Machine.execSetnumericsensorenable b sensor op s
  | .getpdrrepositoryinfo b => Sys2Proof.Machine.execGetpdrrepositoryinfo b s
  | .getpdr b handle => Sys2Proof.Machine.execGetpdr b handle s
  | .querydeviceidentifiers b => Sys2Proof.Machine.execQuerydeviceidentifiers b s
  | .getfirmwareparameters b => Sys2Proof.Machine.execGetfirmwareparameters b s
  | .requestupdate b ncomp => Sys2Proof.Machine.execRequestupdate b ncomp s
  | .passcomponenttable b comp => Sys2Proof.Machine.execPasscomponenttable b comp s
  | .updatecomponent b comp version data => Sys2Proof.Machine.execUpdatecomponent b comp version data s
  | .transfercomplete b result => Sys2Proof.Machine.execTransfercomplete b result s
  | .verifycomplete b result => Sys2Proof.Machine.execVerifycomplete b result s
  | .applycomplete b result => Sys2Proof.Machine.execApplycomplete b result s
  | .activatefirmware b selfContained => Sys2Proof.Machine.execActivatefirmware b selfContained s
  | .getstatus b => Sys2Proof.Machine.execGetstatus b s
  | .cancelupdatecomponent b => Sys2Proof.Machine.execCancelupdatecomponent b s
  | .cancelupdate b => Sys2Proof.Machine.execCancelupdate b s
  | .unsupportedPldmCommand b ty cmd => Sys2Proof.Machine.execUnsupportedPldmCommand b ty cmd s
  | .stateSensorChange sensor => Sys2Proof.Machine.execStateSensorChange sensor s
  | .eventMergeExpiry sensor => Sys2Proof.Machine.execEventMergeExpiry sensor s
  -- JTAG (R543 to R545)
  | .extest => Sys2Proof.Machine.execExtest s
  | .samplePreload cells => Sys2Proof.Machine.execSamplePreload cells s
  | .idcode => Sys2Proof.Machine.execIdcode s
  | .highz => Sys2Proof.Machine.execHighz s
  | .clamp => Sys2Proof.Machine.execClamp s
  | .bypass ir => Sys2Proof.Machine.execBypass ir s
  | .trstN => Sys2Proof.Machine.execTrstN s
  -- clocks, supplies, resets, power (R547 to R596)
  | .tsLoRead r => Sys2Proof.Machine.execTsLoRead r s
  | .refclkLoss => Sys2Proof.Machine.execRefclkLoss s
  | .pllLoss p => Sys2Proof.Machine.execPllLoss p s
  | .vddCoreWarning => Sys2Proof.Machine.execVddCoreWarning s
  | .stretchEnd => Sys2Proof.Machine.execStretchEnd s
  | .supplyWarning x => Sys2Proof.Machine.execSupplyWarning x s
  | .supplyReset x => Sys2Proof.Machine.execSupplyReset x s
  | .powerOnReset => Sys2Proof.Machine.execPowerOnReset s
  | .coldReset p => Sys2Proof.Machine.execColdReset p s
  | .coldResetRelease env => Sys2Proof.Machine.execColdResetRelease env s
  | .warm w env => Sys2Proof.Machine.execWarm w env s
  | .thermalTrip x => Sys2Proof.Machine.execThermalTrip x s
  | .rateUpdate env => Sys2Proof.Machine.execRateUpdate env s
  | .active w => Sys2Proof.Machine.execActive w s
  | .idle w => Sys2Proof.Machine.execIdle w s
  | .retain w => Sys2Proof.Machine.execRetain w s
  | .idleEntryEnd => Sys2Proof.Machine.execIdleEntryEnd s
  | .retainEntryEnd => Sys2Proof.Machine.execRetainEntryEnd s
  | .retainExitEnd env => Sys2Proof.Machine.execRetainExitEnd env s
  | .roomPwrWrite f w => Sys2Proof.Machine.execRoomPwrWrite f w s
  | .roomGateEnd r => Sys2Proof.Machine.execRoomGateEnd r s
  | .roomUngateEnd r => Sys2Proof.Machine.execRoomUngateEnd r s
  | .pcieLinkUp => Sys2Proof.Machine.execPcieLinkUp s
  | .bar4Access f addr wdata n => Sys2Proof.Machine.execBar4Access f addr wdata n s
  | .createEnd => Sys2Proof.Machine.execCreateEnd s
  | .idleExitEnd => Sys2Proof.Machine.execIdleExitEnd s
  | .wallHandshakeRetry => Sys2Proof.Machine.execWallHandshakeRetry s
  | .vfEnable en numVfs => Sys2Proof.Machine.execVfEnable en numVfs s

end Sys2Proof.Machine
end

