-- ==== Sys2Proof/Machine/Timers.lean ====
section
/-! DEFINITION. What time alone does: one clock of the always-on timestamp counter (R551), and the host accesses that
waited for the mirror queue (R494). -/

namespace Sys2Proof.Machine

/-- One timestamp clock: the counter counts modulo 2^64 unless a reset holds it, and waiting host accesses go on (R494,
R551, R577; assumption log 2). -/
def State.tick (s : State) : State := if s.pwr.hold = .up then ({ s with ts := s.ts + 1 }).serveBar else s

end Sys2Proof.Machine
end

