-- ==== Sys2Proof/Safety.lean ====
section
/-! DEFINITION. What counts as a safe run, in the terms the statements use: the memories of the block keep their canonical
form, and a step never stops on a command that a bus, link or pin can carry. -/

namespace Sys2Proof.Machine

/-- Device memory and the boot flash are in canonical form, so that equal contents are equal data. -/
def State.memCanon (s : State) : Prop := Mem.wf s.ms.mem = true ∧ Mem.wf s.boot.flash = true

/-- Every command that waits is one that a bus, link or pin can carry. -/
def State.queueCarried (s : State) : Prop := ∀ c ∈ s.pending, c.wellFormed = true

/-- A safe state: canonical memories and a queue of commands that can be carried out. -/
def State.Safe (s : State) : Prop := s.memCanon ∧ s.queueCarried

/-- What every part of a command leaves true of the machine as a whole: the queue is not touched, memories in canonical form
stay so, free values are drawn and never returned, and what the device has sent stays sent. -/
structure State.Keeps (s t : State) : Prop where
  queue : t.pending = s.pending
  canon : s.memCanon → t.memCanon
  drawn : s.freeCtr ≤ t.freeCtr
  sent  : s.outbox <+: t.outbox

/-- The registers of `t` differ from those of `s` at most in the bits of the listed fields: every other field of every
register, and every reserved bit, is as it was. -/
def State.RegsOnly (s t : State) (fs : List Fld) : Prop :=
  ∀ off i, (∀ f ∈ fs, ¬(f.off = off ∧ f.lsb ≤ i ∧ i < f.lsb + f.width)) →
    (t.reg off).getLsbD i = (s.reg off).getLsbD i

/-- The bus write that a command is, if it is one. -/
def busWrOf : Instr → Option BusWr
  | .registerWrite _ (.write w) => some w
  | .lockKeyWrite w => some w
  | .mailboxSelWrite w => some w
  | .remapWrite _ w => some w
  | .fenceRequestWrite _ w => some w
  | .sealCommit w => some w
  | .keystoneSet w => some w
  | .dbTailWrite _ w => some w
  | .latchValWrite w => some w
  | .fwGo _ w => some w
  | .brkModeWrite _ w => some w
  | .brkResume _ w => some w
  | .swapReq _ w => some w
  | .routineStoreWindowWrite _ _ w => some w
  | .swap _ w => some w
  | .xfResume w => some w
  | .invGo w => some w
  | .preempt _ w => some w
  | .arbClassWrite _ w _ => some w
  | .cntClr _ w => some w.wr
  | .memCtrlEn w => some w
  | .hbmPcRemapWrite _ w => some w
  | .retrain _ w => some w
  | .portEnable _ w => some w
  | .join w => some w
  | .rtInv w => some w
  | .flush w => some w
  | .close w => some w
  | .resync w => some w
  | .takeover w => some w
  | .create w => some w
  | .destroy w => some w
  | .vfAptWrite _ _ w => some w
  | .flueConfigWrite _ w => some w
  | .warm w _ => some w
  | .active w => some w
  | .idle w => some w
  | .retain w => some w
  | .roomPwrWrite _ w => some w
  | _ => none

/-- A bus write that is carried out at register `off`: the package runs, all four byte enables are set (R81), it is not a
host write to the keystone range or to a firmware port (R135, R333), and the window is not dead (R563). -/
def State.Reached (s : State) (w : BusWr) (off : Nat) : Prop :=
  s.running = true ∧ w.be = 0xF#4 ∧ s.reaches w.req off = true

/-- Room `r` with its pair at the registers `c` and the data memory `m` after one more committed instruction: a running checker
has still to follow it (R365, R366). -/
def State.committed (s : State) (r : Nat) (c : CoreSt) (m : FMap Byte) : RoomSt :=
  let x := { s.room r with core := c, dmem := m }
  if s.hasChecker r then { x with held := x.held ++ [none], delay := x.delay ++ [(c, m)] } else x

/-- The pair of room `r` executes its next instruction, and the room's result is not undefined (R353, R379). -/
def State.Executes (s : State) (r : Nat) : Prop := s.coreRuns r = true ∧ (s.room r).undef = false

/-- An instruction of room `r` commits with the registers `c`, and nothing else in the machine is another. -/
def State.CommitsTo (s t : State) (r : Nat) (c : CoreSt) : Prop :=
  t.room r = s.committed r c (s.room r).dmem ∧ (∀ q, q ≠ r → t.room q = s.room q) ∧ t = { s with rooms := t.rooms }

/-- What a cold reset or a stop of the package leaves (R430, R550, R577): contexts, rooms, engines, latches, mortar stages and
links at their reset state and HBM empty; the boot flash, and memory outside the package, as they were. -/
def State.ColdFrom (s t : State) : Prop :=
  t.ctxs = State.reset.ctxs ∧ t.rooms = State.reset.rooms ∧ t.engs = State.reset.engs ∧ t.latches = State.reset.latches ∧
  t.mo = State.reset.mo ∧ t.link = State.reset.link ∧ t.hs = State.reset.hs ∧ t.mg = State.reset.mg ∧
  t.ts = State.reset.ts ∧ t.boot = { State.reset.boot with flash := s.boot.flash } ∧
  (∀ a, a < hbmEnd → Mem.byte t.ms.mem a = 0) ∧ ∀ a, hbmEnd ≤ a → Mem.byte t.ms.mem a = Mem.byte s.ms.mem a

/-- The bus over which a management command arrives, if it is one (R537). -/
def mgBusOf : Instr → Option MBus
  | .setEndpointId b _ _ => some b
  | .getEndpointId b => some b
  | .getEndpointUuid b => some b
  | .getMctpVersionSupport b _ => some b
  | .getMessageTypeSupport b => some b
  | .unsupportedMctpMessage b _ _ => some b
  | .settid b _ => some b
  | .gettid b => some b
  | .getpldmversion b _ => some b
  | .getpldmtypes b => some b
  | .getpldmcommands b _ => some b
  | .seteventreceiver b _ _ => some b
  | .getsensorreading b _ _ => some b
  | .getstatesensorreadings b _ => some b
  | .setnumericsensorenable b _ _ => some b
  | .getpdrrepositoryinfo b => some b
  | .getpdr b _ => some b
  | .querydeviceidentifiers b => some b
  | .getfirmwareparameters b => some b
  | .requestupdate b _ => some b
  | .passcomponenttable b _ => some b
  | .updatecomponent b _ _ _ => some b
  | .transfercomplete b _ => some b
  | .verifycomplete b _ => some b
  | .applycomplete b _ => some b
  | .activatefirmware b _ => some b
  | .getstatus b => some b
  | .cancelupdatecomponent b => some b
  | .cancelupdate b => some b
  | .unsupportedPldmCommand b _ _ => some b
  | _ => none

/-- The part of the machine that controls it: timestamp, identity mailbox, seal, arbiters, power and reset, boot,
management endpoint and test access port are the same. -/
def State.SameControl (s t : State) : Prop :=
  t.ts = s.ts ∧ t.mboxBusy = s.mboxBusy ∧ t.sealer = s.sealer ∧ t.arbs = s.arbs ∧ t.pwr = s.pwr ∧ t.boot = s.boot ∧
  t.mg = s.mg ∧ t.jtag = s.jtag

/-- A command that may change what controls the machine: those of the mailbox, the arbiters, the seal, failures that stop the
package, resets, power states, management and test. -/
def controlCmd : Instr → Bool
  | .mailboxSelWrite _ => true
  | .mailboxFetchDone _ => true
  | .arbRequest _ _ _ _ => true
  | .arbDecision _ _ _ => true
  | .arbStarve _ _ _ => true
  | .arbClassWrite _ _ _ => true
  | .cntClr _ _ => true
  | .unitFailureDetected _ => true
  | .sealSweepSnapshot => true
  | .sealSweepEnd => true
  | .sealHoldExpiry => true
  | .sealCommit _ => true
  | .sealCommitEnd => true
  | .setEndpointId _ _ _ => true
  | .settid _ _ => true
  | .seteventreceiver _ _ _ => true
  | .setnumericsensorenable _ _ _ => true
  | .stateSensorChange _ => true
  | .eventMergeExpiry _ => true
  | .requestupdate _ _ => true
  | .passcomponenttable _ _ => true
  | .updatecomponent _ _ _ _ => true
  | .transfercomplete _ _ => true
  | .verifycomplete _ _ => true
  | .applycomplete _ _ => true
  | .activatefirmware _ _ => true
  | .cancelupdatecomponent _ => true
  | .cancelupdate _ => true
  | .extest => true
  | .samplePreload _ => true
  | .idcode => true
  | .highz => true
  | .clamp => true
  | .bypass _ => true
  | .trstN => true
  | .refclkLoss => true
  | .pllLoss _ => true
  | .thermalTrip _ => true
  | .supplyReset _ => true
  | .powerOnReset => true
  | .coldReset _ => true
  | .coldResetRelease _ => true
  | .warm _ _ => true
  | .active _ => true
  | .idle _ => true
  | .retain _ => true
  | .idleEntryEnd => true
  | .idleExitEnd => true
  | .drainTimeout => true
  | .retainEntryEnd => true
  | .retainExitEnd _ => true
  | _ => false

end Sys2Proof.Machine
end

