-- ==== Sys2Proof/Certificates/Slice0/Obligations.lean ====
section
/-! DEFINITION. The statements about the block, for the provers. Each statement of an instruction says for which states and
operands `exec` answers a next state, what the rules say that state holds, and what stays as it was. A docstring names the log
entries of the choices of the model that its statement rests on. -/

open Sys2Proof Sys2Proof.Machine

/-! ### The machine as a whole -/

/-- One step takes the command at the front of the queue and is its effect on the state with the queue's rest. -/
def Obligations.StepRunsFrontCommand : Prop :=
  ∀ (c : Instr) (rest : List Instr) (s : State), s.pending = c :: rest →
    step s = exec c { s with pending := rest }

/-- With nothing waiting a step is one clock of the timestamp counter, which counts modulo 2^64 unless a reset holds it
(R551); that an idle step is such a clock is the model's choice (log 2). No command starts: rooms, engines, registers and
links stay. -/
def Obligations.IdleStepCountsTimestamp : Prop :=
  ∀ s : State, s.pending = [] → ∃ t, step s = .next t ∧
    (s.running = true → t.ts = s.ts + 1) ∧ (s.running = false → t = s) ∧ t.pending = [] ∧
    t.rooms = s.rooms ∧ t.engs = s.engs ∧ t.ctxs = s.ctxs ∧ t.arbs = s.arbs ∧ t.pwr = s.pwr ∧
    (s.hs.barWait = [] → s.running = true → t = { s with ts := s.ts + 1 })

/-- The queue is only ever shortened at its front; device memory and the boot flash keep their canonical form; what the
device has sent stays sent; free values are never drawn twice: for every state, whether or not a run reaches it. -/
def Obligations.EveryStepKeepsTheMachineWhole : Prop :=
  ∀ (c : Instr) (rest : List Instr) (s t : State), s.pending = c :: rest → step s = .next t →
    t.pending = rest ∧ (s.memCanon → t.memCanon) ∧ s.freeCtr ≤ t.freeCtr ∧ s.outbox <+: t.outbox

/-- From a safe state every step goes on, to a safe state; and every command goes on in every state, whatever its operands: none
ends in a fault or a refusal. An operand that no bus, link or pin can carry is taken as what one can carry of it, which is the
model's choice (log 62). -/
def Obligations.SafeStatesStepToSafeStates : Prop :=
  (∀ s : State, s.Safe → ∃ t, step s = .next t ∧ t.Safe) ∧
  (∀ (c : Instr) (s : State), ∃ t, exec c s = .next t ∧ t.pending = s.pending)

/-- R351, R352: the fields of a coprocessor instruction keep their places in its word: the word of any fields spells the
instruction that SUB names, a reserved SUB one that is not its own and faults, and each word of MAJOR is that of its fields. -/
def Obligations.CoprocessorWordsDecodeToTheirInstruction : Prop :=
  (∀ (r : Pipe) (f : CpWord), decodeCp r (encodeCp f) = some (match f.sub.toNat with
    | 1 => .tload r f
    | 2 => .tpref r f
    | 3 => .tstore r f
    | 4 => .eissue r f
    | 5 => .ewait r f
    | 6 => .lsig r f
    | 7 => .lwait r f
    | 8 => .lread r f
    | _ => .esel r f)) ∧
  (∀ (r : Pipe) (w : W32), w.toNat / 2 ^ 27 ≠ 0b11101 → decodeCp r w = none) ∧
  (∀ w : W32, w.toNat / 2 ^ 27 = 0b11101 → encodeCp (cpFields w) = w) ∧
  (∀ f g : CpWord, encodeCp f = encodeCp g → f = g)

/-- Reset leaves the package held in cold reset (R577) with nothing waiting, every register at the reset value of its row,
the timestamp counter at zero, and is a safe state. -/
def Obligations.ResetIsHeldAndSafe : Prop :=
  State.reset.Safe ∧ State.reset.pwr.hold = .cold ∧ State.reset.pending = [] ∧ State.reset.ts = 0 ∧
    ∀ off, State.reset.reg off = RegMap.resetOf off

/-! ### Registers, lock and mailbox -/

/-- R81: a write whose four byte enables are not all set is ignored and reported, whichever command it would be. -/
def Obligations.PartialWritesAreIgnoredAndReported : Prop :=
  ∀ (c : Instr) (w : BusWr) (s : State), busWrOf c = some w → s.running = true → w.be ≠ 0xF#4 →
    exec c s = .next (s.fset F.ACCESS_ERR.PARTIAL 1)

/-- R85, R86, R88, R14, R80, R82, R15, R109, R147, R148: what a write of a register does to each field by its access type, in the
requester's copy where the register has one for each requester (R118); fields whose write has a row of its own keep their value
here. A read sends the selected bytes and changes nothing else, zero at a reserved offset. A 64-bit access is two, the lower
address first. Of two writes of one cycle to a posted field the management core's is accepted. The words of a doorbell page show
its queue. -/
def Obligations.RegisterWriteFollowsFieldTypes : Prop :=
  (∀ (off : Nat) (w : BusWr) (s : State) (r : RegDef), off < 0x10000000 → off % 4 = 0 → RegMap.find off = some r →
    off ≠ Off.LOCK_STATUS → s.invHeld off = false → s.Reached w off →
    ∃ t, exec (.registerWrite (.bar0 off) (.write w)) s = .next t ∧
      (∀ f ∈ r.fields,
        let fl : Fld := { off := regKey w.req off, lsb := f.lsb, width := f.width }
        let x := bitsAt w.val.toNat f.lsb f.width
        (f.own = true ∨ f.ty = .ro ∨ f.ty = .mb ∨ f.ty = .b ∨ f.ty = .p → t.fget fl = s.fget fl) ∧
        (f.own = false → f.ty = .rw → t.fget fl = if f.isRsv x then s.fget fl else x) ∧
        (f.own = false → f.ty = .w1c → t.fget fl = s.fget fl &&& (2 ^ f.width - 1 - x)) ∧
        (f.own = false → f.ty = .k → s.holdsKey w.req = false → t.fget fl = s.fget fl) ∧
        (f.own = false → f.ty = .k → s.holdsKey w.req = true → s.kFrozen (regKey w.req off) x = false →
          f.isRsv x = false → t.fget fl = x)) ∧
      t = { s with regs := t.regs, staged := t.staged, pwrites := t.pwrites, outbox := t.outbox } ∧
      (∀ k, k ≠ regKey w.req off → k ≠ Off.LOCK_STATUS → k ≠ Off.DOMAIN_BUSY → k ≠ Off.DOMAIN_DROP →
        k < Off.MSIX_PBA 0 ∨ Off.MSIX_PBA 63 < k → t.reg k = s.reg k)) ∧
  (∀ (off : Nat) (q : Req) (be : BitVec 4) (s : State), off < 0x10000000 → off % 4 = 0 → s.running = true →
    off ≠ Off.TS_LO → s.lastWord q off = false →
    ∃ v, exec (.registerWrite (.bar0 off) (.read q be)) s = .next { s with outbox := s.outbox ++ [.readData q v] } ∧
      (∀ i, i < 4 → be.getLsbD i = true → bitsAt v.toNat (8 * i) 8 = bitsAt (s.regRead q off).toNat (8 * i) 8) ∧
      (∀ i, i < 4 → be.getLsbD i = false → bitsAt v.toNat (8 * i) 8 = 0) ∧
      (RegMap.find off = none → off < 0x80000 → v = 0)) ∧
  (∀ (g : RegTarget) (q : Req) (be : BitVec 8) (val : W64) (s s1 : State),
    let lo : BusWr := { req := q, be := be.setWidth 4, val := val.setWidth 32 }
    let hi : BusWr := { req := q, be := (be >>> 4).setWidth 4, val := (val >>> 32).setWidth 32 }
    (exec (.registerWrite g (.write lo)) s = .next s1 →
      exec (.registerWrite g (.write64 q be val)) s = exec (.registerWrite (wordUp g) (.write hi)) s1) ∧
    (exec (.registerWrite g (.read q (be.setWidth 4))) s = .next s1 →
      exec (.registerWrite g (.read64 q be)) s = exec (.registerWrite (wordUp g) (.read q ((be >>> 4).setWidth 4))) s1)) ∧
  (∀ (host mgmt : W32) (s : State), s.running = true → s.flag (Fld.domBusy .aon) = false →
    ∃ t, exec (.registerWrite (.bar0 Off.RST_CAUSE_CLR) (.both host mgmt)) s = .next t ∧
      t.pwrites = s.pwrites ++ [{ dom := .aon, off := Off.RST_CAUSE_CLR, val := mgmt.toNat % 128 }] ∧
      t.flag (Fld.domBusy .aon) = true ∧ t.flag (Fld.domDrop .aon) = true ∧
      t = { s with regs := t.regs, pwrites := t.pwrites } ∧ s.RegsOnly t [Fld.domBusy .aon, Fld.domDrop .aon]) ∧
  (∀ (p : DbPage) (q : Req) (s : State), s.running = true →
    let reads := fun (off n : Nat) => exec (.registerWrite (.page p off) (.read q 0xF#4)) s =
      .next { s with outbox := s.outbox ++ [.pageRead p (n &&& 0xFFFFFFFF)] }
    (∀ c, s.pageCtx p = some c → reads 0x0 (s.ctx c).tail ∧ reads 0x4 (s.ctx c).head ∧
      reads 0xC (b2n (s.ctx c).live + b2n (s.ctx c).compat * 2 + b2n (s.ctx c).faulted * 4)) ∧
    (s.pageCtx p = none → ∀ off, off < 0x1000 → off % 4 = 0 → reads off 0) ∧
    (∀ off, 0x10 ≤ off → off < 0x1000 → off % 4 = 0 → reads off 0)) ∧
  (∀ (v : Fin 256) (q : Req) (be : BitVec 4) (off : Nat) (s : State), s.running = true → 0x9004 ≤ off → off < 0x10000 →
    off % 4 = 0 → exec (.registerWrite (.vfBar2 v off) (.read q be)) s = .next { s with outbox := s.outbox ++ [.vfRead v 0] })

/-- R91, R96: the key opens the lock for its writer, whether or not it was open, any other value closes it and is noted. -/
def Obligations.LockKeyOpensOrClosesTheLock : Prop :=
  ∀ (w : BusWr) (s : State), s.running = true → w.be = 0xF#4 →
    ∃ t, exec (.lockKeyWrite w) s = .next t ∧
      (w.val.toNat % 0x10000 = 0xA53D → t.flag F.LOCK_STATUS.OPEN = true ∧
        t.fget F.LOCK_STATUS.OPENER = reqCode w.req ∧ t.fget F.LOCK_STATUS.BAD_KEY_SEEN = s.fget F.LOCK_STATUS.BAD_KEY_SEEN) ∧
      (w.val.toNat % 0x10000 ≠ 0xA53D → t.flag F.LOCK_STATUS.OPEN = false ∧
        t.flag F.LOCK_STATUS.BAD_KEY_SEEN = true) ∧
      t = { s with regs := t.regs } ∧
      s.RegsOnly t [F.LOCK_STATUS.OPEN, F.LOCK_STATUS.OPENER, F.LOCK_STATUS.BAD_KEY_SEEN]

/-- R92 to R94: a write of a register with a K field uses the opener's key up, and counts as a miss without it. -/
def Obligations.WritesOfKeyedRegistersUseTheLock : Prop :=
  ∀ (off : Nat) (w : BusWr) (s : State) (r : RegDef), off < 0x10000000 → off % 4 = 0 → RegMap.find off = some r →
    r.hasK = true → s.invHeld off = false → s.Reached w off →
    ∃ t, exec (.registerWrite (.bar0 off) (.write w)) s = .next t ∧
      (s.holdsKey w.req = true → t.flag F.LOCK_STATUS.OPEN = false ∧
        t.fget F.LOCK_STATUS.MISS_SEEN = s.fget F.LOCK_STATUS.MISS_SEEN ∧
        t.fget F.LOCK_STATUS.KEY_MISS = s.fget F.LOCK_STATUS.KEY_MISS) ∧
      (s.holdsKey w.req = false → t.fget F.LOCK_STATUS.OPEN = s.fget F.LOCK_STATUS.OPEN ∧
        t.flag F.LOCK_STATUS.MISS_SEEN = true ∧
        t.fget F.LOCK_STATUS.KEY_MISS = satAdd 255 (s.fget F.LOCK_STATUS.KEY_MISS) 1)

/-- R100, R106, R457, R570: at a tick the staged PWR_CAP becomes the applied one, and the staged CP_EN of every port that is not
Live; at a frame of a Live port its own; no register waits for the command boundary. At its domain a posted write acts and the
domain is no longer busy. -/
def Obligations.StagedAndPostedWritesTakeEffect : Prop :=
  (∀ s : State, ∃ t, exec (.bStagedApply .tick) s = .next t ∧
    (∀ x, s.staged.get (fun _ => none) Off.PWR_CAP = some x → t.fget F.PWR_CAP.CAP = x % 2 ^ 11 ∧
      t.staged.get (fun _ => none) Off.PWR_CAP = none) ∧
    (∀ q : PortIx, s.isLive q.val = true → t.fget (F.PORT_CTRL.CP_EN q.val) = s.fget (F.PORT_CTRL.CP_EN q.val) ∧
      t.staged.get (fun _ => none) (Off.PORT_CTRL q.val) = s.staged.get (fun _ => none) (Off.PORT_CTRL q.val)) ∧
    (∀ (q : PortIx) (x : Nat), s.isLive q.val = false → s.staged.get (fun _ => none) (Off.PORT_CTRL q.val) = some x →
      t.fget (F.PORT_CTRL.CP_EN q.val) = x % 2 ∧ t.staged.get (fun _ => none) (Off.PORT_CTRL q.val) = none) ∧
    t = { s with regs := t.regs, staged := t.staged } ∧
    s.RegsOnly t (F.PWR_CAP.CAP :: (List.range 5).map fun q => F.PORT_CTRL.CP_EN q)) ∧
  (∀ (q : PortIx) (s : State) (x : Nat), s.isLive q.val = true → s.staged.get (fun _ => none) (Off.PORT_CTRL q.val) = some x →
    ∃ t, exec (.bStagedApply (.frame q)) s = .next t ∧ t.fget (F.PORT_CTRL.CP_EN q.val) = x % 2 ∧
      t.staged.get (fun _ => none) (Off.PORT_CTRL q.val) = none ∧
      t = { s with regs := t.regs, staged := t.staged } ∧ s.RegsOnly t [F.PORT_CTRL.CP_EN q.val]) ∧
  (∀ s : State, exec (.bStagedApply .command) s = .next s) ∧
  (∀ (d : Domain) (s : State) (p : PWrite), s.pwrites.find? (·.dom == d) = some p → p.off = Off.RST_CAUSE_CLR →
    ∃ t, exec (.pWriteTakesEffect d) s = .next t ∧ t.fget (Fld.domBusy d) = 0 ∧
      t.reg Off.RST_CAUSE = s.reg Off.RST_CAUSE &&& ~~~(BitVec.ofNat 32 (p.val % 128)) ∧
      (∀ q ∈ t.pwrites, q.dom ≠ d) ∧ t = { s with regs := t.regs, pwrites := t.pwrites } ∧
      (∀ k, k ≠ Off.RST_CAUSE → k ≠ Off.DOMAIN_BUSY → t.reg k = s.reg k))

/-- R114 to R118: a selector starts a fetch or is refused, the fetch makes the words readable, the read of the last word
returns it and ends the item; the other requester's mailbox is not touched. Between the selector write and VALID, WORDS keeps the
earlier item's count, which is the model's choice (log 102). -/
def Obligations.MailboxSelectsFetchesAndReads : Prop :=
  (∀ (w : BusWr) (s : State), s.running = true → w.be = 0xF#4 →
    ∃ t, exec (.mailboxSelWrite w) s = .next t ∧ t.fget (F.ID_STATUS.VALID.forReq w.req) = 0 ∧
      ((s.idItem (w.val.toNat % 256)).isSome = true →
        t.fget (F.ID_SEL.SEL.forReq w.req) = w.val.toNat % 256 ∧ t.fget (F.ID_STATUS.SEL_ERR.forReq w.req) = 0 ∧
        t.mboxBusy.get (fun _ => false) (reqCode w.req) = true) ∧
      (s.idItem (w.val.toNat % 256) = none →
        t.fget (F.ID_SEL.SEL.forReq w.req) = s.fget (F.ID_SEL.SEL.forReq w.req) ∧
        t.fget (F.ID_STATUS.SEL_ERR.forReq w.req) = 1 ∧ t.mboxBusy.get (fun _ => false) (reqCode w.req) = false) ∧
      t = { s with regs := t.regs, mboxBusy := t.mboxBusy } ∧
      s.RegsOnly t [F.ID_STATUS.VALID.forReq w.req, F.ID_STATUS.SEL_ERR.forReq w.req, F.ID_SEL.SEL.forReq w.req]) ∧
  (∀ (r : Req) (s : State) (l : List W32), s.mboxBusy.get (fun _ => false) (reqCode r) = true →
    s.idItem (s.fget (F.ID_SEL.SEL.forReq r)) = some l →
    ∃ t, exec (.mailboxFetchDone r) s = .next t ∧ t.fget (F.ID_STATUS.VALID.forReq r) = 1 ∧
      t.fget (F.ID_STATUS.WORDS.forReq r) = l.length % 16 ∧
      (∀ i, i < 8 → t.reg (Off.ID_DATA i + reqBank r) = l.getD i 0) ∧
      t.mboxBusy.get (fun _ => false) (reqCode r) = false ∧ t = { s with regs := t.regs, mboxBusy := t.mboxBusy } ∧
      (∀ k, k ≠ Off.ID_STATUS + reqBank r → (∀ i, i < 8 → k ≠ Off.ID_DATA i + reqBank r) → t.reg k = s.reg k)) ∧
  (∀ (r : Req) (s : State), s.running = true →
    (s.flag (F.ID_STATUS.VALID.forReq r) = true →
      ∃ t, exec (.mailboxLastWordRead r) s = .next t ∧
        t.outbox = s.outbox ++
          [.readData r (s.reg (Off.ID_DATA (s.fget (F.ID_STATUS.WORDS.forReq r) - 1) + reqBank r))] ∧
        t.fget (F.ID_STATUS.VALID.forReq r) = 0 ∧ t = { s with regs := t.regs, outbox := t.outbox } ∧
        s.RegsOnly t [F.ID_STATUS.VALID.forReq r]) ∧
    (s.flag (F.ID_STATUS.VALID.forReq r) = false →
      exec (.mailboxLastWordRead r) s = .next { s with outbox := s.outbox ++ [.readData r 0] }))

/-! ### Remaps, fences, failures -/

/-- R70, R71: a keyed remap write is accepted exactly when no physical index stands twice and every changed position moves
from a fenced unit to the spare; then the logical positions name the new units at once, else REMAP_REFUSED sets. -/
def Obligations.RemapMovesFencedPositionsToTheSpare : Prop :=
  ∀ (r : RemapReg) (w : BusWr) (s : State), s.Reached w (remapOff r) → s.holdsKey w.req = true →
    ∃ t, exec (.remapWrite r w) s = .next t ∧
      (s.remapOk (remapOff r) (s.remapWish (remapOff r) w.val.toNat) = true →
        (∀ i, i < 4 → t.mapped (remapOff r) i = (s.remapWish (remapOff r) w.val.toNat).getD i 0) ∧
        t.fget (Fld.remapRefused (remapOff r)) = 0) ∧
      (s.remapOk (remapOff r) (s.remapWish (remapOff r) w.val.toNat) = false →
        (∀ i, i < 4 → t.mapped (remapOff r) i = s.mapped (remapOff r) i) ∧ t.fget (Fld.remapRefused (remapOff r)) = 1) ∧
      t.fencedBits (remapOff r) = s.fencedBits (remapOff r) ∧ t.flag F.LOCK_STATUS.OPEN = false ∧
      t = { s with regs := t.regs } ∧
      s.RegsOnly t [F.LOCK_STATUS.OPEN, { off := remapOff r, lsb := 0, width := 12 }, Fld.remapRefused (remapOff r)]

/-- R67, R72, R73: a keyed fence request sets the request bits; a zero lifts the fence that a request had set and never one
that the device detected; the drain of a quiet engine ends in its FENCED bit. -/
def Obligations.FencesAreRequestedDrainedAndLifted : Prop :=
  (∀ (r : RemapReg) (w : BusWr) (s : State), s.Reached w (fenceOff r) → s.holdsKey w.req = true →
    ∃ t, exec (.fenceRequestWrite r w) s = .next t ∧
      t.fget { off := fenceOff r, lsb := 0, width := 5 } = w.val.toNat % 32 ∧
      t.fget { off := fenceOff r, lsb := 8, width := 5 } = s.fget { off := fenceOff r, lsb := 8, width := 5 } ∧
      t.fget { off := remapOff r, lsb := 16, width := 5 } =
        ((s.fget { off := remapOff r, lsb := 16, width := 5 } &&& (w.val.toNat % 32)) |||
          s.fget { off := fenceOff r, lsb := 8, width := 5 }) ∧
      t.flag F.LOCK_STATUS.OPEN = false ∧ t = { s with regs := t.regs } ∧
      s.RegsOnly t [F.LOCK_STATUS.OPEN, { off := fenceOff r, lsb := 0, width := 5 },
        { off := remapOff r, lsb := 16, width := 5 }]) ∧
  (∀ (e : EngIx) (s : State), s.engFenceReq e.val = true → s.engFenced e.val = false → s.engQuiet e.val = true →
    ∃ t, exec (.fenceDrainEnd (.engine e)) s = .next t ∧ t.engFenced e.val = true ∧ t = { s with regs := t.regs } ∧
      s.RegsOnly t [F.ENGINE_REMAP.FENCED (engRoom e.val)]) ∧
  (∀ (r : RoomIx) (s : State), s.roomFenceReq r.val = true → s.roomFenced r.val = false → s.roomQuiet r.val = true →
    ∃ t, exec (.fenceDrainEnd (.room r)) s = .next t ∧
      t = (s.setRoomFenced r.val false).evictRoom r.val causeUnitFence)

/-- R62, R73, R388: a detected failure sets FENCED and HW_FENCE of the unit at once, ends what is resident in it with cause
UNIT_FENCE and raises the package fault event; an SRAM site fences the unit it lies in, and a modified cache line is written
back poisoned, a clean one is fetched again. A failure of the package stops it as on loss of its clock; that RST_CAUSE.CLOCK then
names it is the model's choice (log 103). -/
def Obligations.DetectedFailuresFenceTheirUnit : Prop :=
  (∀ (e : EngIx) (s : State), s.running = true →
    exec (.unitFailureDetected (.engine e)) s =
      .next (((s.setEngFenced e.val true).evictEngine e.val causeUnitFence).pkgEvent evPkgFault) ∧
    (s.setEngFenced e.val true).engFenced e.val = true ∧
    s.RegsOnly (s.setEngFenced e.val true) [F.ENGINE_REMAP.FENCED (engRoom e.val), F.ENGINE_FENCE.HW_FENCE (engRoom e.val)]) ∧
  (∀ (r : RoomIx) (s : State), s.running = true →
    exec (.unitFailureDetected (.room r)) s =
      .next (((s.setRoomFenced r.val true).evictRoom r.val causeUnitFence).pkgEvent evPkgFault) ∧
    (s.setRoomFenced r.val true).roomFenced r.val = true ∧
    s.RegsOnly (s.setRoomFenced r.val true) [F.FLOOR_REMAP.FENCED (roomFloor r.val), F.ROOM_FENCE.HW_FENCE (roomFloor r.val)]) ∧
  (∀ s : State, s.running = true → ∃ t, exec (.unitFailureDetected .package) s = .next t ∧ t.running = false ∧
    t.flag F.RST_CAUSE.CLOCK = true) ∧
  (∀ (e : EngIx) (s : State), s.running = true →
    exec (.sramUncorrectable (.engineBuffer e)) s = exec (.unitFailureDetected (.engine e)) s ∧
    exec (.sramUncorrectable (.accumulator e)) s = exec (.unitFailureDetected (.engine e)) s ∧
    exec (.sramUncorrectable (.exactSave e)) s = exec (.unitFailureDetected (.engine e)) s) ∧
  (∀ (r : RoomIx) (s : State), s.running = true →
    exec (.sramUncorrectable (.roomStore r)) s = exec (.unitFailureDetected (.room r)) s ∧
    exec (.sramUncorrectable (.controlMemory r)) s = exec (.unitFailureDetected (.room r)) s ∧
    exec (.sramUncorrectable (.routineStore r)) s = exec (.unitFailureDetected (.room r)) s) ∧
  (∀ (d : DieIx) (s : State), s.running = true →
    ∃ t, exec (.unitFailureDetected (.die d)) s = .next t ∧
      (s.dieUp (1 - d.val) = true → t = s.fenceDieUnits d.val) ∧
      (s.dieUp (1 - d.val) = false → t.running = false)) ∧
  (∀ (f : FloorIx) (a : BitVec 48) (s : State), s.running = true → a.toNat % 64 = 0 →
    let kept := (s.ms.lines.get (fun _ => []) f.val).filter fun x => x.blk != s.foldAddr a.toNat / 4096
    (∃ t, exec (.sramUncorrectable (.floorCacheModified f a)) s = .next t ∧
      t.ms.poison.get (fun _ => false) (s.foldAddr a.toNat / 64) = true ∧
      (∀ b, b ≠ s.foldAddr a.toNat / 64 → t.ms.poison.get (fun _ => false) b = s.ms.poison.get (fun _ => false) b) ∧
      t.ms.lines.get (fun _ => []) f.val = kept ∧
      t = { s with ms := { s.ms with poison := t.ms.poison, lines := t.ms.lines } }) ∧
    (∃ t, exec (.sramUncorrectable (.floorCacheClean f a)) s = .next t ∧ t.ms.lines.get (fun _ => []) f.val = kept ∧
      (∀ g, g ≠ f.val → t.ms.lines.get (fun _ => []) g = s.ms.lines.get (fun _ => []) g) ∧
      t = { s with ms := { s.ms with lines := t.ms.lines } }))

/-! ### Seal and keystone -/

/-- R120 to R129, R135, R137, R138: a sweep's result goes to SEAL_CURRENT and counts, and is compared only while armed and not under
HOLD; a commit makes its snapshot the reference and ends HOLD, and one written after KEYSTONE_SET arms comparison; a keyed request
of the management core closes the keystone window exactly when every check passes; a host write there changes nothing. A commit
starts the count of sweeps under HOLD again, which is the model's choice (log 104), and so is that the wall goes STALE with the
window (log 26). -/
def Obligations.SealSweepsCommitsAndTheKeystoneWindow : Prop :=
  (∀ s : State, s.running = true → s.sealer.commit = none →
    exec .sealSweepSnapshot s = .next { s with sealer := { s.sealer with sweep := some s.sealCrc } }) ∧
  (∀ (s : State) (crc : W32), s.sealer.sweep = some crc →
    ∃ t, exec .sealSweepEnd s = .next t ∧ t.reg Off.SEAL_CURRENT = crc ∧ t.reg Off.SEAL_REF = s.reg Off.SEAL_REF ∧
      t.fget F.SEAL_STATUS.SEAL_COUNT = (s.fget F.SEAL_STATUS.SEAL_COUNT + 1) % 2 ^ 16 ∧ t.sealer.sweep = none ∧
      (s.flag F.SEAL_CTRL.ARMED = true → s.flag F.SEAL_CTRL.HOLD = false → crc ≠ s.reg Off.SEAL_REF →
        t.flag F.SEAL_STATUS.FAULT = true) ∧
      (s.flag F.SEAL_CTRL.ARMED = false ∨ s.flag F.SEAL_CTRL.HOLD = true ∨ crc = s.reg Off.SEAL_REF →
        t.fget F.SEAL_STATUS.FAULT = s.fget F.SEAL_STATUS.FAULT ∧ t.outbox = s.outbox) ∧
      t.rooms = s.rooms ∧ t.engs = s.engs ∧ t.ctxs = s.ctxs ∧ t.ms = s.ms) ∧
  (∀ s : State, s.flag F.SEAL_CTRL.HOLD = true → 200 ≤ s.sealer.holdCount →
    ∃ t, exec .sealHoldExpiry s = .next t ∧ t.flag F.SEAL_CTRL.HOLD = false ∧ t.flag F.SEAL_STATUS.HOLD_EXPIRED = true ∧
      t = { s with regs := t.regs, sealer := { s.sealer with holdCount := 0 } } ∧
      s.RegsOnly t [F.SEAL_CTRL.HOLD, F.SEAL_STATUS.HOLD_EXPIRED]) ∧
  (∀ (w : BusWr) (s : State), s.Reached w Off.SEAL_CTRL → s.holdsKey w.req = true → bitAt w.val.toNat 1 = true →
    ∃ t, exec (.sealCommit w) s = .next t ∧ t.flag F.SEAL_CTRL.COMMIT = true ∧ t.sealer.sweep = none ∧
      t.sealer.commit = some (t.sealCrc, s.flag F.KEYSTONE_CTRL.SET) ∧ t.flag F.LOCK_STATUS.OPEN = false ∧
      t = { s with regs := t.regs, sealer := t.sealer } ∧
      s.RegsOnly t [F.LOCK_STATUS.OPEN, F.SEAL_CTRL.COMMIT, F.SEAL_CTRL.HOLD, F.SEAL_CTRL.FAULT_ACTION]) ∧
  (∀ (s : State) (crc : W32) (arms : Bool), s.sealer.commit = some (crc, arms) →
    ∃ t, exec .sealCommitEnd s = .next t ∧ t.reg Off.SEAL_REF = crc ∧ t.reg Off.SEAL_CURRENT = crc ∧
      t.fget F.SEAL_STATUS.SEAL_COUNT = (s.fget F.SEAL_STATUS.SEAL_COUNT + 1) % 2 ^ 16 ∧
      t.fget F.SEAL_CTRL.HOLD = 0 ∧ t.fget F.SEAL_CTRL.COMMIT = 0 ∧ t.sealer.commit = none ∧
      (arms = true → t.flag F.SEAL_CTRL.ARMED = true) ∧
      (arms = false → t.fget F.SEAL_CTRL.ARMED = s.fget F.SEAL_CTRL.ARMED) ∧
      t = { s with regs := t.regs, sealer := t.sealer } ∧
      s.RegsOnly t [F.SEAL_REF.REF, F.SEAL_CURRENT.CURRENT, F.SEAL_STATUS.SEAL_COUNT, F.SEAL_CTRL.HOLD,
        F.SEAL_CTRL.COMMIT, F.SEAL_CTRL.ARMED]) ∧
  (∀ (w : BusWr) (s : State), w.req = .mgmt → s.running = true → w.be = 0xF#4 → s.holdsKey .mgmt = true →
    bitAt w.val.toNat 0 = true → s.flag F.KEYSTONE_CTRL.SET = false →
    ∃ t, exec (.keystoneSet w) s = .next t ∧ t.fget F.KEYSTONE_CTRL.ERR = s.keystoneCheck ∧
      (t.flag F.KEYSTONE_CTRL.SET = true ↔ s.keystoneCheck = 0) ∧ t.flag F.LOCK_STATUS.OPEN = false ∧
      t = { s with regs := t.regs } ∧
      s.RegsOnly t [F.LOCK_STATUS.OPEN, F.KEYSTONE_CTRL.SET, F.KEYSTONE_CTRL.ERR, F.PW_STATUS.STATE, F.PW_STATUS.CAUSE]) ∧
  (∀ (off : Nat) (w : BusWr) (s : State), inKeystone off = true → off % 4 = 0 → w.req = .host → w.be = 0xF#4 →
    exec (.registerWrite (.bar0 off) (.write w)) s = .next s ∧ exec (.keystoneSet w) s = .next s) ∧
  (∀ (off : Nat) (w : BusWr) (s : State), inKeystone off = true → off % 4 = 0 → s.flag F.KEYSTONE_CTRL.SET = true →
    ∃ t, exec (.registerWrite (.bar0 off) (.write w)) s = .next t ∧ ∀ k, inKeystone k = true → t.reg k = s.reg k)

/-! ### Queues -/

/-- R282, R285, R289, R148: a doorbell write moves DB_TAIL when the queue has room for the descriptors it announces, and else
faults the context as an overrun; the page of a context that is not LIVE ignores it; a read of DB_DEPTH returns the depth, held
with COMPAT and a full queue until the depth has fallen or 40 µs are over. -/
def Obligations.QueuePagesTakeTailsAndReportDepths : Prop :=
  (∀ (p : DbPage) (w : BusWr) (s : State) (c : Nat), s.running = true → w.be = 0xF#4 → s.pageCtx p = some c →
    (s.ctx c).stopped = false → w.val.toNat % 2 ^ 20 < (s.ctx c).qsize →
    (s.ctx c).depth + (w.val.toNat % 2 ^ 20 + (s.ctx c).qsize - (s.ctx c).tail) % (s.ctx c).qsize ≤ (s.ctx c).qsize - 1 →
    ∃ t, exec (.dbTailWrite p w) s = .next t ∧ t.ctx c = { s.ctx c with tail := w.val.toNat % 2 ^ 20 } ∧
      (∀ d, d ≠ c → t.ctx d = s.ctx d) ∧ t = { s with ctxs := t.ctxs }) ∧
  (∀ (p : DbPage) (w : BusWr) (s : State) (c : Nat), s.running = true → w.be = 0xF#4 → s.pageCtx p = some c →
    (s.ctx c).stopped = false → w.val.toNat % 2 ^ 20 < (s.ctx c).qsize →
    (s.ctx c).qsize - 1 < (s.ctx c).depth + (w.val.toNat % 2 ^ 20 + (s.ctx c).qsize - (s.ctx c).tail) % (s.ctx c).qsize →
    ∃ t, exec (.dbTailWrite p w) s = .next t ∧ (t.ctx c).faulted = true ∧ (t.ctx c).tail = (s.ctx c).tail ∧
      (∀ d, d ≠ c → t.ctx d = s.ctx d) ∧ t.rooms = s.rooms ∧ t.engs = s.engs) ∧
  (∀ (p : DbPage) (w : BusWr) (s : State), s.running = true → w.be = 0xF#4 → s.pageCtx p = none →
    exec (.dbTailWrite p w) s = .next s) ∧
  (∀ (p : DbPage) (s : State), s.running = true → s.pageCtx p = none →
    exec (.dbDepthRead p) s = .next { s with outbox := s.outbox ++ [.pageRead p 0] }) ∧
  (∀ (p : DbPage) (s : State) (c : Nat), s.running = true → s.pageCtx p = some c →
    ((s.ctx c).compat = false ∨ (s.ctx c).depth ≠ (s.ctx c).qsize - 1) →
    ∃ t, exec (.dbDepthRead p) s = .next t ∧ t.outbox = s.outbox ++ [.pageRead p (s.ctx c).depth] ∧
      t = { s with outbox := t.outbox }) ∧
  (∀ (p : DbPage) (s : State) (c : Nat), s.running = true → s.pageCtx p = some c → (s.ctx c).compat = true →
    (s.ctx c).depth = (s.ctx c).qsize - 1 →
    ∃ t, exec (.dbDepthRead p) s = .next t ∧ (t.ctx c).heldReads = (s.ctx c).heldReads ++ [p] ∧ t.outbox = s.outbox ∧
      (∀ d, d ≠ c → t.ctx d = s.ctx d) ∧ t = { s with ctxs := t.ctxs }) ∧
  (∀ (p : DbPage) (s : State) (c : Nat) (late : Bool), s.pageCtx p = some c → p ∈ (s.ctx c).heldReads →
    (late = true ∨ (s.ctx c).depth ≠ (s.ctx c).qsize - 1) →
    ∃ t, exec (.compatHoldEnd p late) s = .next t ∧ t.outbox = s.outbox ++ [.pageRead p (s.ctx c).depth] ∧
      (t.ctx c).heldReads = (s.ctx c).heldReads.erase p ∧ (∀ d, d ≠ c → t.ctx d = s.ctx d) ∧
      t = { s with ctxs := t.ctxs, outbox := t.outbox })

/-- R286 to R288: the queue reader puts the descriptor at the head of the queue it serves behind the room's commands, binds
a free inbox where the context has none, and moves the head on; one that no room takes faults its context. -/
def Obligations.DeliveryPutsTheHeadIntoAnInbox : Prop :=
  (∀ (s : State) (c r i : Nat), s.nextQueue = some c →
    (s.nextDelivery c = .inbox r i ∨ s.nextDelivery c = .bind r i) →
    ∃ t d, exec .descriptorDelivery s = .next t ∧ (t.room r).cmds = (s.room r).cmds ++ [d] ∧
      d.desc = s.headDesc (s.ctx c) ∧ d.src = .inbox i ∧ d.ctx = c ∧ d.seq = (s.room r).nextSeq ∧ d.st = .waiting ∧
      d.qidx = (s.ctx c).head ∧ (t.room r).nextSeq = (s.room r).nextSeq + 1 ∧
      (t.ctx c).head = ((s.ctx c).head + 1) % (s.ctx c).qsize ∧
      (s.nextDelivery c = .bind r i → (t.room r).inbox i = { ctx := c, bound := true }) ∧
      (s.nextDelivery c = .inbox r i → (t.room r).inboxes = (s.room r).inboxes) ∧
      (∀ q, q ≠ r → t.room q = s.room q) ∧ (∀ b, b ≠ c → t.ctx b = s.ctx b) ∧
      t = { s with regs := t.regs, rooms := t.rooms, ctxs := t.ctxs, nextOrd := s.nextOrd + 1, rrLast := c,
                   rrLeft := t.rrLeft } ∧
      s.RegsOnly t ((List.range 5).map fun e => F.MASON_DROP.COUNT r e i)) ∧
  (∀ (s : State) (c : Nat) (i : FaultInfo), s.nextQueue = some c → s.nextDelivery c = .fault i →
    ∃ t, exec .descriptorDelivery s = .next t ∧ (t.ctx c).faulted = true ∧ (t.ctx c).head = (s.ctx c).head ∧
      (∀ b, b ≠ c → t.ctx b = s.ctx b) ∧ t.rooms = s.rooms)

/-! ### Commands of a room -/

/-- R222, R298, R300, R317, R320, R330: a command whose conditions hold, whose engine is not fenced or drained and whose regions
and slots are free goes to a task slot of that engine and runs from now on, one without an engine at once; a conflict, a
requested fence or a slot in use keeps it waiting and changes nothing; a latch outside its context's range faults it once it would
go; a break holds it. -/
def Obligations.ReadyCommandsAreDispatched : Prop :=
  (∀ (c : CmdRef) (s : State) (d : RoomCmd), s.cmd c = some d → d.st = .waiting → d.fault = none →
    s.mayGo c.room.val d = true → (d.isTenant = true ∨ d.passed = true ∨ s.breaksAt c.room.val d = false) →
    (∀ e n, usesEngine (dOpcode d.desc) = true → s.engineOf c.room.val d = some e → s.engFenced e = false →
      s.engFenceReq e = false → s.boardFree c.room.val d (s.cmdRegions c.room.val d) = true → s.slotsFree d e = true →
      s.taskSlotFor d e = some n → s.latchBad d = false → dShapeRt d.desc = false → dAgen d.desc ≠ 2 →
      ∃ t k, exec (.commandDispatch c) s = .next t ∧ t.cmd c = some k ∧ k.st = .running ∧ k.eng = some e ∧ k.slot = n ∧
        k.tDispatch = s.ts.toNat ∧ k.desc = d.desc ∧ k.fault = none ∧ ((t.eng e).slot n).cmd = some d.seq ∧
        ((t.eng e).slot n).ctx = d.ctx ∧ (∀ q, q ≠ c.room.val → t.room q = s.room q) ∧ (∀ f, f ≠ e → t.eng f = s.eng f) ∧
        t.ctxs = s.ctxs ∧ t.latches = s.latches ∧ t.arbs = s.arbs ∧ t.pwr = s.pwr ∧
        (dOpcode d.desc = 7 → k.dst = s.haloDst d.desc) ∧
        (dTrace d.desc = false → t = { s with regs := t.regs, rooms := t.rooms, engs := t.engs })) ∧
    (dOpcode d.desc = 1 ∨ dOpcode d.desc = 8 ∨ dOpcode d.desc = 9 → s.latchBad d = false → dAgen d.desc ≠ 2 →
      dTrace d.desc = false →
      ∃ t k, exec (.commandDispatch c) s = .next t ∧ t.cmd c = some k ∧ k.st = .running ∧ k.desc = d.desc ∧ k.fault = none ∧
        (∀ q, q ≠ c.room.val → t.room q = s.room q) ∧ t = { s with regs := t.regs, rooms := t.rooms }) ∧
    (s.verdict c.room.val d = .wait → exec (.commandDispatch c) s = .next s) ∧
    (∀ i, s.verdict c.room.val d = .fault i →
      ∃ t, exec (.commandDispatch c) s = .next t ∧ t.cmd c = some { d with started := true, fault := some i } ∧
        (∀ q, q ≠ c.room.val → t.room q = s.room q) ∧ t = { s with rooms := t.rooms })) ∧
  (∀ (c : CmdRef) (s : State) (d : RoomCmd) (e : Nat), usesEngine (dOpcode d.desc) = true →
    s.engineOf c.room.val d = some e →
    (s.boardFree c.room.val d (s.cmdRegions c.room.val d) = false ∨
      (s.engFenced e = false ∧ (s.engFenceReq e = true ∨ s.slotsFree d e = false ∨ s.taskSlotFor d e = none)) →
      s.verdict c.room.val d = .wait) ∧
    (s.boardFree c.room.val d (s.cmdRegions c.room.val d) = true → s.engFenced e = false → s.engFenceReq e = false →
      s.slotsFree d e = true → (s.taskSlotFor d e).isSome = true → s.latchBad d = true →
      s.verdict c.room.val d = .fault (FaultInfo.mk0 causeLatchRange)) ∧
    (s.boardFree c.room.val d (s.cmdRegions c.room.val d) = true → s.engFenced e = true → s.latchBad d = false →
      s.verdict c.room.val d = .fault (fenceInfo causeUnitFence (physPlace e)))) ∧
  (∀ (c : CmdRef) (s : State) (d : RoomCmd), s.cmd c = some d → d.st = .waiting → d.fault = none →
    s.mayGo c.room.val d = true → d.isTenant = false → d.passed = false → s.breaksAt c.room.val d = true →
    s.verdict c.room.val d ≠ .wait →
    ∃ t k, exec (.commandDispatch c) s = .next t ∧ t.cmd c = some k ∧ k.st = .held ∧
      t.flag (F.BRK_STATUS.HALTED c.room.val) = true ∧ t.flag (F.BRK_STATUS.HIT c.room.val) = true ∧
      t.outbox = s.outbox ++ [.mgmtIrq c.room.val] ∧ (∀ q, q ≠ c.room.val → t.room q = s.room q) ∧
      t = { s with regs := t.regs, rooms := t.rooms, outbox := t.outbox } ∧
      s.RegsOnly t [F.BRK_STATUS.HALTED c.room.val, F.BRK_STATUS.HIT c.room.val])

/-- R295, R302, R323, R346, R347: a command whose work is over completes, one that has a fault ends in it, and either way it leaves
its room; a second fault of a context writes nothing but MORE, which stays at 65,535; a legal SYNC is over once every earlier
command of its context and stream in its room has ended and none of them has faulted. -/
def Obligations.EndedCommandsLeaveTheirRoom : Prop :=
  (∀ (c : CmdRef) (s : State) (d : RoomCmd), s.cmd c = some d → (s.room c.room.val).complete d = true →
    ∃ t, exec (.commandComplete c) s = .next t ∧ t.cmd c = none ∧
      t = s.cmdComplete c.room.val d ∧ t.arbs = s.arbs ∧ t.pwr = s.pwr ∧ t.mo = s.mo) ∧
  (∀ (c : CmdRef) (s : State) (d : RoomCmd) (i : FaultInfo), s.cmd c = some d →
    (s.room c.room.val).faultOf d = some i →
    ∃ t, exec (.commandFault c) s = .next t ∧ t.cmd c = none ∧ t = s.cmdFault c.room.val d i ∧
      (d.isTenant = true → (t.ctx d.ctx).faulted = true) ∧
      (d.src = .fw → t.flag (F.FW_STATUS.FAULTED c.room.val) = true) ∧ t.arbs = s.arbs ∧ t.pwr = s.pwr) ∧
  (∀ (s : State) (c : Nat) (i : FaultInfo) (tag place qidx : Nat), (s.ctx c).faulted = true →
    (s.ctxFault c i tag place qidx).ctx c = { s.ctx c with more := min 65535 ((s.ctx c).more + 1) } ∧
      (s.ctxFault c i tag place qidx).rooms = s.rooms ∧ (s.ctxFault c i tag place qidx).outbox = s.outbox) ∧
  (∀ (c : CmdRef) (s : State) (d : RoomCmd), s.plainStart c 1 = some d → syncLegal d.desc = true →
    (∀ k ∈ (s.room c.room.val).cmds, ¬(k.ctx = d.ctx ∧ k.isTenant = d.isTenant ∧ k.ord < d.ord)) →
    (∀ g ∈ (s.ctx d.ctx).deadTags, ¬(g.2.2 = d.deadAt c.room.val ∧ g.2.1 < d.ord)) →
    ∃ t k, exec (.sync c) s = .next t ∧ t.cmd c = some k ∧ k = { d with st := .done, started := true } ∧
      (∀ q, q ≠ c.room.val → t.room q = s.room q) ∧ t = { s with rooms := t.rooms })

/-- R328 to R331: a GO write copies FW_DESC behind the room's commands, is dropped with the queue full, and is refused for a
context that is not LIVE; BRK_CTRL sets the break mode anew and lets a held command go on, past its break and under the
conditions of every dispatch. A command whose PLACE names no unit in service ends in FW_FAULT with the copy; that it is judged
there, for its own room and that of the port, is the model's choice (log 105). -/
def Obligations.FirmwarePortCopiesAndBreaks : Prop :=
  (∀ (r : RoomIx) (w : BusWr) (s : State), s.Reached w (Off.FW_CTRL r.val) → bitAt w.val.toNat 0 = true →
    bitAt w.val.toNat 1 = false → (s.room r.val).fwDepth < 16 → s.fwPlaceFault r.val (dPlace (s.fwDesc r.val)) = none →
    ∃ t d, exec (.fwGo r w) s = .next t ∧ (t.room r.val).cmds = (s.room r.val).cmds ++ [d] ∧ d.src = .fw ∧
      d.ctx = fwCtx ∧ d.desc = s.fwDesc r.val ∧ d.st = .waiting ∧ (∀ q, q ≠ r.val → t.room q = s.room q) ∧
      t = { s with regs := t.regs, rooms := t.rooms, nextOrd := s.nextOrd + 1 } ∧
      (∀ k, k ≠ Off.FW_CTRL r.val → t.reg k = s.reg k)) ∧
  (∀ (r : RoomIx) (w : BusWr) (s : State) (i : FaultInfo), s.Reached w (Off.FW_CTRL r.val) → bitAt w.val.toNat 0 = true →
    bitAt w.val.toNat 1 = false → (s.room r.val).fwDepth < 16 →
    s.fwPlaceFault r.val (dPlace (s.fwDesc r.val)) = some i → (∀ k ∈ (s.room r.val).cmds, k.seq ≠ (s.room r.val).nextSeq) →
    ∃ t, exec (.fwGo r w) s = .next t ∧ t.flag (F.FW_STATUS.FAULTED r.val) = true ∧
      t.cmd { room := r, seq := (s.room r.val).nextSeq } = none ∧ (∀ q, q ≠ r.val → t.room q = s.room q)) ∧
  (∀ (r : RoomIx) (w : BusWr) (s : State), s.Reached w (Off.FW_CTRL r.val) → bitAt w.val.toNat 0 = true →
    bitAt w.val.toNat 1 = true → (s.room r.val).fwDepth < 16 → (s.ctx (bitsAt w.val.toNat 4 11)).live = false →
    ∃ t, exec (.fwGo r w) s = .next t ∧ t.flag (F.FW_STATUS.REFUSED r.val) = true ∧ t = { s with regs := t.regs }) ∧
  (∀ (r : RoomIx) (w : BusWr) (s : State), s.Reached w (Off.FW_CTRL r.val) → bitAt w.val.toNat 0 = true →
    16 ≤ (s.room r.val).fwDepth →
    ∃ t, exec (.fwGo r w) s = .next t ∧ t.flag (F.FW_STATUS.DROP r.val) = true ∧ t.rooms = s.rooms ∧
      t = { s with regs := t.regs }) ∧
  (∀ (r : RoomIx) (w : BusWr) (s : State), s.Reached w (Off.BRK_CTRL r.val) →
    ∃ t, exec (.brkModeWrite r w) s = .next t ∧ t.fget (F.BRK_CTRL.MODE r.val) = w.val.toNat % 4 ∧
      t.fget (F.BRK_STATUS.DISPATCHED r.val) = 0 ∧
      t.room r.val = { s.room r.val with brkSeen := 0, brkFired := false } ∧ (∀ q, q ≠ r.val → t.room q = s.room q) ∧
      t = { s with regs := t.regs, rooms := t.rooms } ∧
      s.RegsOnly t [F.BRK_CTRL.MODE r.val, F.BRK_STATUS.DISPATCHED r.val]) ∧
  (∀ (r : RoomIx) (w : BusWr) (s : State) (d : RoomCmd), s.Reached w (Off.BRK_CTRL r.val) → bitAt w.val.toNat 2 = true →
    (s.room r.val).cmds.find? (fun c => c.st == .held) = some d →
    let d2 := { d with st := .waiting, passed := true }
    let s2 := (s.fset (F.BRK_STATUS.HALTED r.val) 0).updCmd r.val d.seq fun _ => d2
    ∃ t, exec (.brkResume r w) s = .next t ∧ t.flag (F.BRK_STATUS.HALTED r.val) = false ∧
      (d.fault = none → s2.mayGo r.val d2 = true → t = s2.dispatchReady r.val d2) ∧
      (d.fault ≠ none ∨ s2.mayGo r.val d2 = false → t = s2)) ∧
  (∀ (r : RoomIx) (w : BusWr) (s : State), s.Reached w (Off.BRK_CTRL r.val) → bitAt w.val.toNat 2 = true →
    (s.room r.val).cmds.find? (fun c => c.st == .held) = none →
    exec (.brkResume r w) s = .next (s.fset (F.BRK_STATUS.HALTED r.val) 0))

/-! ### Control cores -/

/-- R337: g0 reads zero and writes to it are ignored; every other register reads what was last written to it. -/
def Obligations.GeneralRegistersReadBackAndZeroStaysZero : Prop :=
  ∀ (c : CoreSt) (v : W32) (i j : Nat), c.rd 0 = 0 ∧ c.wrG 0 v = c ∧
    (c.wrG i v).rd j = (if j = i ∧ i ≠ 0 then v else c.rd j) ∧ (c.wrG i v).pc = c.pc

/-- R339: each integer instruction of a running pair writes its result to one register and passes on; nothing else in the
machine changes. CMPLT compares as signed, CMPLTU as unsigned; the operand forms and ISEL's choice are the model's (log 37). -/
def Obligations.IntegerInstructionsWriteTheirResult : Prop :=
  ∀ (r : Pipe) (rd ra rb rc : GReg) (b : Src2) (imm : BitVec 16) (s : State), s.Executes r.val →
    let c := (s.room r.val).core
    let x := c.rd ra.val
    let y := c.src2 b
    let writes := fun (t : State) (v : W32) => s.CommitsTo t r.val { c.wrG rd.val v with pc := (c.pc + 4) % 0x8000 }
    (∃ t, exec (.iadd r rd ra b) s = .next t ∧ writes t (x + y)) ∧
    (∃ t, exec (.isub r rd ra b) s = .next t ∧ writes t (x - y)) ∧
    (∃ t, exec (.iand r rd ra b) s = .next t ∧ writes t (x &&& y)) ∧
    (∃ t, exec (.ior r rd ra b) s = .next t ∧ writes t (x ||| y)) ∧
    (∃ t, exec (.ixor r rd ra b) s = .next t ∧ writes t (x ^^^ y)) ∧
    (∃ t, exec (.inor r rd ra b) s = .next t ∧ writes t (~~~(x ||| y))) ∧
    (∃ t, exec (.cmplt r rd ra b) s = .next t ∧ writes t (if x.toInt < y.toInt then 1 else 0)) ∧
    (∃ t, exec (.cmpltu r rd ra b) s = .next t ∧ writes t (if x.toNat < y.toNat then 1 else 0)) ∧
    (∃ t, exec (.cmpeq r rd ra b) s = .next t ∧ writes t (if x = y then 1 else 0)) ∧
    (∃ t, exec (.imovh r rd imm) s = .next t ∧ writes t (BitVec.ofNat 32 (imm.toNat * 65536))) ∧
    (∃ t, exec (.isel r rd ra rb rc) s = .next t ∧ writes t (if c.rd rc.val = 0 then c.rd rb.val else x)) ∧
    (∃ t, exec (.imul r rd ra rb) s = .next t ∧ writes t (BitVec.ofNat 32 (x.toNat * (c.rd rb.val).toNat)))

/-- R339: shifts, leading zeros and set bits. The result of a shift by 32 or more no rule states: the register takes a free
value and everything else is as for any shift (log 30). -/
def Obligations.ShiftsAndBitCountsWriteTheirResult : Prop :=
  ∀ (r : Pipe) (rd ra : GReg) (b : Src2) (s : State), s.Executes r.val →
    let c := (s.room r.val).core
    let x := c.rd ra.val
    let n := (c.src2 b).toNat
    let writes := fun (t : State) (v : W32) => s.CommitsTo t r.val { c.wrG rd.val v with pc := (c.pc + 4) % 0x8000 }
    let free := fun (t : State) => ∃ v : W32,
      t.room r.val = s.committed r.val { c.wrG rd.val v with pc := (c.pc + 4) % 0x8000 } (s.room r.val).dmem ∧
      (∀ q, q ≠ r.val → t.room q = s.room q) ∧ t = { s with rooms := t.rooms, freeCtr := s.freeCtr + 1 }
    (∃ t, exec (.shl r rd ra b) s = .next t ∧ (n < 32 → writes t (BitVec.ofNat 32 (x.toNat * 2 ^ n))) ∧ (32 ≤ n → free t)) ∧
    (∃ t, exec (.shr r rd ra b) s = .next t ∧ (n < 32 → writes t (BitVec.ofNat 32 (x.toNat / 2 ^ n))) ∧ (32 ≤ n → free t)) ∧
    (∃ t, exec (.shra r rd ra b) s = .next t ∧ (n < 32 → writes t (BitVec.ofInt 32 (x.toInt / 2 ^ n))) ∧ (32 ≤ n → free t)) ∧
    (∃ t k, exec (.clz r rd ra) s = .next t ∧ writes t (BitVec.ofNat 32 k) ∧ k ≤ 32 ∧ x.toNat < 2 ^ (32 - k) ∧
      (k < 32 → 2 ^ (31 - k) ≤ x.toNat)) ∧
    (∃ t, exec (.bitcnt r rd ra) s = .next t ∧
      writes t (BitVec.ofNat 32 (((List.range 32).filter fun i => x.getLsbD i).length)))

/-- R339, R340, R347: a load at an address that the level allows writes the bytes read, sign- or zero-extended, and changes
nothing else; one at any other address is a fault of the routine with detail 0x02, and a pair that begins with an odd register
one with detail 0x01, which the model chose among the causes of R347 (log 37). -/
def Obligations.DataMemoryLoadsReadTheirBytes : Prop :=
  ∀ (r : Pipe) (rd ra : GReg) (off : BitVec 16) (s : State), s.Executes r.val →
    let c := (s.room r.val).core
    let a := c.memAddr ra off
    let byte := fun i => Mem.byte (s.room r.val).dmem (a + i)
    let word := fun i => byte (i + 3) ++ byte (i + 2) ++ byte (i + 1) ++ byte i
    let writes := fun (t : State) (d : CoreSt) => s.CommitsTo t r.val { d with pc := (c.pc + 4) % 0x8000 }
    let faults := fun (i : Instr) => exec i s = .next (s.coFault r (dmInfo a))
    (dmOk c.fw a 1 = true →
      (∃ t, exec (.ld8 r rd ra off) s = .next t ∧ writes t (c.wrG rd.val ((byte 0).signExtend 32))) ∧
      (∃ t, exec (.ld8u r rd ra off) s = .next t ∧ writes t (c.wrG rd.val ((byte 0).zeroExtend 32)))) ∧
    (dmOk c.fw a 2 = true →
      (∃ t, exec (.ld16 r rd ra off) s = .next t ∧ writes t (c.wrG rd.val ((byte 1 ++ byte 0).signExtend 32))) ∧
      (∃ t, exec (.ld16u r rd ra off) s = .next t ∧ writes t (c.wrG rd.val ((byte 1 ++ byte 0).zeroExtend 32)))) ∧
    (dmOk c.fw a 4 = true → ∃ t, exec (.ld32 r rd ra off) s = .next t ∧ writes t (c.wrG rd.val (word 0))) ∧
    (dmOk c.fw a 8 = true → rd.val % 2 = 0 →
      ∃ t, exec (.ld2w r rd ra off) s = .next t ∧ writes t ((c.wrG rd.val (word 0)).wrG (rd.val + 1) (word 4))) ∧
    (dmOk c.fw a 1 = false → faults (.ld8 r rd ra off) ∧ faults (.ld8u r rd ra off)) ∧
    (dmOk c.fw a 2 = false → faults (.ld16 r rd ra off) ∧ faults (.ld16u r rd ra off)) ∧
    (dmOk c.fw a 4 = false → faults (.ld32 r rd ra off)) ∧
    (dmOk c.fw a 8 = false → rd.val % 2 = 0 → faults (.ld2w r rd ra off)) ∧
    (rd.val % 2 = 1 → exec (.ld2w r rd ra off) s = .next (s.coFault r (routineInfo 1)))

/-- R339, R340, R347: a store at an address that the level allows writes its bytes, the low byte first, and no other byte of the
data memory; the registers keep their values. Any other address, and an odd first register of a pair (log 37), faults. -/
def Obligations.DataMemoryStoresWriteTheirBytes : Prop :=
  ∀ (r : Pipe) (rs ra : GReg) (off : BitVec 16) (s : State), s.Executes r.val →
    let c := (s.room r.val).core
    let a := c.memAddr ra off
    let puts := fun (t : State) (n v : Nat) =>
      (∀ i, i < n → Mem.byte (t.room r.val).dmem (a + i) = BitVec.ofNat 8 (v / 256 ^ i)) ∧
      (∀ b, b < a ∨ a + n ≤ b → Mem.byte (t.room r.val).dmem b = Mem.byte (s.room r.val).dmem b) ∧
      t.room r.val = s.committed r.val { c with pc := (c.pc + 4) % 0x8000 } (t.room r.val).dmem ∧
      (∀ q, q ≠ r.val → t.room q = s.room q) ∧ t = { s with rooms := t.rooms }
    let faults := fun (i : Instr) => exec i s = .next (s.coFault r (dmInfo a))
    (dmOk c.fw a 1 = true → ∃ t, exec (.st8 r rs ra off) s = .next t ∧ puts t 1 (c.rd rs.val).toNat) ∧
    (dmOk c.fw a 2 = true → ∃ t, exec (.st16 r rs ra off) s = .next t ∧ puts t 2 (c.rd rs.val).toNat) ∧
    (dmOk c.fw a 4 = true → ∃ t, exec (.st32 r rs ra off) s = .next t ∧ puts t 4 (c.rd rs.val).toNat) ∧
    (dmOk c.fw a 8 = true → rs.val % 2 = 0 → ∃ t, exec (.st2w r rs ra off) s = .next t ∧
      puts t 8 ((c.rd rs.val).toNat + 2 ^ 32 * (c.rd (rs.val + 1)).toNat)) ∧
    (dmOk c.fw a 1 = false → faults (.st8 r rs ra off)) ∧ (dmOk c.fw a 2 = false → faults (.st16 r rs ra off)) ∧
    (dmOk c.fw a 4 = false → faults (.st32 r rs ra off)) ∧
    (dmOk c.fw a 8 = false → rs.val % 2 = 0 → faults (.st2w r rs ra off)) ∧
    (rs.val % 2 = 1 → exec (.st2w r rs ra off) s = .next (s.coFault r (routineInfo 1)))

/-- R339, R344, R346, R358, R364: branches and jumps move the program counter and leave the registers and the memory; whatever a
wrong prediction had started leaves no architectural trace. Where JMPR's register is no aligned offset of a bank no rule says
where it goes: the program counter takes a free one (log 30). -/
def Obligations.BranchesMoveTheProgramCounter : Prop :=
  (∀ (r : Pipe) (ra rb : GReg) (tgt : BitVec 13) (s : State), s.Executes r.val → r.young = [] →
    let c := (s.room r.val).core
    let x := c.rd ra.val
    let y := c.rd rb.val
    let go := fun (t : State) (taken : Bool) =>
      s.CommitsTo t r.val { c with pc := if taken then tgt.toNat * 4 else (c.pc + 4) % 0x8000 }
    (∃ t, exec (.brz r.room ra tgt r.young) s = .next t ∧ go t (decide (x = 0))) ∧
    (∃ t, exec (.brnz r.room ra tgt r.young) s = .next t ∧ go t (decide (x ≠ 0))) ∧
    (∃ t, exec (.breq r.room ra rb tgt r.young) s = .next t ∧ go t (decide (x = y))) ∧
    (∃ t, exec (.brne r.room ra rb tgt r.young) s = .next t ∧ go t (decide (x ≠ y))) ∧
    (∃ t, exec (.brlt r.room ra rb tgt r.young) s = .next t ∧ go t (decide (x.toInt < y.toInt))) ∧
    (∃ t, exec (.brltu r.room ra rb tgt r.young) s = .next t ∧ go t (decide (x.toNat < y.toNat))) ∧
    (∃ t, exec (.jmp r tgt) s = .next t ∧ go t true) ∧
    (x.toNat % 4 = 0 → x.toNat < 0x8000 → ∃ t, exec (.jmpr r ra) s = .next t ∧ s.CommitsTo t r.val { c with pc := x.toNat }) ∧
    (x.toNat % 4 ≠ 0 ∨ 0x8000 ≤ x.toNat → ∃ t p, exec (.jmpr r ra) s = .next t ∧
      t.room r.val = s.committed r.val { c with pc := p } (s.room r.val).dmem ∧ p % 4 = 0 ∧ p < 0x8000 ∧
      (∀ q, q ≠ r.val → t.room q = s.room q) ∧ t = { s with rooms := t.rooms, freeCtr := s.freeCtr + 1 })) ∧
  (∀ (r : Pipe) (ra rb : GReg) (tgt : BitVec 13) (i : Instr) (s : State), s.Executes r.val →
    i ∈ [Instr.brz r.room ra tgt r.young, .brnz r.room ra tgt r.young, .breq r.room ra rb tgt r.young,
      .brne r.room ra rb tgt r.young, .brlt r.room ra rb tgt r.young, .brltu r.room ra rb tgt r.young,
      .jmp r tgt, .jmpr r ra] →
    ∃ t, exec i s = .next t ∧ (t.room r.val).dmem = (s.room r.val).dmem ∧
      (t.room r.val).cmds = (s.room r.val).cmds ∧ (t.room r.val).core.g = (s.room r.val).core.g ∧ t.engs = s.engs ∧
      t.ms.mem = s.ms.mem ∧ t.latches = s.latches ∧ t.ctxs = s.ctxs)

/-- R342, R344, R346, R358: a nested call keeps its return address and goes to the routine's entry in the same bank; RET goes
back to it, and at depth zero ends the routine, whose status the CALL then has. -/
def Obligations.CallsNestAndReturn : Prop :=
  (∀ (r : Pipe) (rt : Fin 4096) (s : State), s.Executes r.val → r.young = [] → (s.room r.val).core.stack.length < 16 →
    callable (s.room r.val).core.fw (routineEntry ((s.room r.val).bank (s.room r.val).core.bank) rt.val) = true →
    ∃ t, exec (.rcall r rt) s = .next t ∧ s.CommitsTo t r.val { (s.room r.val).core with
      stack := ((s.room r.val).core.pc + 4) % 0x8000 :: (s.room r.val).core.stack
      pc := bitsAt (routineEntry ((s.room r.val).bank (s.room r.val).core.bank) rt.val) 0 13 * 4 }) ∧
  (∀ (r : Pipe) (rt : Fin 4096) (s : State), s.Executes r.val → 16 ≤ (s.room r.val).core.stack.length ∨
    callable (s.room r.val).core.fw (routineEntry ((s.room r.val).bank (s.room r.val).core.bank) rt.val) = false →
    exec (.rcall r rt) s = .next (s.coFault r (routineInfo 3))) ∧
  (∀ (r : Pipe) (s : State) (a : Nat) (rest : List Nat), s.Executes r.val → r.young = [] →
    (s.room r.val).core.stack = a :: rest →
    ∃ t, exec (.ret r) s = .next t ∧ s.CommitsTo t r.val { (s.room r.val).core with stack := rest, pc := a }) ∧
  (∀ (r : Pipe) (s : State) (q : Nat) (k : CallSt), s.Executes r.val → r.young = [] → (s.room r.val).core.stack = [] →
    (s.room r.val).core.call = some q → (s.room r.val).callSt = some k →
    (s.hasChecker r.val = false → ∃ t, exec (.ret r) s = .next t ∧
      t.room r.val = { s.room r.val with
        core := CoreSt.idle, callSt := some { k with ret := some ((s.room r.val).core.rd 1).toNat } } ∧
      (∀ q, q ≠ r.val → t.room q = s.room q) ∧ t = { s with rooms := t.rooms }) ∧
    (s.hasChecker r.val = true → ∃ t, exec (.ret r) s = .next t ∧ (t.room r.val).core = CoreSt.idle ∧
      (t.room r.val).callSt = some k ∧
      (t.room r.val).held = (s.room r.val).held ++ [some (.ret ((s.room r.val).core.rd 1).toNat)] ∧
      (∀ q, q ≠ r.val → t.room q = s.room q) ∧ t = { s with rooms := t.rooms })) ∧
  (∀ (r : Pipe) (s : State), s.Executes r.val → r.young = [] → (s.room r.val).core.stack = [] →
    (s.room r.val).core.call = none → s.hasChecker r.val = false →
    exec (.ret r) s = .next (s.endService r.val))

/-- R339, R347, R349, R366: DMBAR passes, HALTW waits, and the firmware's instructions act at firmware level and are faults of a
routine below it; SYSRD reads a value that no rule gives, and what SYSWR writes none names either (log 37). -/
def Obligations.SystemInstructionsActAtTheirLevel : Prop :=
  ∀ (r : Pipe) (rd ra : GReg) (n : BitVec 16) (s : State), s.Executes r.val →
    let c := (s.room r.val).core
    let next := (c.pc + 4) % 0x8000
    (∃ t, exec (.dmbar r) s = .next t ∧ s.CommitsTo t r.val { c with pc := next }) ∧
    (∃ t, exec (.haltw r) s = .next t ∧ s.CommitsTo t r.val { c with wait := .haltw }) ∧
    (c.fw = true → ∃ t v, exec (.sysrd r rd n) s = .next t ∧
      t.room r.val = s.committed r.val { c.wrG rd.val v with pc := next } (s.room r.val).dmem ∧
      (∀ q, q ≠ r.val → t.room q = s.room q) ∧ t = { s with rooms := t.rooms, freeCtr := s.freeCtr + 1 }) ∧
    (c.fw = true → s.hasChecker r.val = false →
      ∃ t, exec (.syswr r ra n) s = .next t ∧ s.CommitsTo t r.val { c with pc := next }) ∧
    (c.fw = true → s.hasChecker r.val = true →
      ∃ t, exec (.syswr r ra n) s = .next t ∧ (t.room r.val).core = { c with pc := next } ∧
        (t.room r.val).held = (s.room r.val).held ++ [some .sys] ∧ s.coreRuns r.val = true ∧ t.coreRuns r.val = false ∧
        (∀ q, q ≠ r.val → t.room q = s.room q) ∧ t = { s with rooms := t.rooms }) ∧
    (c.fw = true → c.call.isSome = true → ∃ t, exec (.trapret r) s = .next t ∧ s.CommitsTo t r.val { c with pc := next }) ∧
    (c.fw = true → c.call = none → (s.room r.val).svcSaved = [] →
      ∃ t, exec (.trapret r) s = .next t ∧ (t.room r.val).core = CoreSt.idle ∧ (t.room r.val).svcSaved = [] ∧
        (∀ q, q ≠ r.val → t.room q = s.room q) ∧ t = { s with rooms := t.rooms, engs := t.engs }) ∧
    (∀ (k : CoreSt) (rest : List CoreSt), c.fw = true → c.call = none → (s.room r.val).svcSaved = k :: rest → k.wait = .none →
      ∃ t, exec (.trapret r) s = .next t ∧ (t.room r.val).core = k ∧ (t.room r.val).svcSaved = rest ∧
        (∀ q, q ≠ r.val → t.room q = s.room q) ∧ t = { s with rooms := t.rooms, engs := t.engs }) ∧
    (c.fw = false → exec (.sysrd r rd n) s = .next (s.coFault r (routineInfo 1)) ∧
      exec (.syswr r ra n) s = .next (s.coFault r (routineInfo 1)) ∧
      exec (.trapret r) s = .next (s.coFault r (routineInfo 1)))

/-- R341, R345, R347, R348: a CALL whose routine the level may call starts the pair at its entry with the argument registers set
and every other register zero; the arguments stand in the argument block; a routine that the level may not call faults with
detail 0x03. What g4 shows of the firmware context, which has no context ID, is free (log 57). -/
def Obligations.CallStartsTheRoutineAtItsEntry : Prop :=
  ∀ (c : CmdRef) (s : State) (d : RoomCmd) (e : Nat), s.plainStart c 9 = some d → callLegal d.desc = true →
    s.coresOn c.room.val = true → (s.room c.room.val).core = CoreSt.idle → (s.room c.room.val).svcSaved = [] →
    e = routineEntry ((s.room c.room.val).bank (s.fget (F.RS_CTRL.ACTIVE c.room.val))) (dRoutine d.desc) →
    (callable (!d.isTenant) e = true → ∃ t, exec (.call c) s = .next t ∧
      (let k := (t.room c.room.val).core
       k.active = true ∧ k.pc = bitsAt e 0 13 * 4 ∧ k.bank = s.fget (F.RS_CTRL.ACTIVE c.room.val) ∧
        k.fw = (!d.isTenant) ∧ k.ctx = d.ctx ∧ k.call = some d.seq ∧ k.stack = [] ∧ k.wait = .none ∧
        k.rd 1 = BitVec.ofNat 32 (dNargs d.desc) ∧ k.rd 2 = 0x10000#32 ∧ k.rd 3 = BitVec.ofNat 32 (dTag d.desc) ∧
        (d.ctx ≠ fwCtx → k.rd 4 = BitVec.ofNat 32 (d.ctx % 2048)) ∧ ∀ i, 4 < i → k.rd i = 0) ∧
      (t.room c.room.val).dmem = putArgs ((s.room c.room.val).callMem d.ctx) d.desc ∧
      (t.room c.room.val).callSt = some CallSt.fresh ∧ (∀ q, q ≠ c.room.val → t.room q = s.room q) ∧
      t = { s with rooms := t.rooms, regs := t.regs, freeCtr := t.freeCtr } ∧
      (s.flag (F.CC_ROLE.JOINING c.room.val) = false → t.regs = s.regs)) ∧
    (callable (!d.isTenant) e = false → ∃ t, exec (.call c) s = .next t ∧
      t.cmd c = some { d with started := true, fault := some (routineInfo 3) } ∧
      (∀ q, q ≠ c.room.val → t.room q = s.room q) ∧ t = { s with rooms := t.rooms })

/-- R349, R345, R350: a service entry keeps the interrupted routine, takes the events and starts routine 0 at firmware level with
every register clear; where in the firmware area the saved registers lie is free (log 119), and no byte of the routine's own area
changes. A routine that exceeds its limit is ended with detail 0x05. -/
def Obligations.ServiceEntriesAndLimitsInterruptRoutines : Prop :=
  (∀ (r : RoomIx) (s : State), s.mayEnter r.val = true → s.flag (F.CC_ROLE.JOINING r.val) = false →
    ∃ t, exec (.serviceEntry r []) s = .next t ∧
      (let k := (t.room r.val).core
       k.active = true ∧ k.fw = true ∧ k.call = none ∧ k.wait = .none ∧ (∀ i, k.rd i = 0) ∧
        k.pc = bitsAt (routineEntry ((s.room r.val).bank (s.fget (F.RS_CTRL.ACTIVE r.val))) 0) 0 13 * 4) ∧
      (t.room r.val).evDone = false ∧ (t.room r.val).evLatch = false ∧
      ((s.room r.val).core.active = true →
        (t.room r.val).svcSaved = (s.room r.val).core.wakeHalt :: (s.room r.val).svcSaved) ∧
      ((s.room r.val).core.active = false → (t.room r.val).svcSaved = (s.room r.val).svcSaved ∧
        (t.room r.val).dmem = (s.room r.val).dmem ∧ t = { s with rooms := t.rooms }) ∧
      (∀ a, 0x10000 ≤ a → Mem.byte (t.room r.val).dmem a = Mem.byte (s.room r.val).dmem a) ∧
      (∀ q, q ≠ r.val → t.room q = s.room q) ∧ t = { s with rooms := t.rooms, freeCtr := t.freeCtr }) ∧
  (∀ (r : RoomIx) (sq : List Young) (s : State), s.mayEnter r.val = false → exec (.serviceEntry r sq) s = .next s) ∧
  (∀ (r : RoomIx) (s : State) (q : Nat), s.coresOn r.val = true → s.fget F.PWR_STATUS.STATE = 0 →
    (s.room r.val).core.active = true → (s.room r.val).core.call = some q → (s.room r.val).core.fw = false →
    s.fget (F.ROUTINE_LIMIT.LIMIT r.val) ≠ 0 →
    ∃ t, exec (.routineLimitExpiry r) s = .next t ∧ (t.room r.val).core = CoreSt.idle ∧
      (∀ k ∈ (t.room r.val).cmds, k.seq = q → k.fault.isSome = true) ∧ (∀ p, p ≠ r.val → t.room p = s.room p) ∧
      t = { s with rooms := t.rooms })

/-! ### Coprocessor group -/

/-- R347, R351 to R353, R355, R366: ESEL holds its commit stage while commands of the slot held have not ended; then it binds the
lowest free task slot of the logical engine, with its tile registers zero, or answers that there is no engine or no free slot;
under a checker that waits for its comparison. A word with a reserved SUB faults. -/
def Obligations.EselBindsAFreeTaskSlot : Prop :=
  (∀ (r : Pipe) (f : CpWord) (s : State), s.Executes r.val → f.sub = 0 → f.gb = 0 → f.imm = 0 →
    let c := (s.room r.val).core
    let le := (c.rd f.ga.val).toNat % 8
    let next := (c.pc + 4) % 0x8000
    ((s.room r.val).cop.eng = none → s.hasChecker r.val = false →
      (∀ e n, s.physEng r.val le = some e → (s.eng e).freeSlotOf = some n →
        ∃ t, exec (.esel r f) s = .next t ∧ (t.room r.val).core = { c.wrG f.gc.val 0 with pc := next } ∧
          (t.room r.val).cop.eng = some e ∧ (t.room r.val).cop.slot = n ∧
          (t.eng e).slot n = { TaskSlot.empty with ctx := c.ctx, used := true, bound := true } ∧
          (∀ g, g ≠ e → t.eng g = s.eng g) ∧ (∀ q, q ≠ r.val → t.room q = s.room q) ∧
          t = { s with rooms := t.rooms, engs := t.engs }) ∧
      (s.physEng r.val le = none →
        ∃ t, exec (.esel r f) s = .next t ∧ s.CommitsTo t r.val { c.wrG f.gc.val 2 with pc := next }) ∧
      (∀ e, s.physEng r.val le = some e → (s.eng e).freeSlotOf = none →
        ∃ t, exec (.esel r f) s = .next t ∧ s.CommitsTo t r.val { c.wrG f.gc.val 1 with pc := next })) ∧
    (∀ g, (s.room r.val).cop.eng = some g → (s.room r.val).slotIdle = true → s.hasChecker r.val = false →
      s.physEng r.val le = none →
      ∃ t, exec (.esel r f) s = .next t ∧ (t.room r.val).core = { c.wrG f.gc.val 2 with pc := next } ∧
        (t.room r.val).cop.eng = none ∧ (t.eng g).slot (s.room r.val).cop.slot = TaskSlot.empty ∧
        (∀ h, h ≠ g → t.eng h = s.eng h) ∧ (∀ q, q ≠ r.val → t.room q = s.room q) ∧
        t = { s with rooms := t.rooms, engs := t.engs }) ∧
    ((s.room r.val).slotIdle = false → exec (.esel r f) s = .next s) ∧
    ((s.room r.val).slotIdle = true → s.hasChecker r.val = true →
      ∃ t, exec (.esel r f) s = .next t ∧ t.coreRuns r.val = false ∧
        t.room r.val = { s.room r.val with
          held := (s.room r.val).held ++ [some (.esel f.gc.val le)]
          delay := (s.room r.val).delay ++ [(c, (s.room r.val).dmem)] } ∧
        (∀ q, q ≠ r.val → t.room q = s.room q) ∧ t = { s with rooms := t.rooms })) ∧
  (∀ (r : Pipe) (f : CpWord) (i : Instr) (s : State), s.Executes r.val → 9 ≤ f.sub.toNat →
    i ∈ [Instr.esel r f, .tload r f, .tpref r f, .tstore r f, .eissue r f, .ewait r f, .lsig r f, .lwait r f, .lread r f] →
    exec i s = .next (s.coFault r (routineInfo 1)))

/-- R352, R359 to R362: a TLOAD claims an entry with the sixteen bytes it reads; once released its transfer makes them the tile
register, squashed it does not; a TSTORE writes a tile register's sixteen bytes and no other byte; a prefetch brings its block
into the floor cache and leaves memory, task slots and data memory alone. -/
def Obligations.TileRegistersAreLoadedAndStored : Prop :=
  (∀ (r : Pipe) (f : CpWord) (s : State) (e : Nat), s.Executes r.val → f.sub = 1 → f.gc.val < 16 → f.gb = 0 →
    (s.room r.val).cop.eng = some e → (s.room r.val).tloads.length < 8 →
    dmOk (s.room r.val).core.fw (tileAddr (s.room r.val).core f) 16 = true → s.hasChecker r.val = false →
    ∃ t, exec (.tload r f) s = .next t ∧
      (t.room r.val).tloads = ((s.room r.val).tloads.map fun k =>
          if k.num = (s.room r.val).nextTload then { k with commit := some true } else k) ++
        [{ num := (s.room r.val).nextTload, eng := e, slot := (s.room r.val).cop.slot, treg := f.gc.val
           data := BitVec.ofNat 128 (Mem.leNat (s.room r.val).dmem (tileAddr (s.room r.val).core f) 16)
           commit := some true }] ∧
      (t.room r.val).core = { (s.room r.val).core with pc := ((s.room r.val).core.pc + 4) % 0x8000 } ∧
      (∀ q, q ≠ r.val → t.room q = s.room q) ∧ t = { s with rooms := t.rooms }) ∧
  (∀ (r : RoomIx) (s : State) (k : TloadEnt), (s.room r.val).tloads.find? (fun t => t.commit.isSome) = some k →
    (((s.eng k.eng).slot k.slot).bound = false ∨ (s.room r.val).holdsSlot k.eng k.slot = true) →
    ∃ t, exec (.tloadTransferEnd r) s = .next t ∧
      ((t.eng k.eng).slot k.slot).tile k.treg =
        (if k.commit = some true then k.data else ((s.eng k.eng).slot k.slot).tile k.treg) ∧
      (∀ i, i ≠ k.treg → ((t.eng k.eng).slot k.slot).tile i = ((s.eng k.eng).slot k.slot).tile i) ∧
      (t.room r.val).tloads = ((s.room r.val).tloads.filter fun u => u.num != k.num) ∧
      (∀ q, q ≠ r.val → t.room q = s.room q) ∧ t = { s with rooms := t.rooms, engs := t.engs }) ∧
  (∀ (r : Pipe) (f : CpWord) (s : State) (e : Nat), s.Executes r.val → f.sub = 3 → f.gc.val < 16 → f.gb = 0 →
    (s.room r.val).cop.eng = some e →
    (∀ k ∈ (s.room r.val).tloads, k.eng = e → k.slot = (s.room r.val).cop.slot → k.treg = f.gc.val → k.commit = some false) →
    dmOk (s.room r.val).core.fw (tileAddr (s.room r.val).core f) 16 = true →
    ∃ t, exec (.tstore r f) s = .next t ∧
      (∀ i, i < 16 → Mem.byte (t.room r.val).dmem (tileAddr (s.room r.val).core f + i) =
        BitVec.ofNat 8 ((((s.eng e).slot (s.room r.val).cop.slot).tile f.gc.val).toNat / 256 ^ i)) ∧
      (∀ b, b < tileAddr (s.room r.val).core f ∨ tileAddr (s.room r.val).core f + 16 ≤ b →
        Mem.byte (t.room r.val).dmem b = Mem.byte (s.room r.val).dmem b) ∧
      t.room r.val = s.committed r.val { (s.room r.val).core with pc := ((s.room r.val).core.pc + 4) % 0x8000 }
        (t.room r.val).dmem ∧
      (∀ q, q ≠ r.val → t.room q = s.room q) ∧ t = { s with rooms := t.rooms }) ∧
  (∀ (r : Pipe) (f : CpWord) (s : State), s.Executes r.val → f.sub = 2 → f.gc = 0 → f.imm.toNat < 8 →
    let c := (s.room r.val).core
    let va := ((c.rd f.gb.val).toNat % 2 ^ 25 * 2 ^ 32 + (c.rd f.ga.val).toNat) / 4096 * 4096
    ∃ t, exec (.tpref r f) s = .next t ∧
      t.room r.val = s.committed r.val { c with pc := (c.pc + 4) % 0x8000 } (s.room r.val).dmem ∧
      (∀ q, q ≠ r.val → t.room q = s.room q) ∧ t.engs = s.engs ∧ t.ms.mem = s.ms.mem ∧ t.ctxs = s.ctxs ∧
      t.latches = s.latches ∧
      (∀ pa s2, f.imm = 0 → s.xlate r.val c.ctx va false = (.ok pa, s2) → s2.isFar pa = false →
        (t.line (roomFloor r.val) (s2.foldAddr pa / 4096)).isSome = true))

/-- R352, R353, R356, R366: EISSUE numbers the command and sends for its descriptor, under a checker once it is compared; when the
read ends a legal descriptor enters the room for the bound slot, and an illegal one faults its call; EWAIT answers how the
ticket's command ended, and 2 for a ticket that the call has not issued. Tickets count the call's commands from zero (log 38), and
the engine field of an issued PLACE reads as zero (log 118), which are the model's choices. -/
def Obligations.IssuedCommandsEnterTheRoom : Prop :=
  (∀ (r : Pipe) (f : CpWord) (s : State) (e : Nat), s.Executes r.val → f.sub = 4 → f.gb = 0 → f.imm = 0 →
    (s.room r.val).cop.eng = some e → dmOk (s.room r.val).core.fw ((s.room r.val).core.rd f.ga.val).toNat 256 = true →
    (s.room r.val).outstanding (s.room r.val).level < 16 →
    ∃ t i, exec (.eissue r f) s = .next t ∧
      (s.hasChecker r.val = false → (t.room r.val).reading = (s.room r.val).reading ++ [i]) ∧
      (s.hasChecker r.val = true → (t.room r.val).held = (s.room r.val).held ++ [some (.read i)] ∧
        (t.room r.val).reading = (s.room r.val).reading) ∧
      i.ticket = (s.room r.val).cop.issued % 65536 ∧ i.addr = ((s.room r.val).core.rd f.ga.val).toNat ∧ i.eng = e ∧
      i.level = (s.room r.val).level ∧ i.ctx = (s.room r.val).core.ctx ∧ i.fw = (s.room r.val).core.fw ∧
      i.slot = (s.room r.val).cop.slot ∧ (t.room r.val).cop.issued = (s.room r.val).cop.issued + 1 ∧
      (t.room r.val).core = { (s.room r.val).core.wrG f.gc.val (BitVec.ofNat 32 ((s.room r.val).cop.issued % 65536)) with
        pc := ((s.room r.val).core.pc + 4) % 0x8000 } ∧
      (∀ q, q ≠ r.val → t.room q = s.room q) ∧ t = { s with rooms := t.rooms }) ∧
  (∀ (r : RoomIx) (s : State) (i : IssueRead) (rest : List IssueRead), (s.room r.val).reading = i :: rest →
    let desc := noEngine ((s.room r.val).issuedDesc i)
    (s.issueOk r.val desc = true → (∀ k ∈ (s.room r.val).cmds, k.seq ≠ (s.room r.val).nextSeq) →
      ∃ t d, exec (.issuedDescriptorReadEnd r) s = .next t ∧ (t.room r.val).cmds = (s.room r.val).cmds ++ [d] ∧
        d.desc = desc ∧ d.src = .issued i.level i.ticket ∧ d.ctx = i.ctx ∧ d.eng = some i.eng ∧ d.slot = i.slot ∧
        d.home = i.home ∧ d.st = .waiting ∧ (t.room r.val).reading = rest ∧ (∀ q, q ≠ r.val → t.room q = s.room q) ∧
        t = { s with rooms := t.rooms, nextOrd := s.nextOrd + 1 }) ∧
    (∀ k, s.issueOk r.val desc = false → i.level = 0 → i.ticket < 65536 →
      (s.room r.val).cmds.find? (fun c => dOpcode c.desc == 9 && c.st == .running) = some k →
      ∃ t, exec (.issuedDescriptorReadEnd r) s = .next t ∧ (∀ d ∈ (t.room r.val).cmds, d.seq = k.seq → d.fault.isSome = true) ∧
        (t.room r.val).reading = rest ∧ (∀ q, q ≠ r.val → t.room q = s.room q) ∧ t = { s with rooms := t.rooms })) ∧
  (∀ (r : Pipe) (f : CpWord) (s : State), s.Executes r.val → f.sub = 5 → f.gb = 0 → f.imm = 0 →
    let x := s.room r.val
    let k := (x.core.rd f.ga.val).toNat % 65536
    (x.ticketOpen x.level k = false →
      ∃ t v, exec (.ewait r f) s = .next t ∧
        s.CommitsTo t r.val { x.core.wrG f.gc.val (BitVec.ofNat 32 v) with pc := (x.core.pc + 4) % 0x8000 } ∧
        (x.cop.ended = [] → v = 2) ∧ (∀ st rest, x.cop.ended = (k, st) :: rest → v = st)) ∧
    (x.ticketOpen x.level k = true →
      ∃ t, exec (.ewait r f) s = .next t ∧ s.CommitsTo t r.val { x.core with wait := .ewait f.gc.val k }))

/-- R299 to R301, R352 to R354, R366: a write of LATCH_VAL sets the latch that the requester's LATCH_SEL names, and no other; LREAD
reads a latch, LSIG signals it, under a checker once it is compared, LWAIT goes on at once on a value that satisfies it and else
waits; at routine level a latch outside the context's range is a fault. -/
def Obligations.LatchesAreSetReadSignalledAndAwaited : Prop :=
  (∀ (w : BusWr) (s : State), s.running = true → w.be = 0xF#4 →
    ∃ t, exec (.latchValWrite w) s = .next t ∧
      t.latchVal (s.fget (F.LATCH_SEL.LATCH.forReq w.req)) = w.val ∧
      (∀ l, l ≠ s.fget (F.LATCH_SEL.LATCH.forReq w.req) → t.latchVal l = s.latchVal l) ∧
      t.engs = s.engs ∧ t.ctxs = s.ctxs ∧ t.ms = s.ms ∧ t.arbs = s.arbs ∧
      (s.fget (F.LATCH_SEL.LATCH.forReq w.req) < 15360 → s.flag F.PW_CTRL.MODE = false →
        t = { s with latches := t.latches, rooms := t.rooms })) ∧
  (∀ (r : Pipe) (f : CpWord) (s : State), s.Executes r.val →
    let c := (s.room r.val).core
    let l := (c.rd f.ga.val).toNat % 2 ^ 14
    let x := (c.rd f.gb.val).toNat
    let next := (c.pc + 4) % 0x8000
    ((c.fw = true ∨ s.latchIn c.ctx l = true) →
      (f.sub = 8 → f.gb = 0 → f.imm = 0 → ∃ t, exec (.lread r f) s = .next t ∧
        s.CommitsTo t r.val { c.wrG f.gc.val (s.latchVal l) with pc := next }) ∧
      (f.sub = 7 → f.imm = 2 ∨ f.imm = 3 → latchHolds f.imm.toNat (s.latchVal l) x = true →
        ∃ t, exec (.lwait r f) s = .next t ∧ s.CommitsTo t r.val { c.wrG f.gc.val (s.latchVal l) with pc := next }) ∧
      (f.sub = 7 → f.imm = 2 ∨ f.imm = 3 → latchHolds f.imm.toNat (s.latchVal l) x = false →
        ∃ t, exec (.lwait r f) s = .next t ∧ s.CommitsTo t r.val { c with wait := .lwait f.gc.val l f.imm.toNat x }) ∧
      (f.sub = 6 → f.gc = 0 → f.imm = 1 ∨ f.imm = 2 → s.hasChecker r.val = false →
        ∃ t, exec (.lsig r f) s = .next t ∧
          t.latchVal l = signalVal f.imm.toNat (s.latchVal l) x ∧ (∀ m, m ≠ l → t.latchVal m = s.latchVal m) ∧
          (t.room r.val).core.pc = next ∧ t.engs = s.engs ∧ t.ctxs = s.ctxs ∧ t.ms = s.ms) ∧
      (f.sub = 6 → f.gc = 0 → f.imm = 1 ∨ f.imm = 2 → s.hasChecker r.val = true →
        ∃ t, exec (.lsig r f) s = .next t ∧ t.latches = s.latches ∧ (t.room r.val).core.pc = next ∧
          (t.room r.val).held = (s.room r.val).held ++ [some (.signal f.imm.toNat l x)] ∧ t.coreRuns r.val = false ∧
          (∀ q, q ≠ r.val → t.room q = s.room q) ∧ t = { s with rooms := t.rooms })) ∧
    (c.fw = false → s.latchIn c.ctx l = false →
      let faults := fun (i : Instr) => exec i s = .next (s.coFault r (FaultInfo.mk0 causeLatchRange))
      (f.sub = 8 → f.gb = 0 → f.imm = 0 → faults (.lread r f)) ∧
      (f.sub = 7 → f.imm = 2 ∨ f.imm = 3 → faults (.lwait r f)) ∧ (f.sub = 6 → f.gc = 0 → f.imm.toNat < 3 → faults (.lsig r f))))

/-! ### Lockstep and routine store -/

/-- R365 to R371: a comparison moves the checker on and releases the oldest committed action; a difference, rails that are not
complementary, a parity error or a failed injection stops the checker and marks the room unverified; a passing injection is
recorded. -/
def Obligations.LockstepComparesAndLosesTheChecker : Prop :=
  (∀ (r : RoomIx) (m : CommitRec) (s : State) (a : Option HeldAct) (rest : List (Option HeldAct)) (d : CoreSt × FMap Byte)
    (ds : List (CoreSt × FMap Byte)), s.coresOn r.val = true → s.hasChecker r.val = true → (s.room r.val).held = a :: rest →
    (s.room r.val).delay = d :: ds →
    let x := { s.room r.val with held := rest, delay := ds, chkCore := d.1, chkMem := d.2 }
    ∃ t, exec (.lockstepCompare r m m true true) s = .next t ∧
      (a = none → t.room r.val = x) ∧
      (∀ i, a = some (.read i) → t.room r.val = { x with reading := x.reading ++ [i] }) ∧
      (∀ n, a = some (.tload n) → t.room r.val =
        { x with tloads := x.tloads.map fun k => if k.num = n then { k with commit := some true } else k }) ∧
      (∀ v, a = some (.ret v) → t.room r.val = { x with callSt := x.callSt.map fun k => { k with ret := some v } }) ∧
      (a = some .sys → t.room r.val = x) ∧
      (∀ op l v, a = some (.signal op l v) → op = 1 ∨ op = 2 → t.latchVal l = signalVal op (s.latchVal l) v ∧
        (∀ k, k ≠ l → t.latchVal k = s.latchVal k) ∧ (t.room r.val).held = rest) ∧
      ((∀ op l v, a ≠ some (.signal op l v)) → (∀ gc le, a ≠ some (.esel gc le)) →
        (∀ q, q ≠ r.val → t.room q = s.room q) ∧ t = { s with rooms := t.rooms })) ∧
  (∀ (r : RoomIx) (m k : CommitRec) (rails parity : Bool) (s : State), s.coresOn r.val = true → s.hasChecker r.val = true →
    (m ≠ k ∨ rails = false ∨ parity = false) →
    ∃ t, exec (.lockstepCompare r m k rails parity) s = .next t ∧ t.fget (F.CC_ROLE.CHECK r.val) = 3 ∧
      t.flag (F.CC_ROLE.UNVERIFIED r.val) = true ∧ (t.room r.val).held = [] ∧
      t.reg (Off.LS_UNVER_LO r.val) = s.ts.setWidth 32 ∧
      (m ≠ k → rails = true → bitAt (t.reg (Off.LS_STATUS r.val)).toNat 0 = true) ∧
      (rails = false → bitAt (t.reg (Off.LS_STATUS r.val)).toNat 1 = true) ∧
      (parity = false → bitAt (t.reg (Off.LS_STATUS r.val)).toNat 2 = true)) ∧
  (∀ (r : RoomIx) (s : State), s.coresOn r.val = true → s.hasChecker r.val = true →
    ∃ t, exec (.lockstepInjection r true) s = .next t ∧ t.reg (Off.LS_INJECT_LAST r.val) = s.ts.setWidth 32 ∧
      (∀ k, k ≠ Off.LS_INJECT_LAST r.val → t.reg k = s.reg k) ∧ t = { s with regs := t.regs }) ∧
  (∀ (r : RoomIx) (s : State), s.coresOn r.val = true → s.hasChecker r.val = true →
    ∃ t, exec (.lockstepInjection r false) s = .next t ∧ t.fget (F.CC_ROLE.CHECK r.val) = 3 ∧
      t.flag (F.CC_ROLE.UNVERIFIED r.val) = true)

/-- R372, R373: an accepted swap takes a core out of service and joins the spare, which is checker from the next top-level entry
after its copy; without a loss it is refused. A stopped checker that becomes main goes on at the executing call's place with its
own registers and data memory, which is the model's choice (log 66). -/
def Obligations.SparesAreSwappedInOrRefused : Prop :=
  (∀ (r : RoomIx) (w : BusWr) (s : State), s.Reached w (Off.LS_CTRL r.val) → s.holdsKey w.req = true →
    bitAt w.val.toNat 0 = true → s.flag (F.CC_ROLE.UNVERIFIED r.val) = true → s.fget (F.CC_ROLE.SPARE r.val) ≠ 3 →
    s.flag (F.CC_ROLE.JOINING r.val) = false →
    ∃ t, exec (.swapReq r w) s = .next t ∧ t.flag (F.CC_ROLE.JOINING r.val) = true ∧
      t.flag (F.LS_CTRL.SWAP_REQ r.val) = true ∧ (t.room r.val).copied = false ∧
      (t.room r.val).outOfSvc.length = (s.room r.val).outOfSvc.length + 1 ∧
      (bitAt w.val.toNat 1 = true → t.fget (F.CC_ROLE.MAIN r.val) = s.fget (F.CC_ROLE.MAIN r.val) ∧
        (t.room r.val).core = (s.room r.val).core ∧ (t.room r.val).dmem = (s.room r.val).dmem) ∧
      (bitAt w.val.toNat 1 = false → t.fget (F.CC_ROLE.MAIN r.val) = s.stoppedCore r.val ∧
        (t.room r.val).core = { (s.room r.val).core with g := (s.room r.val).chkCore.g } ∧
        (t.room r.val).dmem = (s.room r.val).chkMem) ∧
      (∀ q, q ≠ r.val → t.room q = s.room q) ∧
      t = { s with regs := t.regs, rooms := t.rooms } ∧
      s.RegsOnly t [F.LOCK_STATUS.OPEN, F.LS_CTRL.SWAP_OUT r.val, F.LS_CTRL.SWAP_REQ r.val, F.CC_ROLE.MAIN r.val,
        F.CC_ROLE.JOINING r.val]) ∧
  (∀ (r : RoomIx) (w : BusWr) (s : State), s.Reached w (Off.LS_CTRL r.val) → s.holdsKey w.req = true →
    bitAt w.val.toNat 0 = true → (s.flag (F.CC_ROLE.UNVERIFIED r.val) = false ∨ s.fget (F.CC_ROLE.SPARE r.val) = 3 ∨
      s.flag (F.CC_ROLE.JOINING r.val) = true) →
    ∃ t, exec (.swapReq r w) s = .next t ∧ t.flag (F.LS_STATUS.SWAP_REFUSED r.val) = true ∧ t.rooms = s.rooms ∧
      s.RegsOnly t [F.LOCK_STATUS.OPEN, F.LS_CTRL.SWAP_OUT r.val, F.LS_STATUS.SWAP_REFUSED r.val]) ∧
  (∀ (r : RoomIx) (s : State), s.coresOn r.val = true → s.flag (F.CC_ROLE.JOINING r.val) = true →
    (∃ t, exec (.swapCopyEnd r) s = .next t ∧
      t.room r.val = { s.room r.val with copied := true, spareMem := (s.room r.val).dmem } ∧
      (∀ q, q ≠ r.val → t.room q = s.room q) ∧ t = { s with rooms := t.rooms }) ∧
    ((s.room r.val).copied = true → s.mayEnter r.val = true →
      ∃ t, exec (.serviceEntry r []) s = .next t ∧ t.flag (F.CC_ROLE.JOINING r.val) = false ∧
        t.flag (F.CC_ROLE.UNVERIFIED r.val) = false ∧ t.fget (F.CC_ROLE.CHECK r.val) = s.fget (F.CC_ROLE.SPARE r.val) ∧
        t.fget (F.CC_ROLE.SPARE r.val) = 3 ∧ t.flag (F.LS_STATUS.SWAP_DONE r.val) = true ∧
        t.flag (F.LS_CTRL.SWAP_REQ r.val) = false))

/-- R376, R377, R378, R379: the window writes one word of the inactive bank, and drops it while a swap checks or drains; a swap
checks that bank's CRC, flips on a match and else only reports; the drain ends when no call remains on the old bank, and with it
what a debug write left undefined, if the bank came in after it; a debug write changes its word of the active bank. -/
def Obligations.RoutineStoreIsWrittenCheckedAndFlipped : Prop :=
  (∀ (r : RoomIx) (word : BitVec 13) (w : BusWr) (s : State), s.Reached w (roomBase r.val + 0x18000 + 4 * word.toNat) →
    s.roomOut r.val = false →
    ((s.room r.val).checking = false → s.flag (F.RS_CTRL.DRAINING r.val) = false →
      ∃ t, exec (.routineStoreWindowWrite r word w) s = .next t ∧
        (∀ i, i < 4 → Mem.byte ((t.room r.val).bank (s.inactive r.val)) (4 * word.toNat + i) =
          BitVec.ofNat 8 (w.val.toNat / 256 ^ i)) ∧
        (∀ b, b < 4 * word.toNat ∨ 4 * word.toNat + 4 ≤ b →
          Mem.byte ((t.room r.val).bank (s.inactive r.val)) b = Mem.byte ((s.room r.val).bank (s.inactive r.val)) b) ∧
        (t.room r.val).bank (s.fget (F.RS_CTRL.ACTIVE r.val)) = (s.room r.val).bank (s.fget (F.RS_CTRL.ACTIVE r.val)) ∧
        (∀ q, q ≠ r.val → t.room q = s.room q) ∧ t = { s with rooms := t.rooms }) ∧
    ((s.room r.val).checking = true ∨ s.flag (F.RS_CTRL.DRAINING r.val) = true →
      exec (.routineStoreWindowWrite r word w) s = .next (s.fset (F.RS_CTRL.WRITE_DROP r.val) 1))) ∧
  (∀ (r : RoomIx) (w : BusWr) (s : State), s.Reached w (Off.RS_CTRL r.val) → bitAt w.val.toNat 1 = true →
    s.roomPowered r.val = true → bitAt w.val.toNat 3 = false → bitAt w.val.toNat 5 = false →
    ((s.room r.val).checking = false → s.flag (F.RS_CTRL.DRAINING r.val) = false →
      ∃ t, exec (.swap r w) s = .next t ∧ t.flag (F.RS_CTRL.SWAP r.val) = true ∧
        t.room r.val = { s.room r.val with checking := true } ∧ (∀ q, q ≠ r.val → t.room q = s.room q) ∧
        t = { s with regs := t.regs, rooms := t.rooms } ∧ (∀ k, k ≠ Off.RS_CTRL r.val → t.reg k = s.reg k)) ∧
    ((s.room r.val).checking = true ∨ s.flag (F.RS_CTRL.DRAINING r.val) = true →
      ∃ t, exec (.swap r w) s = .next t ∧ t.flag (F.RS_CTRL.SWAP_REFUSED r.val) = true ∧ t = { s with regs := t.regs } ∧
        (∀ k, k ≠ Off.RS_CTRL r.val → t.reg k = s.reg k))) ∧
  (∀ (r : RoomIx) (s : State), (s.room r.val).checking = true → s.roomPowered r.val = true →
    ∃ t, exec (.swapCheckEnd r) s = .next t ∧ (t.room r.val).checking = false ∧
      (bankCrc ((s.room r.val).bank (s.inactive r.val)) = s.reg (Off.RS_CRC r.val) →
        t.fget (F.RS_CTRL.ACTIVE r.val) = s.inactive r.val % 2 ∧ t.flag (F.RS_CTRL.DRAINING r.val) = true) ∧
      (bankCrc ((s.room r.val).bank (s.inactive r.val)) ≠ s.reg (Off.RS_CRC r.val) →
        t.fget (F.RS_CTRL.ACTIVE r.val) = s.fget (F.RS_CTRL.ACTIVE r.val) ∧ t.flag (F.RS_CTRL.CRC_ERR r.val) = true) ∧
      (t.room r.val).bank0 = (s.room r.val).bank0 ∧ (t.room r.val).bank1 = (s.room r.val).bank1 ∧
      (∀ q, q ≠ r.val → t.room q = s.room q) ∧ t = { s with regs := t.regs, rooms := t.rooms }) ∧
  (∀ (r : RoomIx) (s : State), s.flag (F.RS_CTRL.DRAINING r.val) = true → s.roomPowered r.val = true →
    (s.room r.val).runsOn (s.inactive r.val) = false →
    ∃ t, exec (.drainingEnd r) s = .next t ∧ t.flag (F.RS_CTRL.DRAINING r.val) = false ∧
      t.room r.val = { s.room r.val with
        undef := (s.room r.val).undef && !(s.room r.val).undefSwap, undefSwap := false } ∧
      (∀ q, q ≠ r.val → t.room q = s.room q) ∧ t = { s with regs := t.regs, rooms := t.rooms } ∧
      s.RegsOnly t [F.RS_CTRL.DRAINING r.val]) ∧
  (∀ (r : RoomIx) (word : BitVec 13) (v : W32) (s : State), s.roomPowered r.val = true →
    ∃ t, exec (.debugPathWrite r word v) s = .next t ∧ (t.room r.val).undef = true ∧
      (∀ i, i < 4 → Mem.byte ((t.room r.val).bank (s.fget (F.RS_CTRL.ACTIVE r.val))) (4 * word.toNat + i) =
        BitVec.ofNat 8 (v.toNat / 256 ^ i)) ∧
      (∀ q, q ≠ r.val → (t.room q).dmem = (s.room q).dmem ∧ (t.room q).core = (s.room q).core))

/-! ### Data moves and computation -/

/-- R307, R308, R312, R321, R325, R356, R393, R397, R398: a legal move whose structures translate becomes a stream of its engine
with the blocks of its pieces in order, retained or released as its flags say, and its work has begun; a structure that does not
translate gives a stream that waits for it; a move over nothing completes with NO_WRITE, and an illegal one that a routine issued
faults its call. Memory, latches and contexts are not touched before the blocks issue. A free value stands for a structure in
another package's memory (assumption log 23) and for scale bytes that no rule states. -/
def Obligations.DataMovesBecomeStreams : Prop :=
  (∀ (c : CmdRef) (s : State) (d : RoomCmd) (e : Nat) (wr : Bool), s.startable c (if wr then 4 else 3) = some (d, e) →
    let r := c.room.val
    let pl := if dPlist d.desc then s.readOrPark r d.ctx (dAgenWord d.desc) (16 * dRepeat d.desc) else ((SRead.empty, none), s)
    let l := mvInsts d (leOfList pl.1.1.bytes)
    let m := pl.2.readMoves r d e l
    let p := m.2.mvBlocks r d e m.1 l
    let legal := !d.badRec && moveWordsOk d.desc && agenOk d.desc d.aff.toNat &&
      l.all fun i => mvLegal wr d.desc (m.1.tdOf i) i d.colsOf
    pl.1.2 = none →
    (∀ va, m.1.wait = some va →
      ∃ t st, exec (if wr then .store c else .load c) s = .next t ∧ (t.eng e).streams = (s.eng e).streams ++ [st] ∧ st.cmd = d.seq ∧
        st.blocks = [{ va := va * 8, loc := 0, nbits := 8, space := 0, kind := .look }] ∧ t.cmd c = some { d with started := true } ∧
        t.ms.mem = s.ms.mem ∧ (∀ q, q ≠ r → t.room q = s.room q) ∧ (∀ g, g ≠ e → t.eng g = s.eng g)) ∧
    (m.1.wait = none → m.1.bad = false → pl.1.1.bad = false →
      (legal = false → d.isIssued = true →
        ∃ t, exec (if wr then .store c else .load c) s = .next t ∧ t.engs = s.engs ∧ t.ms.mem = s.ms.mem ∧ t.cmd c =
          some { d with started := true, fault := some { FaultInfo.mk0 causeRoutine with detail := some 6 } }) ∧
      (legal = true → (d.colsOf = 0 ∨ ∀ i ∈ l, i.rows = 0) →
        ∃ t, exec (if wr then .store c else .load c) s = .next t ∧ t.cmd c = some { d with st := .done, started := true, noWrite := true } ∧ t.engs = s.engs ∧
          t.ms.mem = s.ms.mem ∧ (∀ q, q ≠ r → t.room q = s.room q) ∧ t.outbox = s.outbox) ∧
      (legal = true → d.colsOf ≠ 0 → (∃ i ∈ l, i.rows ≠ 0) → p.1 ≠ [] →
        ∃ t st, exec (if wr then .store c else .load c) s = .next t ∧ (t.eng e).streams = (s.eng e).streams ++ [st] ∧
          st.cmd = d.seq ∧ st.ctx = d.ctx ∧ st.isWrite = wr ∧ st.blocks = p.1 ∧ st.flight = [] ∧ st.park = none ∧
          st.err = p.2 ∧ st.retain = (!wr && bitAt (dLflags d.desc) 0) ∧ st.release = (!wr && bitAt (dLflags d.desc) 1) ∧
          t.cmd c = some { d with started := true } ∧ (∀ q, q ≠ r → t.room q = s.room q) ∧
          (∀ g, g ≠ e → t.eng g = s.eng g) ∧ t.ms.mem = s.ms.mem ∧ t.ctxs = s.ctxs ∧ t.latches = s.latches ∧
          t.outbox = s.outbox))) ∧
  (∀ (c : CmdRef) (s : State) (d : RoomCmd) (e : Nat) (wr : Bool), s.startable c (if wr then 6 else 5) = some (d, e) →
    let r := c.room.val
    let p := s.readOrPark r d.ctx (dTd d.desc) 64
    let td := Tensor.of (leOfList p.1.1.bytes)
    let legal := gatherOk d td && (List.range (dRepeat d.desc)).all fun n =>
      moveBaseOk (dGSpace d.desc) ((gatherRegs d n).getD 0 0) (dGSize d.desc)
    let ix := p.2.readIdx r d
    let q := allGs d td ix.1.1 (List.range (dRepeat d.desc))
    let bs := blocksOf (dGSpace d.desc) (joinPieces q.1)
    p.1.2 = none → p.1.1.bad = false →
    (legal = true → d.idxCount = 0 →
      ∃ t, exec (if wr then .scatter c else .gather c) s = .next t ∧ t.cmd c = some { d with st := .done, started := true, noWrite := true } ∧ t.engs = s.engs ∧
        t.ms.mem = s.ms.mem ∧ (∀ q, q ≠ r → t.room q = s.room q) ∧ t.outbox = s.outbox) ∧
    (legal = true → d.idxCount ≠ 0 → ix.1.2 = none → bs ≠ [] →
      ∃ t st, exec (if wr then .scatter c else .gather c) s = .next t ∧ (t.eng e).streams = (s.eng e).streams ++ [st] ∧
        st.cmd = d.seq ∧ st.ctx = d.ctx ∧ st.isWrite = wr ∧ st.blocks = bs ∧ st.flight = [] ∧ st.park = none ∧
        st.err = q.2 ∧ t.cmd c = some { d with started := true } ∧ (∀ q, q ≠ r → t.room q = s.room q) ∧
        (∀ g, g ≠ e → t.eng g = s.eng g) ∧ (wr = true → (t.eng e).buf = (s.eng e).buf ∧ (t.room r).store = (s.room r).store) ∧
        t.ms.mem = s.ms.mem ∧ t.ctxs = s.ctxs ∧ t.latches = s.latches ∧ t.outbox = s.outbox))

/-- R47, R193, R207, R221, R271, R308, R319, R321, R421: a legal MATMUL runs its instances in order in its engine, breaks off after
the K-steps that it is given, and is done when none of them faults and no record of it waits for the floor stage; over no rows or
columns it is done without a write; a HALO whose strips all lie inside its regions and that no command of the destination room
races is done. Neither touches another engine or memory. In what order the packs of PASS PACKED run and at which K-steps a MATMUL
can break off are the model's readings (assumption logs 87 and 91), as is what counts as a race (assumption log 85). -/
def Obligations.ComputationsFinishInTheirEngine : Prop :=
  (∀ (c : CmdRef) (n : Option Nat) (s : State) (d : RoomCmd) (e : Nat), s.matmulGoes c = some (d, e) →
    s.arrayFree c.room.val e d = true →
    let m := s.mmOf c.room.val d e
    let p := s.mmInsts m
    let l := p.1.1
    let empty := m.n == 0 || (l.all fun i => i.m == 0) || ((m.ec.cont || m.ec.hold) && (dM d.desc == 0 || dN d.desc == 0))
    let from' := match d.prog with
      | some k => (s, k)
      | none => (p.2, MmProg.start l)
    let q := m.runInsts (from'.2.insts.drop from'.2.inst)
      { s := from'.1, p := { from'.2 with wait := false }, pass := from'.2.done, fuel := n, halt := false, err := none }
    (d.prog = none → p.1.2 = false ∧ m.fixedOk = true ∧ (m.ep.mortar = true → p.2.mergeMine m = true)) →
    (∀ k, d.prog = some k → k.ended = false) →
    ((d.prog = none → empty = false) → q.2 = true → q.1.err = none →
      ∃ t, exec (.matmul { ref := c, upto := n }) s = .next t ∧
        (q.1.halt = true → t.cmd c = some { d with started := true, prog := some { q.1.p with ended := false } }) ∧
        (q.1.halt = false → q.1.p.bad = false → (∀ k ∈ (q.1.s.eng e).recs, m.ec.slots.contains k.slot = false) →
          t.cmd c = some { d with st := .done, started := true, prog := none }) ∧
        (q.1.halt = false → q.1.p.bad = false → (∃ k ∈ (q.1.s.eng e).recs, m.ec.slots.contains k.slot = true) →
          t.cmd c = some { d with started := true, prog := some { q.1.p with wait := true, ended := true } }) ∧
        (q.1.halt = true ∨ q.1.p.bad = false →
          t.eng e = q.1.s.eng e ∧ (∀ g, g ≠ e → t.eng g = s.eng g) ∧ (∀ r, r ≠ c.room.val → t.room r = s.room r) ∧
          t.ms.mem = s.ms.mem ∧ t.ctxs = s.ctxs ∧ t.latches = s.latches ∧ t.mo = s.mo ∧ t.link = s.link ∧
          t.outbox = s.outbox)) ∧
    (d.prog = none → empty = true → l.all m.basesOk = true → ∃ t, exec (.matmul { ref := c, upto := n }) s = .next t ∧
      t.cmd c = some { d with st := .done, started := true, noWrite := true } ∧ t.engs = s.engs ∧
      (∀ r, r ≠ c.room.val → t.room r = s.room r) ∧ t.ms.mem = s.ms.mem ∧ t.ctxs = s.ctxs ∧ t.outbox = s.outbox)) ∧
  (∀ (c : CmdRef) (s : State) (d : RoomCmd) (e e2 : Nat), s.startable c 7 = some (d, e) → d.dst = some e2 →
    haloOk d = true →
    let q := State.haloInsts d e e2 (List.range (dRepeat d.desc)) s
    q.2 = none → (engRoom e2 = c.room.val ∨ q.1.haloRivals d e2 = []) →
    ∃ t, exec (.halo c) s = .next t ∧ t.cmd c = some { d with st := .done, started := true } ∧
      t.eng e2 = q.1.eng e2 ∧ (∀ g, g ≠ e2 → t.eng g = s.eng g) ∧ (∀ r, r ≠ c.room.val → t.room r = s.room r) ∧
      t = { s with rooms := t.rooms, engs := t.engs, freeCtr := t.freeCtr })

/-! ### The mortar tree -/

/-- R268, R269, R271 to R279, R356: MORTAR_OPEN opens the object that its control block names; each stage takes its oldest record,
adds it to the entry of its key or makes one, and forwards what its table has no room for or what has waited too long; a slot
whose records are all accepted is free; a record meets its entry of the merge's area, completes a row or the merge, or is one that
faults it or leaves for its home. What the bytes of the mortar area hold (assumption log 88) and which outputs are unspecified
after a record whose merge is not open (assumption log 117) are the model's choices. -/
def Obligations.MergeRecordsClimbTheTree : Prop :=
  (∀ (c : CmdRef) (s : State) (d : RoomCmd), s.plainStart c 8 = some d →
    let p := s.readVa c.room.val d.ctx (dMcb d.desc) 64
    let b : BitVec 512 := BitVec.ofNat 512 (leOfList p.1.bytes)
    let m : Merge := { cmd := c, ctx := d.ctx, mtag := dTag d.desc, mcb := b, got := 0, entries := [], written := [], bad := false }
    let s1 := (p.2.updCmd c.room.val d.seq fun k => { k with started := true }).setMerge (mcbMerge b) (some m)
    (openLegal d.desc = true → mcbOk b = true → s1.expectedAll m ≠ 0 →
      ∃ t, exec (.mortarOpen c) s = .next t ∧ t.merge (mcbMerge b) = some m ∧
        (∀ k, k ≠ mcbMerge b → t.merge k = s.merge k) ∧ t.cmd c = some { d with started := true } ∧
        (∀ r, r ≠ c.room.val → t.room r = s.room r) ∧ t.engs = s.engs ∧ t.ms.mem = s.ms.mem ∧ t.ctxs = s.ctxs ∧
        t.outbox = s.outbox) ∧
    (openLegal d.desc = true → mcbOk b = true → s1.expectedAll m = 0 →
      ∃ t, exec (.mortarOpen c) s = .next t ∧ t.merge (mcbMerge b) = none ∧
        t.cmd c = some { d with st := .done, started := true }) ∧
    (openLegal d.desc = false ∨ mcbOk b = false → d.isIssued = true →
      ∃ t, exec (.mortarOpen c) s = .next t ∧ t.mo = s.mo ∧ t.ms.mem = s.ms.mem ∧ t.cmd c =
        some { d with started := true, fault := some { FaultInfo.mk0 causeRoutine with detail := some 6 } })) ∧
  (∀ (e : EngIx) (s : State) (q : EngineRec) (rest : List EngineRec), s.running = true → (s.eng e.val).recs = q :: rest →
    ∃ t, exec (.engineRecord e) s = .next t ∧ (t.eng e.val).recs = rest ∧
      ((∀ k ∈ rest, k.slot ≠ q.slot) → (t.eng e.val).accSlot q.slot = AccSlot.reset) ∧
      ((∃ k ∈ rest, k.slot = q.slot) → t.rooms = s.rooms ∧ (t.eng e.val).acc = (s.eng e.val).acc) ∧
      (s.openFor q.merge q.ctx = false → t.mo = s.mo) ∧
      (s.openFor q.merge q.ctx = true →
        let p := tabPut (s.floorTabOf (engFloor e.val)) 2048 q.toMerge
        t.floorTabOf (engFloor e.val) = p.1 ∧
        t.mo.dieIn.get (fun _ => []) (engDie e.val) = s.mo.dieIn.get (fun _ => []) (engDie e.val) ++ p.2 ∧
        (∀ f, f ≠ engFloor e.val → t.floorTabOf f = s.floorTabOf f)) ∧
      (∀ g, g ≠ e.val → t.eng g = s.eng g) ∧
      t = { s with rooms := t.rooms, engs := t.engs, mo := { s.mo with floorTab := t.mo.floorTab, dieIn := t.mo.dieIn } }) ∧
  (∀ (d : DieIx) (s : State) (q : MergeRec) (rest : List MergeRec), s.running = true →
    s.mo.dieIn.get (fun _ => []) d.val = q :: rest →
    ∃ t, exec (.dieStageRecord d) s = .next t ∧ t.mo.dieIn.get (fun _ => []) d.val = rest ∧
      t.dieTabOf d.val = (tabPut (s.dieTabOf d.val) 4096 q).1 ∧
      t.mo.pkgIn = s.mo.pkgIn ++ (tabPut (s.dieTabOf d.val) 4096 q).2 ∧
      t = { s with mo := { s.mo with dieIn := t.mo.dieIn, dieTab := t.mo.dieTab, pkgIn := t.mo.pkgIn } }) ∧
  (∀ (f : FloorIx) (k : MergeKey) (s : State), s.running = true →
    ∃ t, exec (.mortarForwardTimeout (.floor f) k) s = .next t ∧
      t.floorTabOf f.val = (s.floorTabOf f.val).filter (fun y => y.key != k) ∧
      t.mo.dieIn.get (fun _ => []) (f.val / 3) =
        s.mo.dieIn.get (fun _ => []) (f.val / 3) ++ (s.floorTabOf f.val).filter (fun y => y.key == k) ∧
      t = { s with mo := { s.mo with floorTab := t.mo.floorTab, dieIn := t.mo.dieIn } }) ∧
  (∀ (d : DieIx) (k : MergeKey) (s : State), s.running = true →
    ∃ t, exec (.mortarForwardTimeout (.die d) k) s = .next t ∧
      t.dieTabOf d.val = (s.dieTabOf d.val).filter (fun y => y.key != k) ∧
      t.mo.pkgIn = s.mo.pkgIn ++ (s.dieTabOf d.val).filter (fun y => y.key == k) ∧
      t = { s with mo := { s.mo with dieTab := t.mo.dieTab, pkgIn := t.mo.pkgIn } }) ∧
  (∀ (s : State) (r : MergeRec) (rest : List MergeRec) (m : Merge), s.running = true → s.mo.pkgIn = r :: rest →
    s.merge r.key.merge.val = some m → m.ctx = r.ctx →
    let k := r.key.merge.val
    let s0 := { s with mo := { s.mo with pkgIn := rest } }
    let fault := fun (cause : Nat) => ∃ t, exec .packageStageRecord s = .next t ∧ t.merge k = none ∧
      (∀ j, j ≠ k → t.merge j = s.merge j) ∧
      t.cmd m.cmd = (s.cmd m.cmd).map fun c => { c with started := true, fault := some (FaultInfo.mk0 cause) }
    (r.key.token.toNat < mcbLo m.mcb ∨ mcbHi m.mcb ≤ r.key.token.toNat →
      (mcbScope m.mcb ≠ 1 → fault 4) ∧
      (mcbScope m.mcb = 1 → ∃ t, exec .packageStageRecord s = .next t ∧ t.mo = { s.mo with pkgIn := rest } ∧
        t.rooms = s.rooms ∧ t.engs = s.engs ∧ t.ms.mem = s.ms.mem ∧ t.ctxs = s.ctxs)) ∧
    (mcbLo m.mcb ≤ r.key.token.toNat → r.key.token.toNat < mcbHi m.mcb →
      (mcbSlabs m.mcb ≤ r.key.slab → fault 5) ∧
      (r.key.slab < mcbSlabs m.mcb →
        let x := s0.expected m r.key.token.toNat
        let y := match m.entries.find? fun z => z.key == r.key with
          | some o => o.add r
          | none => r
        let m1 := { m with got := m.got + r.count, entries := (m.entries.filter fun z => z.key != r.key) ++ [y]
                           written := if y.count = x then m.written ++ [(r.key.token.toNat - mcbLo m.mcb, r.key.slab)] else m.written }
        let s1 := (s0.areaWrite m r.key).setMerge k (some m1)
        let s2 := if y.count = x then s1.writeMergeRow m1 r.key.token.toNat r.key.slab y.value else s1
        (x < y.count → fault 3) ∧
        (y.count ≤ x → m1.got ≠ s2.expectedAll m1 → ∃ t, exec .packageStageRecord s = .next t ∧ t.merge k = some m1 ∧
          (∀ j, j ≠ k → t.merge j = s.merge j) ∧ t.mo.pkgIn = rest ∧ t.ms.mem = s2.ms.mem ∧ t.rooms = s.rooms ∧ t.engs = s.engs ∧
          t.ctxs = s.ctxs) ∧
        (y.count ≤ x → m1.got = s2.expectedAll m1 → ∃ t, exec .packageStageRecord s = .next t ∧ t.merge k = none ∧
          (∀ j, j ≠ k → t.merge j = s.merge j) ∧
          t.cmd m.cmd = (s.cmd m.cmd).map fun c => { c with st := .done, started := true })))) ∧
  (∀ (s : State) (r : MergeRec) (rest : List MergeRec), s.running = true → s.mo.pkgIn = r :: rest →
    s.openFor r.key.merge.val r.ctx = false →
    let s0 := { s with mo := { s.mo with pkgIn := rest } }
    exec .packageStageRecord s = .next (s0.senderUndef r.ctx) ∧
    ((∀ p ∈ s.mo.merges, ∀ m, p.2 = some m → m.ctx ≠ r.ctx) → exec .packageStageRecord s = .next s0))

/-! ### Streams -/

/-- R325, R329, R393, R398, R399, R403, R411, R416: the head block of a stream whose context runs becomes a fill request, issues when
its address is known, its floor cache answering where it holds the bytes, or waits for its walk; a walk ends with the block in
flight, or parks the stream with its fault. What a firmware stream does where a tenant's would park is the model's choice
(assumption log 106). -/
def Obligations.StreamBlocksIssueOrPark : Prop :=
  (∀ (x : StreamRef) (s : State) (st : Stream) (c : RoomCmd) (b : Block) (rest : List Block), s.stream x = some st →
    s.streamCmd x st = some c → st.blocks = b :: rest → s.mayIssue x st = true →
    let use := s.usedBy (engRoom x.eng.val) st.ctx (b.va / 8)
    let pa := vaBits (b.va / 8)
    let bit := pa * 8 + b.va % 8
    let hit := if st.isWrite then none else s.lineHit (engFloor x.eng.val) (s.foldAddr pa) (blockSpan bit b.nbits).2
    let sent := fun (reach : Reach) => { st with blocks := rest, nextK := st.nextK + 1, flight := st.flight ++
      [{ k := st.nextK, blk := b, pa := bit, reach := reach, use := use }] }
    ((∀ n, b.kind ≠ .fill n) → s.cached (engRoom x.eng.val) st.ctx (b.va / 8) = false →
      ∃ t, exec (.streamBlockIssue x) s = .next t ∧ t.stream x = some { st with walking := true } ∧
        (∀ g, g ≠ x.eng.val → t.eng g = s.eng g) ∧ t = { s with engs := t.engs }) ∧
    ((∀ n, b.kind ≠ .fill n) → st.ctx = fwCtx → st.resumed = false → s.isFar pa = false →
      (st.isWrite = true → s.wallBlocks pa (blockSpan (b.va % 8) b.nbits).2 = false) →
      (∀ h, hit = some h → ∃ t, exec (.streamBlockIssue x) s = .next t ∧ t.stream x = some (sent (.floor h.1 h.2)) ∧
        (∀ g, g ≠ x.eng.val → t.eng g = s.eng g) ∧ t = { s with engs := t.engs }) ∧
      (hit = none → (st.isWrite = true ∨ s.isCellar (s.foldAddr pa) = false) →
        ∃ t, exec (.streamBlockIssue x) s = .next t ∧ t.stream x = some (sent .here) ∧
        (∀ g, g ≠ x.eng.val → t.eng g = s.eng g) ∧ t = { s with engs := t.engs }) ∧
      (hit = none → st.isWrite = false → s.isCellar (s.foldAddr pa) = true →
        let port := (s.foldAddr pa - 0x100000000000) / 0x20000000000
        ∃ t, exec (.streamBlockIssue x) s = .next t ∧ t.stream x = some (sent (.cellar port s.ms.burstSeq)) ∧
        t.ms = { s.ms with burstSeq := s.ms.burstSeq + 1, bursts := s.ms.bursts ++
          [{ port := port, seq := s.ms.burstSeq, strm := x, k := st.nextK, need := (blockSpan bit b.nbits).2, got := 0 }] } ∧
        (∀ g, g ≠ x.eng.val → t.eng g = s.eng g) ∧ t = { s with engs := t.engs, ms := t.ms })) ∧
    ((∀ n, b.kind ≠ .fill n) → st.ctx = fwCtx → st.isWrite = true → s.isFar pa = false →
      s.wallBlocks pa (blockSpan (b.va % 8) b.nbits).2 = true → rest ≠ [] →
      ∃ t, exec (.streamBlockIssue x) s = .next t ∧ t.flag F.MEM_STATUS.UNBACKED = true ∧
        t.stream x = some { st with blocks := rest, nextK := st.nextK + 1, walking := false } ∧
        (∀ g, g ≠ x.eng.val → t.eng g = s.eng g) ∧ t = { s with regs := t.regs, engs := t.engs }) ∧
    (∀ n, b.kind = .fill n → rest ≠ [] → s.flag F.MEM_CTRL.LEDGER_EN = true → ldOwner (s.ledgerMem n) = st.ctx →
      ldState (s.ledgerMem n) = 2 → ldFillOk (s.ledgerMem n) = true → (∀ f ∈ s.ms.fills, f.expert ≠ n) →
      s.ms.fills.length < 256 →
      ∃ t, exec (.streamBlockIssue x) s = .next t ∧ t.stream x = some { st with blocks := rest } ∧
        t.ms.fills = s.ms.fills ++ [{ expert := n, entry := s.ledgerMem n, seq := s.ms.burstSeq }] ∧
        t = { s with engs := t.engs, ms := { s.ms with fills := t.ms.fills, burstSeq := s.ms.burstSeq + 1 } })) ∧
  (∀ (x : StreamRef) (s s1 s2 : State) (st : Stream) (c : RoomCmd) (b : Block) (rest : List Block), s.stream x = some st →
    st.walking = true → s1 = s.updStream x (fun y => { y with walking := false }) → s.streamCmd x st = some c →
    st.blocks = b :: rest → s1.mayIssue x { st with walking := false } = true →
    (∀ pa, s1.xlate (engRoom x.eng.val) st.ctx (b.va / 8) st.isWrite = (.ok pa, s2) → st.isWrite = false →
      st.resumed = false → s2.isFar pa = false →
      let bit := pa * 8 + b.va % 8
      let hit := s2.lineHit (engFloor x.eng.val) (s2.foldAddr pa) (blockSpan bit b.nbits).2
      (hit = none → s2.isCellar (s2.foldAddr pa) = false) →
      ∃ t, exec (.translationWalkEnd x) s = .next t ∧
        t.stream x = some { st with walking := false, blocks := rest, nextK := st.nextK + 1
                                    flight := st.flight ++ [{ k := st.nextK, blk := b, pa := bit, reach := match hit with
                                                                | some h => .floor h.1 h.2
                                                                | none => .here
                                                              use := s2.usedBy (engRoom x.eng.val) st.ctx (b.va / 8) }] } ∧
        t.ms.mem = s.ms.mem ∧ t.rooms = s.rooms ∧ t.ctxs = s.ctxs ∧ (∀ g, g ≠ x.eng.val → t.eng g = s.eng g)) ∧
    (∀ ty level, s1.xlate (engRoom x.eng.val) st.ctx (b.va / 8) st.isWrite = (.bad ty level, s2) →
      ∃ t y p, exec (.translationWalkEnd x) s = .next t ∧ t.stream x = some y ∧ y.park = some p ∧ p.ty = ty ∧
        p.level = level ∧ y.blocks = st.blocks ∧ y.flight = st.flight ∧ t.rooms = s.rooms ∧
        (∀ g, g ≠ x.eng.val → t.eng g = s.eng g)))

/-- R325, R389, R394 to R396, R398, R591: a read block brings its bits from memory or its floor cache into the region of its
stream, poisoned elements replaced and each poisoned beat noted; a write block writes exactly its bits into memory; a larder fill
whose entry has not changed copies the expert and marks it present. Poisoned bytes of a container that are neither elements nor
scales become free values, for which R389 states none. -/
def Obligations.StreamBlocksAndFillsComplete : Prop :=
  (∀ (x : StreamRef) (k : Nat) (s : State) (st : Stream) (f : InFlight), s.running = true → s.stream x = some st →
    st.flight.find? (fun g => g.k == k) = some f → s.burstWhole f = true → st.blocks ≠ [] →
    (st.isWrite = false → f.blk.kind ≠ .look →
      let p := s.blockData f
      let v := blockBits f.blk f.pa p.1.1 p.1.2 p.2.draw.1
      let r := engRoom x.eng.val
      ∃ t, exec (.streamBlockComplete x k) s = .next t ∧
        t.stream x = some { st with flight := st.flight.filter fun g => g.k != k } ∧
        (f.blk.space ≠ 1 → (t.eng x.eng.val).buf = ((s.eng x.eng.val).putBits st.ctx f.blk.loc f.blk.nbits v).buf ∧
          t.rooms = s.rooms) ∧
        (f.blk.space = 1 → (t.eng x.eng.val).buf = (s.eng x.eng.val).buf ∧ (∀ q, q ≠ r → t.room q = s.room q) ∧ t.room r =
          { s.room r with store := Mem.writeBits (s.room r).store f.blk.loc f.blk.nbits fun i => bitAt v i }) ∧
        (p.1.2 ≠ [] → t.flag F.MEM_STATUS.POISON = true) ∧
        (∀ g, g ≠ x.eng.val → t.eng g = s.eng g) ∧ t.ms.mem = s.ms.mem ∧ t.ctxs = s.ctxs) ∧
    (st.isWrite = true → f.blk.kind ≠ .free →
      (∀ g ∈ st.flight, g.k < f.k → rangesMeet g.pa g.blk.nbits f.pa f.blk.nbits = false) →
      let sp := blockSpan f.pa f.blk.nbits
      let v := s.getSpace (engRoom x.eng.val) x.eng.val st.ctx f.blk.space f.blk.loc f.blk.nbits
      sp.1 + sp.2 ≤ hbmEnd → s.wallBlocks sp.1 sp.2 = false → s.wallFull sp.1 sp.2 = false →
      ∃ t, exec (.streamBlockComplete x k) s = .next t ∧
        t.stream x = some { st with flight := st.flight.filter fun g => g.k != k } ∧
        (∀ i, i < sp.2 → Mem.byte t.ms.mem (sp.1 + i) =
          BitVec.ofNat 8 (setBitsNat (s.physLe sp.1 sp.2) (f.pa % 8) f.blk.nbits v / 256 ^ i)) ∧
        (∀ a, a < sp.1 ∨ sp.1 + sp.2 ≤ a → Mem.byte t.ms.mem a = Mem.byte s.ms.mem a) ∧
        (t.eng x.eng.val).buf = (s.eng x.eng.val).buf ∧ (∀ g, g ≠ x.eng.val → t.eng g = s.eng g) ∧
        t.rooms = s.rooms ∧ t.ctxs = s.ctxs)) ∧
  (∀ (n : BitVec 16) (s : State) (f : Fill), s.ms.fills.find? (fun g => g.expert == n.toNat) = some f →
    let size := ldSize f.entry * 4096
    let p := s.physRead (ldCellar f.entry) size
    s.wallBlocks (ldLarder f.entry) size = false → inHbm s.ledgerBase 0x200000 = true →
    ((p.2.physWrite (ldLarder f.entry) p.1).copyPoison (ldCellar f.entry) (ldLarder f.entry) size).ledgerMem n.toNat = f.entry →
    ∃ t, exec (.larderFillEnd n) s = .next t ∧ t.ms.fills = s.ms.fills.filter (fun g => g.expert != n.toNat) ∧
      Mem.byte t.ms.mem (s.ledgerBase + n.toNat * 32) = 1 ∧
      (∀ fl, ∀ e ∈ t.ms.ledgerC.get (fun _ => []) fl, e.2.1 ≠ n.toNat) ∧ t.rooms = s.rooms ∧ t.engs = s.engs ∧
      t.ctxs = s.ctxs)

/-- R411 to R417, R483, R531: the fault ring takes the oldest waiting record; a resumed ticket is free and its stream translates
again; burst data is counted, and its poisoned beats with the port (assumption log 123), and a burst, a block or a fill that stays unanswered is abandoned and its block issues again. -/
def Obligations.ParkedStreamsReportAndResume : Prop :=
  (∀ (s : State) (n : Nat) (rest : List Nat) (k : Ticket), s.running = true → s.ms.xfWait = n :: rest →
    s.ms.tickets.find? (fun u => u.num == n) = some k →
    let size := 2 ^ s.fget F.XF_SIZE.LOG2
    let tail := s.fget F.XF_TAIL.TAIL
    (tail + 1) % size ≠ s.fget F.XF_HEAD.HEAD → s.xfBase + tail * 64 + 64 ≤ hbmEnd →
    ∃ t, exec .faultRingRecordWrite s = .next t ∧ t.fget F.XF_TAIL.TAIL = (tail + 1) % size % 2 ^ F.XF_TAIL.TAIL.width ∧
      t.flag F.XF_STATUS.NEW = true ∧ t.ms.xfWait = rest ∧
      (∀ i, i < 64 → Mem.byte t.ms.mem (s.xfBase + tail * 64 + i) = BitVec.ofNat 8 (k.record.toNat / 256 ^ i)) ∧
      (∀ a, a < s.xfBase + tail * 64 ∨ s.xfBase + tail * 64 + 64 ≤ a → Mem.byte t.ms.mem a = Mem.byte s.ms.mem a) ∧
      t.engs = s.engs ∧ t.rooms = s.rooms ∧ t.ctxs = s.ctxs) ∧
  (∀ (w : BusWr) (s : State) (k : Ticket) (st : Stream), s.Reached w Off.XF_RESUME →
    s.ms.tickets.find? (fun u => u.num == w.val.toNat % 1024) = some k → s.ms.noTicket = [] → s.stream k.stream = some st →
    ∃ t, exec (.xfResume w) s = .next t ∧ (∀ u ∈ t.ms.tickets, u.num ≠ w.val.toNat % 1024) ∧
      t.stream k.stream = some { st with park := none, resumed := true } ∧
      (∀ g, g ≠ k.stream.eng.val → t.eng g = s.eng g) ∧ t.rooms = s.rooms ∧ t.regs = s.regs ∧ t.ms.mem = s.ms.mem) ∧
  (∀ (w : BusWr) (s : State), s.Reached w Off.XF_RESUME → (∀ u ∈ s.ms.tickets, u.num ≠ w.val.toNat % 1024) →
    ∃ t, exec (.xfResume w) s = .next t ∧ t.flag F.XF_STATUS.BAD_RESUME = true ∧ t = { s with regs := t.regs } ∧
      s.RegsOnly t [F.XF_STATUS.BAD_RESUME]) ∧
  (∀ (p : Fin 2) (seq n : Nat) (l : List (BitVec 48)) (s : State),
    let add := fun (b : Burst) => if b.port = p.val ∧ b.seq = seq then { b with got := b.got + n } else b
    let counted := s.countSat (F.CXL_ERR.POISON p.val) l.length
    let more : State := { counted with ms := { s.ms with bursts := s.ms.bursts.map add } }
    ((∃ b ∈ s.ms.bursts, b.port = p.val ∧ b.seq = seq) →
      exec (.cellarBurstData p seq n l) s = .next (more.markPoison (l.map BitVec.toNat))) ∧
    ((∀ b ∈ s.ms.bursts, ¬(b.port = p.val ∧ b.seq = seq)) → seq ∈ s.ms.dead →
      exec (.cellarBurstData p seq n l) s = .next (counted.countSat F.CELLAR_EVENTS.ORPHAN 1))) ∧
  (∀ (p : Fin 2) (seq : Nat) (s : State),
    (∀ b, s.ms.bursts.find? (fun b => b.port == p.val && b.seq == seq && decide (b.got < b.need)) = some b →
      (∀ st, s.stream b.strm = some st → st.ctx ≠ fwCtx) →
      ∃ t, exec (.cellarGapExpiry p seq) s = .next t ∧
        t.ms.bursts = s.ms.bursts.filter (fun c => !(c.port == p.val && c.seq == seq)) ∧ t.ms.dead = s.ms.dead ++ [seq] ∧
        t.fget F.CELLAR_EVENTS.ABANDON = satAdd (2 ^ F.CELLAR_EVENTS.ABANDON.width - 1) (s.fget F.CELLAR_EVENTS.ABANDON) 1 ∧
        t.ctxs = s.ctxs ∧ t.rooms = s.rooms ∧ ∀ g, g ≠ b.strm.eng.val → t.eng g = s.eng g) ∧
    (∀ f, s.ms.bursts.find? (fun b => b.port == p.val && b.seq == seq && decide (b.got < b.need)) = none →
      s.ms.fills.find? (fun f => f.seq == seq && decide ((ldCellar f.entry - 0x100000000000) / 0x20000000000 = p.val)) = some f →
      ∃ t, exec (.cellarGapExpiry p seq) s = .next t ∧ t.ms.fills = s.ms.fills.filter (fun k => k.expert != f.expert) ∧
        t.ms.dead = s.ms.dead ++ [seq] ∧
        t.fget F.CELLAR_EVENTS.ABANDON = satAdd (2 ^ F.CELLAR_EVENTS.ABANDON.width - 1) (s.fget F.CELLAR_EVENTS.ABANDON) 1 ∧
        t.fget F.FILL_COUNTS.FILL_FAIL = satAdd (2 ^ F.FILL_COUNTS.FILL_FAIL.width - 1) (s.fget F.FILL_COUNTS.FILL_FAIL) 1 ∧
        t.ctxs = s.ctxs ∧ t.rooms = s.rooms ∧ t.engs = s.engs)) ∧
  (∀ (x : StreamRef) (k bq : Nat) (s : State) (st : Stream) (f : InFlight) (c : RoomCmd), s.stream x = some st →
    st.flight.find? (fun g => g.k == k) = some f → f.reach = .remote bq → st.park = none → s.streamCmd x st = some c →
    st.ctx ≠ fwCtx →
    ∃ t y p, exec (.llRespExpiry x k) s = .next t ∧ t.stream x = some y ∧ y.blocks = f.blk :: st.blocks ∧
      y.flight = st.flight.filter (fun g => g.k != k) ∧ y.park = some p ∧ p.ty = xfUnreachable ∧
      t.rooms = s.rooms ∧ ∀ g, g ≠ x.eng.val → t.eng g = s.eng g)

/-- R405 to R407, R449, R482, R488: an invalidation takes its scope from the write that starts it, drops exactly the selected copies
when every access with one of them has completed, and is ignored while one is in progress; route invalidation waits for what ROUTE
queued before it; a flush drops what is queued for its destination and not begun, which of a message on its way is the model's
reading (assumption log 74). -/
def Obligations.InvalidationsDropTheSelectedCopies : Prop :=
  (∀ (w : BusWr) (s : State), s.Reached w Off.INV_CTRL →
    (s.flag F.INV_CTRL.GO = false → bitAt w.val.toNat 2 = true →
      ∃ t, exec (.invGo w) s = .next t ∧ t.flag F.INV_CTRL.GO = true ∧ t.fget F.INV_CTRL.SCOPE = w.val.toNat % 4 ∧
        t.fget F.INV_CTRL.CTX = bitsAt w.val.toNat 4 11 ∧ t = { s with regs := t.regs } ∧
        s.RegsOnly t [F.INV_CTRL.GO, F.INV_CTRL.SCOPE, F.INV_CTRL.CTX]) ∧
    (s.flag F.INV_CTRL.GO = true → exec (.invGo w) s = .next (s.fset F.MEM_STATUS.INV_WR_DROP 1))) ∧
  (∀ s : State, s.flag F.INV_CTRL.GO = true →
    s.invQuiet = true →
    ∃ t, exec .invDone s = .next t ∧ t.flag F.INV_CTRL.GO = false ∧
      (∀ r, (∀ e ∈ t.ms.roomTlb.get (fun _ => []) r, s.invTlb e = false) ∧
        ∀ e ∈ s.ms.roomTlb.get (fun _ => []) r, s.invTlb e = false → e ∈ t.ms.roomTlb.get (fun _ => []) r) ∧
      (∀ f, (∀ e ∈ t.ms.floorTlb.get (fun _ => []) f, s.invTlb e = false) ∧
        ∀ e ∈ s.ms.floorTlb.get (fun _ => []) f, s.invTlb e = false → e ∈ t.ms.floorTlb.get (fun _ => []) f) ∧
      (∀ f, (∀ e ∈ t.ms.ledgerC.get (fun _ => []) f, s.invExpert e.2.1 = false) ∧
        ∀ e ∈ s.ms.ledgerC.get (fun _ => []) f, s.invExpert e.2.1 = false → e ∈ t.ms.ledgerC.get (fun _ => []) f) ∧
      t.ms.mem = s.ms.mem ∧ t = { s with regs := t.regs, ms := t.ms } ∧ s.RegsOnly t [F.INV_CTRL.GO]) ∧
  (∀ (w : BusWr) (s : State), s.Reached w Off.RT_CTRL → bitAt w.val.toNat 0 = true →
    ∃ t, exec (.rtInv w) s = .next t ∧ t.flag F.RT_CTRL.INV = true ∧
      (∀ q : PortIx, (t.port q.val).egress = (s.port q.val).egress.map fun m => { m with old := m.old || m.routed }) ∧
      t.link.routeC = s.link.routeC ∧ t = { s with regs := t.regs, link := t.link }) ∧
  (∀ s : State, s.running = true → s.flag F.RT_CTRL.INV = true →
    (∀ q : PortIx, ∀ m ∈ (s.port q.val).egress, m.old = false) →
    ∃ t, exec .rtInvDone s = .next t ∧ t.flag F.RT_CTRL.INV = false ∧ t.link = { s.link with routeC := [] } ∧
      t = { s with regs := t.regs, link := t.link } ∧ s.RegsOnly t [F.RT_CTRL.INV]) ∧
  (∀ (w : BusWr) (s : State), s.Reached w Off.RT_CTRL → bitAt w.val.toNat 1 = true →
    let dst := bitsAt w.val.toNat 8 6
    let hit := fun (m : Msg) => m.sent == 0 && m.dst == dst
    (∀ m ∈ s.link.out, hit m = true → m.origin = none) →
    (∀ q : PortIx, ∀ m ∈ (s.port q.val).egress, hit m = true → m.origin = none) →
    ∃ t, exec (.flush w) s = .next t ∧ t.fget F.RT_CTRL.FLUSH_DST = dst ∧
      (∀ q : PortIx, (t.port q.val).egress = (s.port q.val).egress.filter fun m => !hit m) ∧
      t.link.out = s.link.out.filter (fun m => !hit m) ∧ t = { s with regs := t.regs, link := t.link } ∧
      s.RegsOnly t [F.RT_CTRL.FLUSH_DST, F.LL_COUNTS.FLUSHED])

/-- R418 to R424: a timeout of the late threshold or of the quantum and a PREEMPT request a switch of their engine; the switch
makes the next waiting context active and ends the request, and without a waiting context only ends it. What the save frame of a
MATMUL holds is free, as no rule lays it out (assumption log 87). -/
def Obligations.EnginesSwitchToWaitingContexts : Prop :=
  (∀ (e : EngIx) (s : State), s.anyReady e.val = true → (∀ n ∈ s.runningSlots e.val, s.stalled e.val n = true) →
    ∃ t, exec (.lateThreshExpiry e) s = .next t ∧ t.eng e.val = { s.eng e.val with wantSw := true } ∧
      (∀ g, g ≠ e.val → t.eng g = s.eng g) ∧ t = { s with engs := t.engs }) ∧
  (∀ (e : EngIx) (s : State), s.anyReady e.val = true →
    s.fget (F.ENG_SCHED.QUANTUM (engRoom e.val) (e.val % 5)) ≠ 0 →
    ∃ t, exec (.quantumExpiry e) s = .next t ∧ t.eng e.val = { s.eng e.val with wantSw := true } ∧
      (∀ g, g ≠ e.val → t.eng g = s.eng g) ∧ t = { s with engs := t.engs }) ∧
  (∀ (e : EngIx) (w : BusWr) (s : State), s.Reached w (Off.ENG_SCHED (engRoom e.val) (e.val % 5)) →
    bitAt w.val.toNat 0 = true →
    ∃ t, exec (.preempt e w) s = .next t ∧ t.eng e.val = { s.eng e.val with wantSw := true } ∧
      t.flag (F.ENG_SCHED.PREEMPT (engRoom e.val) (e.val % 5)) = true ∧ (∀ g, g ≠ e.val → t.eng g = s.eng g) ∧
      t = { s with regs := t.regs, engs := t.engs }) ∧
  (∀ (e : EngIx) (s : State), s.enginesOn = true → (s.eng e.val).wantSw = true ∨ s.runningSlots e.val = [] →
    (∀ c, s.incoming e.val = some c →
      ∃ t, exec (.contextSwitch e) s = .next t ∧ (t.eng e.val).active = some c ∧ (t.eng e.val).wantSw = false ∧
        (t.eng e.val).streams = (s.eng e.val).streams ∧ (t.eng e.val).buf = (s.eng e.val).buf ∧
        (t.eng e.val).acc = (s.eng e.val).acc ∧ (∀ g, g ≠ e.val → t.eng g = s.eng g) ∧ t.rooms = s.rooms ∧ t.ctxs = s.ctxs ∧
        (s.matmuls e.val = [] → s.flag F.MEM_CTRL.FLUE_SWITCH = false → t.ms = s.ms)) ∧
    (s.incoming e.val = none →
      ∃ t, exec (.contextSwitch e) s = .next t ∧ t.eng e.val = { s.eng e.val with wantSw := false } ∧
        t.flag (F.ENG_SCHED.PREEMPT (engRoom e.val) (e.val % 5)) = false ∧ (∀ g, g ≠ e.val → t.eng g = s.eng g) ∧
        t = { s with regs := t.regs, engs := t.engs } ∧
        s.RegsOnly t [F.ENG_SCHED.PREEMPT (engRoom e.val) (e.val % 5)]))

/-! ### Arbiters and memory control -/

/-- R432 to R439, R443: a decision grants the highest of inputs 12 to 15 that asks, else the next in round robin of the highest class
that asks, and of one input's engines the next in round robin; the grant begins its burst and counts; a request of the parked
owner begins without a decision, and one that is withdrawn is gone with the decision of its cycle; a class write acts in later
cycles, a long wait is noted, and counters clear where ones are written, after the updates of their cycle. That the commands
carry fabric cycles is the model's choice (assumption log 69), as is a burst of no beats (assumption log 62). -/
def Obligations.ArbitersGrantByPriorityAndClass : Prop :=
  (∀ (x : ArbSt) (cls : W32) (l : List Nat) (i : Nat), (∀ j ∈ l, j < 16) → x.winner cls l = some i → i ∈ l ∧
    (∀ j ∈ l, 12 ≤ j → 12 ≤ i ∧ j ≤ i) ∧ (i < 12 → ∀ j ∈ l, j < 12 ∧ classOf cls j ≤ classOf cls i ∧
      (classOf cls j = classOf cls i → let last := x.lastIn.get (fun _ => 11) (classOf cls i)
        ∃ k m, k ≤ m ∧ m < 12 ∧ (last + 1 + k) % 12 = i ∧ (last + 1 + m) % 12 = j))) ∧
  (∀ (x : ArbSt) (cls : W32) (l : List Nat), (∀ j ∈ l, j < 16) → l ≠ [] → (x.winner cls l).isSome = true) ∧
  (∀ (x : ArbSt) (cycle i : Nat) (q : ArbReq), x.oldest cycle i = some q → q ∈ x.reqs ∧ q.input = i ∧ q.cycle < cycle ∧
    ∀ p ∈ x.reqs, p.input = i → p.cycle < cycle → let last := x.lastEng.get (fun _ => 4) i
      ∃ k m, k ≤ m ∧ m < 5 ∧ (last + 1 + k) % 5 = arbPlace q.src ∧ (last + 1 + m) % 5 = arbPlace p.src) ∧
  (∀ (a : ArbIx) (src : ArbSource) (n : Fin 9) (cycle : Nat) (s : State),
    (s.arbInput a.val src = none → exec (.arbRequest a src n cycle) s = .next s) ∧
    (∀ i, s.arbInput a.val src = some i → s.running = true → n.val ≠ 0 →
      let x := s.arb a.val
      let q : ArbReq := { input := i, src := src, beats := n.val, cycle := cycle, starved := false }
      let parked := x.isParked && x.owner == some i && x.reqs.all (fun p => !decide (p.cycle < cycle))
      (parked = false → ∃ t, exec (.arbRequest a src n cycle) s = .next t ∧ t.arb a.val = { x with reqs := x.reqs ++ [q] } ∧
        (∀ b, b ≠ a.val → t.arb b = s.arb b) ∧ t = { s with arbs := t.arbs }) ∧
      (parked = true → x.clrAt.get (fun _ => 0) i ≠ cycle + 1 → s.starves a.val 1 = false →
        ∃ t, exec (.arbRequest a src n cycle) s = .next t ∧
          t.arb a.val = { x.noteEng q with owner := some i, busyTo := cycle + n.val, isParked := false } ∧
          t.fget (F.ARB_GRANTS.GRANTS a.val i) = (s.fget (F.ARB_GRANTS.GRANTS a.val i) + 1) % 2 ^ 32 ∧
          (∀ b, b ≠ a.val → t.arb b = s.arb b) ∧ t = { s with regs := t.regs, arbs := t.arbs }))) ∧
  (∀ (a : ArbIx) (cycle : Nat) (ws : List ArbSource) (s : State), s.running = true → (s.arb a.val).busyTo ≤ cycle →
    ∃ t, exec (.arbDecision a cycle ws) s = .next t ∧ (∀ q ∈ (s.arb a.val).withdrawn cycle ws, q ∉ (t.arb a.val).reqs) ∧
      (∀ b, b ≠ a.val → t.arb b = s.arb b)) ∧
  (∀ (a : ArbIx) (cycle : Nat) (s : State), s.running = true → (s.arb a.val).busyTo ≤ cycle →
    let x := s.arb a.val
    let cls := s.classesAt a.val cycle
    let w := x.winner cls ((x.reqs.filter fun q => decide (q.cycle < cycle)).map fun q => q.input)
    (∀ i q, w = some i → x.oldest cycle i = some q →
      let wait := cycle + 1 - q.cycle
      let late := !q.starved && s.starves a.val wait
      (late = true → bitAt (s.fget (F.ARB_STARVE_IE.STARVE_IE a.val)) i = false) →
      ∃ t, exec (.arbDecision a cycle []) s = .next t ∧
        t.arb a.val = { (x.noteLast cls i).noteEng q with
          reqs := x.reqs.erase q, owner := some i, busyTo := cycle + q.beats, isParked := false } ∧
        (x.clrAt.get (fun _ => 0) i ≠ cycle + 1 →
          t.fget (F.ARB_GRANTS.GRANTS a.val i) = (s.fget (F.ARB_GRANTS.GRANTS a.val i) + 1) % 2 ^ 32 ∧
          t.fget (F.ARB_WAITS.WAITS a.val i) = (s.fget (F.ARB_WAITS.WAITS a.val i) + wait) % 2 ^ 32) ∧
        (x.clrAt.get (fun _ => 0) i = cycle + 1 →
          s.RegsOnly t [F.ARB_STARVE.STARVE a.val]) ∧
        (late = true → bitAt (t.fget (F.ARB_STARVE.STARVE a.val)) i = true) ∧
        (late = false → t.fget (F.ARB_STARVE.STARVE a.val) = s.fget (F.ARB_STARVE.STARVE a.val)) ∧
        (∀ b, b ≠ a.val → t.arb b = s.arb b) ∧ t = { s with regs := t.regs, arbs := t.arbs } ∧
        s.RegsOnly t [F.ARB_GRANTS.GRANTS a.val i, F.ARB_WAITS.WAITS a.val i, F.ARB_MAX_WAIT.MAX_WAIT a.val i,
          F.ARB_STARVE.STARVE a.val]) ∧
    (w = none → ∃ t, exec (.arbDecision a cycle []) s = .next t ∧ t.arb a.val = { x with isParked := x.owner.isSome } ∧
      (∀ b, b ≠ a.val → t.arb b = s.arb b) ∧ t = { s with arbs := t.arbs })) ∧
  (∀ (a : ArbIx) (i : Fin 16) (cycle : Nat) (s : State) (q : ArbReq), s.running = true → q ∈ (s.arb a.val).reqs →
    q.input = i.val → q.starved = false → s.fget (F.ARB_LIMIT.LIMIT a.val) * 16 ≤ cycle - q.cycle →
    bitAt (s.fget (F.ARB_STARVE_IE.STARVE_IE a.val)) i.val = false →
    ∃ t, exec (.arbStarve a i cycle) s = .next t ∧
      t.fget (F.ARB_STARVE.STARVE a.val) = s.fget (F.ARB_STARVE.STARVE a.val) ||| 2 ^ i.val ∧
      (∀ b, b ≠ a.val → t.arb b = s.arb b) ∧ t = { s with regs := t.regs, arbs := t.arbs } ∧
      s.RegsOnly t [F.ARB_STARVE.STARVE a.val]) ∧
  (∀ (a : ArbIx) (w : BusWr) (cycle : Nat) (s : State), s.Reached w (Off.ARB_CLASS a.val) → (s.arb a.val).classAt < cycle →
    ∃ t, exec (.arbClassWrite a w cycle) s = .next t ∧ t.reg (Off.ARB_CLASS a.val) = BitVec.ofNat 32 (w.val.toNat % 2 ^ 24) ∧
      t.classesAt a.val cycle = s.reg (Off.ARB_CLASS a.val) ∧
      t.classesAt a.val (cycle + 1) = BitVec.ofNat 32 (w.val.toNat % 2 ^ 24) ∧
      (∀ b, b ≠ a.val → t.arb b = s.arb b) ∧ t = { s with regs := t.regs, arbs := t.arbs } ∧
      (∀ k, k ≠ Off.ARB_CLASS a.val → t.reg k = s.reg k)) ∧
  (∀ (a : ArbIx) (w : BusWr) (cycle : Nat) (s : State), s.Reached w (Off.ARB_CNT_CLR a.val) →
    ∃ t, exec (.cntClr a { wr := w, cycle := cycle }) s = .next t ∧
      (∀ i : Fin 16, bitAt w.val.toNat i.val = true → t.fget (F.ARB_GRANTS.GRANTS a.val i.val) = 0 ∧
        t.fget (F.ARB_WAITS.WAITS a.val i.val) = 0 ∧ t.fget (F.ARB_MAX_WAIT.MAX_WAIT a.val i.val) = 0 ∧
        (t.arb a.val).clrAt.get (fun _ => 0) i.val = cycle + 1) ∧
      (∀ i : Fin 16, bitAt w.val.toNat i.val = false →
        t.fget (F.ARB_GRANTS.GRANTS a.val i.val) = s.fget (F.ARB_GRANTS.GRANTS a.val i.val) ∧
        (t.arb a.val).clrAt.get (fun _ => 0) i.val = (s.arb a.val).clrAt.get (fun _ => 0) i.val) ∧
      (∀ b, b ≠ a.val → t.arb b = s.arb b) ∧ t = { s with regs := t.regs, arbs := t.arbs })

/-- R386, R442: a keyed EN enables the memory system exactly where its areas lie in HBM, and else reports the error; a
pseudo-channel remap is taken before the stack's training only, and never with both spares for one; REFUSED says of the last write
with the key whether it was refused. -/
def Obligations.MemoryIsEnabledOnlyWhenItsAreasLieInHbm : Prop :=
  (∀ (w : BusWr) (s : State), s.Reached w Off.MEM_CTRL → s.holdsKey w.req = true → bitAt w.val.toNat 0 = true →
    ∃ t, exec (.memCtrlEn w) s = .next t ∧ t.flag F.LOCK_STATUS.OPEN = false ∧
      t.flag F.MEM_CTRL.LEDGER_EN = bitAt w.val.toNat 1 ∧ t.flag F.MEM_CTRL.FLUE_SWITCH = bitAt w.val.toNat 2 ∧
      (t.memOk = true → t.flag F.MEM_CTRL.EN = true ∧ t.ms = { s.ms with locked := true }) ∧
      (t.memOk = false → t.flag F.MEM_STATUS.CFG_ERR = true ∧ t.fget F.MEM_CTRL.EN = s.fget F.MEM_CTRL.EN ∧ t.ms = s.ms) ∧
      t = { s with regs := t.regs, ms := t.ms } ∧
      s.RegsOnly t [F.LOCK_STATUS.OPEN, F.MEM_CTRL.EN, F.MEM_CTRL.LEDGER_EN, F.MEM_CTRL.FLUE_SWITCH, F.MEM_CTRL.LATE_THRESH,
        F.MEM_STATUS.CFG_ERR]) ∧
  (∀ (k : Fin 8) (w : BusWr) (s : State), s.Reached w (Off.HBM_PC_REMAP k.val) → s.holdsKey w.req = true →
    let fs := [F.HBM_PC_REMAP.SP0_FOR k.val, F.HBM_PC_REMAP.SP0_EN k.val, F.HBM_PC_REMAP.SP1_FOR k.val, F.HBM_PC_REMAP.SP1_EN k.val]
    (s.stackTrained k.val = false → pcRemapOk w.val.toNat = true →
      ∃ t, exec (.hbmPcRemapWrite k w) s = .next t ∧ (∀ f ∈ fs, t.fget f = bitsAt w.val.toNat f.lsb f.width) ∧
        t.flag (F.HBM_PC_REMAP.REFUSED k.val) = false ∧ t = { s with regs := t.regs } ∧
        s.RegsOnly t (F.LOCK_STATUS.OPEN :: F.HBM_PC_REMAP.REFUSED k.val :: fs)) ∧
    (s.stackTrained k.val = true ∨ pcRemapOk w.val.toNat = false →
      ∃ t, exec (.hbmPcRemapWrite k w) s = .next t ∧ t.flag (F.HBM_PC_REMAP.REFUSED k.val) = true ∧
        t = { s with regs := t.regs } ∧ s.RegsOnly t [F.LOCK_STATUS.OPEN, F.HBM_PC_REMAP.REFUSED k.val]))

/-! ### Lorlink -/

/-- R361, R389, R461 to R464, R481 to R487: each message acts at its destination: a read is answered with HBM's bytes, a write is
written and acknowledged unless the wall blocks it, answers end the block, the prefetch or the status word that waits for them or
are orphans, a latch message is applied inside LATCH_IN only, a merge record goes to the package stage. That the poison marks of a
response come as an operand is the model's choice (assumption log 107). -/
def Obligations.MessagesActAtTheirDestination : Prop :=
  (∀ (q : PortIx) (s : State) (m : Msg), s.headMsg q.val 0 1 = some m → 1 ≤ m.aux → m.aux ≤ 4096 → m.addr + m.aux ≤ hbmEnd →
    ∃ t a, exec (.rdReq q) s = .next t ∧ t.link.out = s.link.out ++ [a] ∧ a.mtype = 2 ∧ a.vc = 1 ∧ a.dst = m.src ∧
      a.stag = m.stag ∧ a.aux = m.bseq ∧ a.data = (List.range m.aux).map (fun i => s.physByte (m.addr + i)) ∧
      (t.port q.val).rx = (s.port q.val).rx.erase m ∧ t = { s with link := t.link }) ∧
  (∀ (q : PortIx) (s : State) (m : Msg), s.headMsg q.val 0 1 = some m → m.aux = 0 ∨ 4096 < m.aux →
    exec (.rdReq q) s = .next ((s.consume q.val m).countSat (F.PORT_CNT3.PROTO_ERR q.val) 1)) ∧
  (∀ (q : PortIx) (poison : List (Fin 64)) (s : State) (m : Msg), s.headMsg q.val 1 2 = some m →
    let wait := s.link.fetches.find? fun p => p.pkg == m.src && p.bseq == m.aux
    (∀ x st f, s.findRemote m.src m.aux (2 ^ 32) false = some (x, st, f) → s.stream x = some st → st.blocks ≠ [] →
      f.blk.space ≠ 1 → f.blk.kind ≠ .look →
      ∃ t, exec (.rdRsp { port := q, poison := poison }) s = .next t ∧ t.stream x = some { st with flight := st.flight.filter fun g => g.k != f.k } ∧
        (t.eng x.eng.val).buf = ((s.eng x.eng.val).putBits st.ctx f.blk.loc f.blk.nbits
          (blockBits f.blk f.pa m.plain (poison.map fun k => k.val) s.draw.1)).buf ∧
        (poison = [] → t.regs = s.regs) ∧ (poison ≠ [] → t.flag F.MEM_STATUS.POISON = true) ∧
        (∀ g, g ≠ x.eng.val → t.eng g = s.eng g) ∧ t.ms.mem = s.ms.mem ∧ t.rooms = s.rooms) ∧
    (s.findRemote m.src m.aux (2 ^ 32) false = none → ∀ p, wait = some p →
      ∃ t, exec (.rdRsp { port := q, poison := poison }) s = .next t ∧ t.link.fetches = s.link.fetches.erase p ∧ (t.line p.fl p.blk).isSome = true ∧
        t.engs = s.engs ∧ t.regs = s.regs ∧ t.ms.mem = s.ms.mem) ∧
    (s.findRemote m.src m.aux (2 ^ 32) false = none → wait = none →
      exec (.rdRsp { port := q, poison := poison }) s = .next ((s.consume q.val m).countSat (F.PORT_CNT2.ORPHAN q.val) 1))) ∧
  (∀ (q : PortIx) (s : State) (m : Msg), s.headMsg q.val 2 3 = some m →
    (s.wallBlocks m.addr m.plain.length = false → s.wallFull m.addr m.plain.length = false →
      m.addr + m.plain.length ≤ hbmEnd → s.wallCaptures = false →
      ∃ t a, exec (.wr q) s = .next t ∧
        (∀ i, i < m.plain.length → Mem.byte t.ms.mem (m.addr + i) = m.plain.getD i 0) ∧
        (∀ b, b < m.addr ∨ m.addr + m.plain.length ≤ b → Mem.byte t.ms.mem b = Mem.byte s.ms.mem b) ∧
        t.link.out = s.link.out ++ [a] ∧ a.mtype = 4 ∧ a.dst = m.src ∧ a.aux = m.bseq % 2 ^ 31 ∧ t.rooms = s.rooms ∧
        t.engs = s.engs ∧ t.ctxs = s.ctxs) ∧
    (s.wallBlocks m.addr m.plain.length = true →
      ∃ t a, exec (.wr q) s = .next t ∧ t.ms = s.ms ∧ t.link.out = s.link.out ++ [a] ∧ a.mtype = 4 ∧
        a.aux = m.bseq % 2 ^ 31 + 2 ^ 31 ∧ t = { s with link := t.link })) ∧
  (∀ (q : PortIx) (s : State) (m : Msg), s.headMsg q.val 1 4 = some m →
    (∀ x st f, s.findRemote m.src m.aux (2 ^ 31) true = some (x, st, f) → bitAt m.aux 31 = false → s.stream x = some st →
      st.blocks ≠ [] →
      ∃ t, exec (.wrAck q) s = .next t ∧ t.stream x = some { st with flight := st.flight.filter fun g => g.k != f.k } ∧
        (∀ g, g ≠ x.eng.val → t.eng g = s.eng g) ∧ t = { s with engs := t.engs, link := t.link }) ∧
    (∀ x st f c, s.findRemote m.src m.aux (2 ^ 31) true = some (x, st, f) → bitAt m.aux 31 = true → s.stream x = some st →
      st.park = none → s.streamCmd x st = some c → st.ctx ≠ fwCtx →
      ∃ t y p, exec (.wrAck q) s = .next t ∧ t.stream x = some y ∧ y.park = some p ∧ p.ty = xfProtected ∧
        y.blocks = f.blk :: st.blocks ∧ t.rooms = s.rooms ∧ ∀ g, g ≠ x.eng.val → t.eng g = s.eng g) ∧
    (∀ p, s.findRemote m.src m.aux (2 ^ 31) true = none →
      s.link.acks.find? (fun p => p.pkg == m.src && p.bseq % 2 ^ 31 == m.aux % 2 ^ 31) = some p →
      ∃ t, exec (.wrAck q) s = .next t ∧ t.link.acks = s.link.acks.erase p ∧ t = { s with link := t.link }) ∧
    (s.findRemote m.src m.aux (2 ^ 31) true = none →
      s.link.acks.find? (fun p => p.pkg == m.src && p.bseq % 2 ^ 31 == m.aux % 2 ^ 31) = none →
      exec (.wrAck q) s = .next ((s.consume q.val m).countSat (F.PORT_CNT2.ORPHAN q.val) 1))) ∧
  (∀ (q : PortIx) (s : State) (m : Msg), s.headMsg q.val 5 5 = some m →
    (s.fget F.LATCH_IN.FIRST ≤ m.addr % 2 ^ 14 → m.addr % 2 ^ 14 ≤ s.fget F.LATCH_IN.LAST →
      bitsAt m.addr 14 2 = 1 ∨ bitsAt m.addr 14 2 = 2 →
      ∃ t, exec (.latch q) s = .next t ∧
        t.latchVal (m.addr % 2 ^ 14) = signalVal (bitsAt m.addr 14 2) (s.latchVal (m.addr % 2 ^ 14)) m.aux ∧
        (∀ l, l ≠ m.addr % 2 ^ 14 → t.latchVal l = s.latchVal l) ∧ t.engs = s.engs ∧ t.ms = s.ms ∧ t.ctxs = s.ctxs) ∧
    (m.addr % 2 ^ 14 < s.fget F.LATCH_IN.FIRST ∨ s.fget F.LATCH_IN.LAST < m.addr % 2 ^ 14 →
      exec (.latch q) s = .next ((s.consume q.val m).countSat F.LL_COUNTS.LATCH_DROP 1))) ∧
  (∀ (q : PortIx) (s : State) (m : Msg), s.headMsg q.val 4 6 = some m →
    ∃ t, exec (.mortar q) s = .next t ∧
      t.mo.pkgIn = s.mo.pkgIn ++ [MergeRec.ofBytes (Fin.ofNat 256 m.addr) m.ctx m.data] ∧
      t = { s.consume q.val m with mo := { s.mo with pkgIn := t.mo.pkgIn } }) ∧
  (∀ (q : PortIx) (s : State) (m : Msg), s.headMsg q.val 5 7 = some m →
    exec (.heartbeat q) s = .next (s.consume q.val m))

/-- R492, R496: in MIRROR, epoch data goes to the log; an epoch whose byte count agrees is applied, leaves the log and is
acknowledged, any other leaves the wall STALE; an acknowledgement ends the epochs up to it. -/
def Obligations.EpochMessagesMirrorTheWindows : Prop :=
  (∀ (q : PortIx) (s : State) (m : Msg), s.headMsg q.val 3 8 = some m → s.wallState = 3 →
    ∃ t, exec (.epochData q) s = .next t ∧
      t.link.wall = { s.link.wall with log := s.link.wall.log ++ [(m.aux, m.addr, m.data)] } ∧ t.wallState = 3 ∧
      t.rooms = s.rooms ∧ t.engs = s.engs ∧ t.ctxs = s.ctxs) ∧
  (∀ (q : PortIx) (s : State) (m : Msg), s.headMsg q.val 3 9 = some m → s.wallState = 3 →
    (logBytes (s.link.wall.epoch m.aux) = m.addr →
      ∃ t a, exec (.epochEnd q) s = .next t ∧ t.fget F.PW_IN_APPLIED.EPOCH = m.aux % 2 ^ 32 ∧
        t.link.wall.log = s.link.wall.log.filter (fun p => p.1 != m.aux) ∧ t.link.out = s.link.out ++ [a] ∧ a.mtype = 0xA ∧
        a.aux = m.aux ∧ t.wallState = 3 ∧ t.rooms = s.rooms ∧ t.engs = s.engs ∧ t.ctxs = s.ctxs) ∧
    (logBytes (s.link.wall.epoch m.aux) ≠ m.addr →
      ∃ t, exec (.epochEnd q) s = .next t ∧ t.wallState = 1 ∧ t.fget F.PW_STATUS.CAUSE = 3 ∧
        t.link.wall.log = s.link.wall.log.filter (fun p => p.1 != m.aux) ∧ t.ms = s.ms ∧ t.engs = s.engs ∧ t.ctxs = s.ctxs)) ∧
  (∀ (q : PortIx) (s : State) (m : Msg), s.headMsg q.val 3 0xA = some m → s.wallState = 3 →
    ∃ t, exec (.epochAck q) s = .next t ∧ t.fget F.PW_ACKED.EPOCH = m.aux % 2 ^ 32 ∧
      t.link.wall = { s.link.wall with sent := s.link.wall.sent.filter fun p => decide (m.aux < p.1) } ∧ t.wallState = 3 ∧
      t = { s with regs := t.regs, link := t.link } ∧ s.RegsOnly t [F.PW_ACKED.EPOCH])

/-- R449, R450, R465 to R468, R477 to R480: a message leaves for the port of its route, the party wall's for port P; a flit in order
is accepted, a damaged one is answered with one NAK, a NAK resends the replay buffer, and a message that stays in pieces is
abandoned and counted at its destination, and passed on as an ABORT where it was being forwarded. -/
def Obligations.FlitsAreAcceptedInOrderOrAskedForAgain : Prop :=
  (∀ (s : State) (m : Msg) (rest : List Msg), s.running = true → s.link.out = m :: rest → m.origin = none → m.vc ≠ 3 →
    s.noPath (s.reg (Off.ROUTE m.dst)) m.dst = false → (∀ p, p < 5 → s.isLive p = false) →
    ∃ t, exec .messageEgress s = .next t ∧ t.link.out = rest ∧
      (t.port (routePort (s.reg (Off.ROUTE m.dst)))).egress =
        (s.port (routePort (s.reg (Off.ROUTE m.dst)))).egress ++ [{ m with old := false }] ∧
      (∀ p, p ≠ routePort (s.reg (Off.ROUTE m.dst)) → t.port p = s.port p) ∧ t = { s with link := t.link }) ∧
  (∀ (s : State) (m : Msg) (rest : List Msg), s.running = true → s.link.out = m :: rest → m.vc = 3 →
    (∀ p, p < 5 → s.isLive p = false) →
    ∃ t, exec .messageEgress s = .next t ∧ t.link.out = rest ∧ (t.port 4).egress = (s.port 4).egress ++ [m] ∧
      (∀ p, p ≠ 4 → t.port p = s.port p) ∧ t = { s with link := t.link }) ∧
  (∀ (q : PortIx) (f : Flit) (s : State), f.ok = true → s.running = true → s.isLive q.val = true →
    (s.port q.val).fecLog = [] → f.fecLanes = [] →
    (crc32c (flitBytes f) = f.crc → hReserved f.hdr = false → hKind f.hdr = 1 → hSeq f.hdr = (s.port q.val).rxSeq →
      ∃ t, exec (.flitReceive q f) s = .next t ∧ (t.port q.val).rxSeq = ((s.port q.val).rxSeq + 1) % 1024 ∧
        (t.port q.val).rxAny = true ∧ (t.port q.val).nakWait = false ∧ t.ms = s.ms ∧ t.engs = s.engs ∧ t.rooms = s.rooms ∧
        t.ctxs = s.ctxs) ∧
    (crc32c (flitBytes f) ≠ f.crc → (s.port q.val).nakWait = false →
      ∃ t, exec (.flitReceive q f) s = .next t ∧
        t.outbox = s.outbox ++ [.nakFlit q (s.port q.val).lastAck (s.port q.val).rxAny] ∧
        t.port q.val = { s.port q.val with nakWait := true } ∧ t = { s with regs := t.regs, link := t.link, outbox := t.outbox } ∧
        s.RegsOnly t [F.PORT_CNT1.FEC_CORR q.val]) ∧
    (crc32c (flitBytes f) ≠ f.crc → (s.port q.val).nakWait = true →
      ∃ t, exec (.flitReceive q f) s = .next t ∧ t.outbox = s.outbox ∧ t.port q.val = s.port q.val)) ∧
  (∀ (q : PortIx) (h : W64) (s : State), s.running = true → s.isLive q.val = true → hKind h = 2 → hReserved h = false →
    hAckV h = false → (s.port q.val).nakRun = 0 →
    ∃ t, exec (.nak q h) s = .next t ∧ t.outbox.length = s.outbox.length + (s.port q.val).replay.length ∧
      (t.port q.val).replay = (s.port q.val).replay ∧ (t.port q.val).nakRun = 1 ∧
      t.fget (F.PORT_CNT0.NAKS q.val) = satAdd 65535 (s.fget (F.PORT_CNT0.NAKS q.val)) 1 ∧ t.isLive q.val = true ∧
      t = { s with regs := t.regs, link := t.link, outbox := t.outbox }) ∧
  (∀ (q : PortIx) (s : State), s.running = true → s.isLive q.val = true → (s.port q.val).nakWait = true →
    ∃ t, exec (.nakTimeout q) s = .next t ∧
      t.outbox = s.outbox ++ [.nakFlit q (s.port q.val).lastAck (s.port q.val).rxAny] ∧ t.port q.val = s.port q.val ∧
      t = { s with link := t.link, outbox := t.outbox }) ∧
  (∀ (q : PortIx) (vc : Fin 8) (s : State) (x : Partial), s.running = true →
    (s.port q.val).parts.get (fun _ => none) vc.val = some x → x.course = .here → msgField x.bytes 0 1 ≠ 2 →
    ∃ t, exec (.llGapExpiry q vc) s = .next t ∧ (t.port q.val).parts.get (fun _ => none) vc.val = none ∧
      t.fget (F.PORT_CNT2.ABANDON q.val) = satAdd 65535 (s.fget (F.PORT_CNT2.ABANDON q.val)) 1 ∧
      t.fget (F.ABANDON_TAG.STAG q.val) = msgField x.bytes 8 4 % 2 ^ 32 ∧ (t.port q.val).rx = (s.port q.val).rx ∧
      t.ms = s.ms ∧ t.engs = s.engs ∧ t.rooms = s.rooms) ∧
  (∀ (q : PortIx) (vc : Fin 8) (s : State) (x : Partial), s.running = true →
    (s.port q.val).parts.get (fun _ => none) vc.val = some x → x.course ≠ .here →
    ∃ t, exec (.llGapExpiry q vc) s = .next t ∧ (t.port q.val).parts.get (fun _ => none) vc.val = none ∧
      t.outbox = s.outbox ++ (if x.course = .onward ∧ s.isLive (q.val ^^^ 1) = true
        then [.abortFlit (portIx (q.val ^^^ 1)) vc.val (msgField x.bytes 0xC 2)] else []) ∧
      t = { s with link := t.link, outbox := t.outbox }) ∧
  (∀ (q : PortIx) (h : W64) (s : State) (x : Partial), s.running = true → s.isLive q.val = true → hKind h = 3 →
    hReserved h = false → (s.port q.val).parts.get (fun _ => none) (hVc h) = some x → msgField x.bytes 0xC 2 = hCseq h →
    x.course = .here → msgField x.bytes 0 1 ≠ 2 →
    ∃ t, exec (.abort q h) s = .next t ∧ (t.port q.val).parts.get (fun _ => none) (hVc h) = none ∧
      t.fget (F.PORT_CNT2.ABANDON q.val) = satAdd 65535 (s.fget (F.PORT_CNT2.ABANDON q.val)) 1 ∧
      t.ms = s.ms ∧ t.engs = s.engs ∧ t.rooms = s.rooms)

/-- R468, R472 to R476: a port goes through its training states in order, back to DETECT or EQUALISE on a failure with its
cause, and OFF when it is disabled; a ring is joined and left by its JOIN bit, and a ring whose join finds no neighbour goes
OUT. That a JOIN without a locked PLL changes nothing is the model's reading (assumption log 122). -/
def Obligations.PortsTrainAndRingsJoin : Prop :=
  (∀ (q : PortIx) (w : BusWr) (s : State), s.Reached w (Off.PORT_CTRL q.val) →
    (bitAt w.val.toNat 1 = true → s.isLive q.val = true →
      ∃ t, exec (.retrain q w) s = .next t ∧ t.portState q.val = 3 ∧ t.fget (F.PORT_STATE.LAST_ERR q.val) = 0xC ∧
        t.fget (F.PORT_CNT0.RETRAINS q.val) = satAdd 65535 (s.fget (F.PORT_CNT0.RETRAINS q.val)) 1 ∧ t.engs = s.engs ∧
        t.rooms = s.rooms ∧ t.ctxs = s.ctxs ∧ t.ms = s.ms) ∧
    (bitAt w.val.toNat 0 = false →
      ∃ t, exec (.portEnable q w) s = .next t ∧ t.portState q.val = 0 ∧ t.flag (F.PORT_CTRL.ENABLE q.val) = false ∧
        t.engs = s.engs ∧ t.rooms = s.rooms ∧ t.ctxs = s.ctxs ∧ t.ms = s.ms) ∧
    (bitAt w.val.toNat 0 = true → s.portState q.val = 0 → q = 4 ∨ s.flag (biasFld (q.val / 2)) = true →
      ∃ t, exec (.portEnable q w) s = .next t ∧ t.portState q.val = 1 ∧ t.flag (F.PORT_CTRL.ENABLE q.val) = true ∧
        t.engs = s.engs ∧ t.rooms = s.rooms ∧ t.ctxs = s.ctxs ∧ t.ms = s.ms)) ∧
  (∀ (q : PortIx) (i : TrainInfo) (s : State), i.ok = true → s.running = true →
    (s.portState q.val = 1 → ∃ t, exec (.trainingStageExit q i) s = .next t ∧ t.portState q.val = 2 ∧
      bitAt (t.fget F.CLK_STATUS.LORLINK_LOCK) q.val = true ∧ t = { s with regs := t.regs } ∧
      s.RegsOnly t [F.CLK_STATUS.LORLINK_LOCK, F.PORT_STATE.STATE q.val]) ∧
    (s.portState q.val = 2 → s.bypassCheck q.val i = 0 →
      ∃ t, exec (.trainingStageExit q i) s = .next t ∧ t.portState q.val = 3 ∧
        t.fget (F.PORT_STATE.BYPASSED q.val) = s.bypassed q.val i % 4 ∧
        t.port q.val = { s.port q.val with failed := i.misLanes } ∧ t = { s with regs := t.regs, link := t.link }) ∧
    (s.portState q.val = 2 → s.bypassCheck q.val i ≠ 0 →
      ∃ t, exec (.trainingStageExit q i) s = .next t ∧ t.portState q.val = 1 ∧
        t.fget (F.PORT_STATE.LAST_ERR q.val) = s.bypassCheck q.val i ∧ t = { s with regs := t.regs }) ∧
    (s.portState q.val = 5 → ∃ t, exec (.trainingStageExit q i) s = .next t ∧ t.portState q.val = 6 ∧
      t = { s with regs := t.regs } ∧ s.RegsOnly t [F.PORT_STATE.STATE q.val]) ∧
    (s.portState q.val = 6 → q ≠ 4 → (s.port q.val).wallFail = false →
      ∃ t, exec (.trainingStageExit q i) s = .next t ∧ t.portState q.val = 7 ∧ t.fget (F.PORT_STATE.NBR q.val) = i.pkg.val ∧
        (t.port q.val).lastNbr = some (i.pkg.val, i.instVal) ∧ t.engs = s.engs ∧ t.rooms = s.rooms ∧ t.ms = s.ms) ∧
    (s.portState q.val = 6 → q = 4 → (s.port 4).wallFail = false → s.handshake i = false →
      ∃ t, exec (.trainingStageExit q i) s = .next t ∧ t.portState 4 = 6 ∧ t.fget (F.PORT_STATE.LAST_ERR 4) = 0xA ∧
        (t.port 4).wallFail = true ∧ t = { s with regs := t.regs, link := t.link })) ∧
  (∀ (q : PortIx) (few : Bool) (s : State), s.running = true →
    (s.portState q.val = 2 → ∃ t, exec (.trainingTimeout q few) s = .next t ∧ t.portState q.val = 1 ∧
      t = { s with regs := t.regs, freeCtr := s.freeCtr + 1 }) ∧
    (s.portState q.val = 3 → ∃ t, exec (.trainingTimeout q few) s = .next t ∧ t.portState q.val = 1 ∧
      t.fget (F.PORT_STATE.LAST_ERR q.val) = (if few then 5 else 6) ∧ t = { s with regs := t.regs }) ∧
    (s.portState q.val = 4 ∨ s.portState q.val = 5 → ∃ t, exec (.trainingTimeout q few) s = .next t ∧ t.portState q.val = 3 ∧
      t.fget (F.PORT_STATE.LAST_ERR q.val) = s.portState q.val + 3 ∧ t = { s with regs := t.regs })) ∧
  (∀ s : State, s.running = true → s.portState 4 = 6 → (s.port 4).wallFail = true →
    ∃ t, exec .wallHandshakeRetry s = .next t ∧ t.portState 4 = 1 ∧ (t.port 4).wallFail = false ∧
      t = { s with regs := t.regs, link := t.link } ∧ s.RegsOnly t [F.PORT_STATE.STATE 4]) ∧
  (∀ (q : PortIx) (s : State), s.running = true → s.isLive q.val = true →
    ∃ t, exec (.los q) s = .next t ∧ t.portState q.val = 1 ∧ t.fget (F.PORT_STATE.LAST_ERR q.val) = 0xB ∧ t.engs = s.engs ∧
      t.rooms = s.rooms ∧ t.ms = s.ms ∧ ∀ p, p ≠ q.val → p < 5 → t.portState p = s.portState p) ∧
  (∀ (w : BusWr) (s : State), s.Reached w Off.RING_CTRL → bitAt w.val.toNat 1 = false → s.fget (ringFld 1) = 0 →
    (bitAt w.val.toNat 0 = true → s.fget (ringFld 0) = 0 → s.fget F.PWR_STATUS.STATE ≠ 2 →
      bitAt (s.fget F.CLK_STATUS.LORLINK_LOCK) 0 = true → bitAt (s.fget F.CLK_STATUS.LORLINK_LOCK) 1 = true →
      ∃ t, exec (.join w) s = .next t ∧ t.fget (ringFld 0) = 1 ∧ t.flag (biasFld 0) = true ∧ t.flag (joinFld 0) = true ∧
        (∀ q, q < 2 → s.flag (F.PORT_CTRL.ENABLE q) = true → s.portState q = 0 → t.portState q = 1) ∧
        t.outbox = s.outbox ++ [.rings 0 true] ∧ t = { s with regs := t.regs, outbox := t.outbox }) ∧
    (bitAt w.val.toNat 0 = true → s.fget (ringFld 0) = 0 → bitAt (s.fget F.CLK_STATUS.LORLINK_LOCK) 0 = false →
      exec (.join w) s = .next s) ∧
    (bitAt w.val.toNat 0 = false → s.fget (ringFld 0) ≠ 0 →
      ∃ t, exec (.join w) s = .next t ∧ t.fget (ringFld 0) = 0 ∧ t.flag (biasFld 0) = false ∧ t.flag (joinFld 0) = false ∧
        t.portState 0 = 0 ∧ t.portState 1 = 0 ∧ t.outbox = s.outbox ++ [.rings 0 false] ∧
        t = { s with regs := t.regs, link := t.link, outbox := t.outbox })) ∧
  (∀ (g : RingIx) (s : State), s.running = true → s.fget (ringFld g.val) = 1 →
    (s.isLive (2 * g.val) = true ∨ s.isLive (2 * g.val + 1) = true →
      ∃ t, exec (.joinTimerExpiry g) s = .next t ∧ t.fget (ringFld g.val) = 3 ∧ t = { s with regs := t.regs } ∧
        s.RegsOnly t [ringFld g.val]) ∧
    (s.isLive (2 * g.val) = false → s.isLive (2 * g.val + 1) = false →
      ∃ t, exec (.joinTimerExpiry g) s = .next t ∧ t.fget (ringFld g.val) = 0 ∧ t.flag (biasFld g.val) = false ∧
        t.portState (2 * g.val) = 0 ∧ t.portState (2 * g.val + 1) = 0 ∧ t.flag F.RING_STATUS.JOIN_FAIL = true))

/-- R92 to R94, R491, R496, R497: the epoch timer and CLOSE send the open epoch and open the next; RESYNC begins on a STALE effective
keeper with its partner's handshake passed; a takeover makes a package effective keeper; a write of several bits is one write, its
bits acting from the lowest (assumption log 35); a GRACE that runs out is a breach. -/
def Obligations.WallEpochsCloseAndStatesChange : Prop :=
  (∀ s : State, s.running = true → s.flag F.PW_CTRL.MODE = false → s.wallState = 3 →
    ∃ t, exec .epochTimer s = .next t ∧ t.link.wall.openW = [] ∧
      t.fget F.PW_OUT_EPOCH.EPOCH = (s.fget F.PW_OUT_EPOCH.EPOCH + 1) % 2 ^ 32 ∧
      t.link.wall.sent = s.link.wall.sent ++ [(s.fget F.PW_OUT_EPOCH.EPOCH, s.link.wall.openW.flatMap cutWrite)] ∧
      t.link.out.length = s.link.out.length + (s.link.wall.openW.flatMap cutWrite).length + 1 ∧
      t = { s with regs := t.regs, link := t.link } ∧ s.RegsOnly t [F.PW_OUT_EPOCH.EPOCH]) ∧
  (∀ (w : BusWr) (s : State), s.Reached w Off.PW_CTRL → bitAt w.val.toNat 1 = true → s.wallState = 3 →
    ∃ t, exec (.close w) s = .next t ∧ t.link.wall.openW = [] ∧
      t.fget F.PW_OUT_EPOCH.EPOCH = (s.fget F.PW_OUT_EPOCH.EPOCH + 1) % 2 ^ 32 ∧
      t = { s with regs := t.regs, link := t.link }) ∧
  (∀ (w : BusWr) (s : State), s.Reached w Off.PW_CTRL → bitAt w.val.toNat 2 = true → s.wallState = 1 → s.keeperEff = true →
    s.portState 4 = 7 → (s.port 4).wallOk = true →
    ∃ t, exec (.resync w) s = .next t ∧ t.wallState = 2 ∧ t.flag F.PW_CTRL.RESYNC = true ∧
      t.link.wall.copyE = some (s.fget F.PW_OUT_EPOCH.EPOCH) ∧ t.link.wall.openW = [] ∧
      t.fget F.PW_OUT_EPOCH.EPOCH = (s.fget F.PW_OUT_EPOCH.EPOCH + 1) % 2 ^ 32 ∧ s.link.out <+: t.link.out ∧
      t = { s with regs := t.regs, link := t.link }) ∧
  (∀ (w : BusWr) (s : State), s.Reached w Off.PW_CTRL → s.holdsKey w.req = true → bitAt w.val.toNat 3 = true →
    s.wallState = 1 → s.flag F.PW_ROLE.KEEPER = false →
    (bitAt w.val.toNat 2 = true → s.keeperEff = false ∨ s.portState 4 ≠ 7 ∨ (s.port 4).wallOk = false) →
    ∃ t, exec (.takeover w) s = .next t ∧ t.flag F.LOCK_STATUS.OPEN = false ∧ t.flag F.PW_CTRL.TAKEOVER = true ∧ t.keeperEff = true ∧ t.wallState = 1 ∧
      t.link.wall = { s.link.wall with takeover := true } ∧ t = { s with regs := t.regs, link := t.link }) ∧
  (∀ (w : BusWr) (s : State), exec (.resync w) s = exec (.close w) s ∧ exec (.takeover w) s = exec (.close w) s) ∧
  (∀ s : State, s.running = true → s.wallState = 4 →
    ∃ t, exec .wallGraceExpiry s = .next t ∧ t.wallState = 1 ∧ t.fget F.PW_STATUS.CAUSE = 2 ∧
      t.flag F.PW_STATUS.WALL_BREACH = true ∧ t.link.wall.openW = [] ∧ t.link.wall.sent = [] ∧ t.link.wall.log = [] ∧
      t.ms = s.ms ∧ t.rooms = s.rooms ∧ t.engs = s.engs ∧ t.ctxs = s.ctxs)

/-! ### Contexts and the host boundary -/

/-- R148, R325, R409, R510, R520 to R525, R527: a context command is dropped while one is in progress and else starts; a CREATE makes
its context LIVE exactly when every check of R521 passes; a DESTROY and a function-level reset end a context once its blocks have,
with its translations, its retained lines and its held reads; apertures and the flue ring change only while no LIVE context uses
them. From when the device takes context commands is the model's reading (assumption log 42), as is what a VF that goes loses
(assumption log 43). -/
def Obligations.ContextsAreCreatedAndTornDown : Prop :=
  (∀ (w : BusWr) (s : State), s.Reached w Off.CTX_CMD →
    (s.flag F.CTX_STATUS.BUSY = true ∨ s.hs.flr ≠ [] → ∀ c ∈ [Instr.create w, Instr.destroy w],
      exec c s = .next (s.fset F.CTX_STATUS.DROP 1)) ∧
    (s.flag F.CTX_STATUS.BUSY = false → s.hs.flr = [] → s.ready = true →
      (bitsAt w.val.toNat 12 2 = 1 → ∃ t, exec (.create w) s = .next t ∧ t.flag F.CTX_STATUS.BUSY = true ∧
        t.hs = { s.hs with ctxOp := some (.create (Fin.ofNat 2048 w.val.toNat)) } ∧
        t.fget F.CTX_STATUS.CTX = w.val.toNat % 2048 ∧ t = { s with regs := t.regs, hs := t.hs } ∧
        s.RegsOnly t [F.CTX_CMD.CTX, F.CTX_CMD.OP, F.CTX_STATUS.BUSY, F.CTX_STATUS.CTX]) ∧
      (bitsAt w.val.toNat 12 2 = 2 → (s.ctx (w.val.toNat % 2048)).live = false →
        ∃ t, exec (.destroy w) s = .next t ∧ t.flag F.CTX_STATUS.BUSY = true ∧
          t.hs = { s.hs with ctxOp := some (.destroy (Fin.ofNat 2048 w.val.toNat)) } ∧
          t = { s with regs := t.regs, hs := t.hs }) ∧
      (bitsAt w.val.toNat 12 2 = 2 → (s.ctx (w.val.toNat % 2048)).live = true →
        ∃ t, exec (.destroy w) s = .next t ∧ (t.ctx (w.val.toNat % 2048)).stopped = true ∧
          t.hs.ctxOp = some (.destroy (Fin.ofNat 2048 w.val.toNat))))) ∧
  (∀ (c : CtxId) (s : State), s.hs.ctxOp = some (.create c) →
    ∃ t, exec .createEnd s = .next t ∧ t.fget F.CTX_STATUS.RESULT = s.createCheck c.val (s.ctxEntry c.val) ∧
      t.flag F.CTX_STATUS.BUSY = false ∧ t.hs.ctxOp = none ∧
      (s.createCheck c.val (s.ctxEntry c.val) = 0 → t.ctx c.val = entryCtx (s.ctxEntry c.val)) ∧
      (s.createCheck c.val (s.ctxEntry c.val) ≠ 0 → t.ctxs = s.ctxs) ∧ (∀ d, d ≠ c.val → t.ctx d = s.ctx d) ∧
      t = { s with regs := t.regs, ctxs := t.ctxs, hs := t.hs, outbox := t.outbox }) ∧
  (∀ (c : CtxId) (s : State), s.hs.ctxOp = some (.destroy c) → s.hs.flr = [] →
    (s.quiet c.val = false → exec .destroyEnd s = .next s) ∧
    (s.quiet c.val = true → ∃ t, exec .destroyEnd s = .next t ∧ t.ctx c.val = Ctx.none ∧ (∀ d, d ≠ c.val → t.ctx d = s.ctx d) ∧
      t.fget F.CTX_STATUS.RESULT = 0 ∧ t.flag F.CTX_STATUS.BUSY = false ∧ t.hs.ctxOp = none ∧ t.rooms = s.rooms ∧
      t.ms.mem = s.ms.mem ∧ (∀ p ∈ (s.ctx c.val).heldReads, Out.pageRead p 0 ∈ t.outbox) ∧
      (∀ r, ∀ e ∈ t.ms.roomTlb.get (fun _ => []) r, e.ctx ≠ c.val) ∧ (∀ f, ∀ e ∈ t.ms.floorTlb.get (fun _ => []) f, e.ctx ≠ c.val) ∧
      (∀ f, ∀ e ∈ t.ms.ledgerC.get (fun _ => []) f, e.1 ≠ c.val) ∧
      (∀ f, ∀ x ∈ t.ms.lines.get (fun _ => []) f, x.keep ≠ some c.val))) ∧
  (∀ (v : Fin 256) (s : State), s.running = true → s.hs.flr = [] → s.liveOf (.vf v) = [] →
    ∃ t, exec (.functionLevelReset (.vf v)) s = .next t ∧
      (∀ off, off < 0x10000 → t.hs.vfRegs.get vfRegReset (v.val * 0x10000 + off) = vfRegReset (v.val * 0x10000 + off)) ∧
      (∀ key, key / 0x10000 ≠ v.val → t.hs.vfRegs.get vfRegReset key = s.hs.vfRegs.get vfRegReset key) ∧
      (∀ vec, (Func.vf v, vec) ∉ t.hs.msixPnd) ∧ t = { s with hs := t.hs }) ∧
  (∀ (f : Func) (s : State), s.running = true →
    ∃ t, exec (.functionLevelReset f) s = .next t ∧ ∀ c ∈ s.liveOf f, c ∈ t.hs.flr ∨ t.ctx c = Ctx.none) ∧
  (∀ (en : Bool) (n : Fin 257) (s : State), s.running = true →
    ∃ t, exec (.vfEnable en n) s = .next t ∧ t.hs.vfEn = en ∧
      t.hs.numVfs = (if s.hs.vfEn then s.hs.numVfs else n.val) ∧ t = { s with hs := t.hs } ∧
      (en = true → t.hs.vfRegs = s.hs.vfRegs) ∧
      (en = false → ∀ key, key < 256 * 0x10000 → t.hs.vfRegs.get vfRegReset key = vfRegReset key)) ∧
  (∀ (v : Fin 256) (isSize : Bool) (w : BusWr) (s : State),
    s.Reached w (if isSize then Off.VF_APT_SIZE v.val else Off.VF_APT_BASE v.val) → s.holdsKey w.req = true →
    let x := if isSize then w.val.toNat % 2 ^ 12 else w.val.toNat % 2 ^ 27
    let f := if isSize then F.VF_APT_SIZE.SIZE v.val else F.VF_APT_BASE.BASE v.val
    let a := (s.fset f x).aperture v.val
    let used := s.ctxs.any fun p => p.2.live && p.2.func == v.val + 1
    (isSize = true → x ≤ 2048) →
    (used = true ∨ hbmEnd < a.1 + a.2 →
      ∃ t, exec (.vfAptWrite v isSize w) s = .next t ∧ t.flag F.CTX_STATUS.CFG_REFUSED = true ∧ t.fget f = s.fget f ∧
        t = { s with regs := t.regs } ∧ s.RegsOnly t [F.LOCK_STATUS.OPEN, F.CTX_STATUS.CFG_REFUSED]) ∧
    (used = false → a.1 + a.2 ≤ hbmEnd →
      ∃ t, exec (.vfAptWrite v isSize w) s = .next t ∧ t.fget f = x ∧ t = { s with regs := t.regs } ∧
        s.RegsOnly t [F.LOCK_STATUS.OPEN, f])) ∧
  (∀ (k : Fin 3) (w : BusWr) (s : State),
    s.Reached w (if k = 0 then Off.FLUE_BASE_LO else if k = 1 then Off.FLUE_BASE_HI else Off.FLUE_SIZE) →
    ((s.ctxs.any fun p => p.2.live) = true → exec (.flueConfigWrite k w) s = .next (s.fset F.CTX_STATUS.CFG_REFUSED 1)) ∧
    ((s.ctxs.any fun p => p.2.live) = false → (k = 2 → 8 ≤ w.val.toNat % 32 ∧ w.val.toNat % 32 ≤ 20) →
      let f := if k = 0 then F.FLUE_BASE_LO.ADDR_LO else if k = 1 then F.FLUE_BASE_HI.ADDR_HI else F.FLUE_SIZE.LOG2
      ∃ t, exec (.flueConfigWrite k w) s = .next t ∧ t.fget f = bitsAt w.val.toNat f.lsb f.width ∧ t = { s with regs := t.regs } ∧
        s.RegsOnly t [f]))

/-- R504 to R507, R513, R517, R530: the host link comes and goes, a function enters D3hot unless LIVE contexts forbid it, a MSI-X
interval ends with one merged message or closes, a lost cellar link is reported, and a BAR4 access moves bytes of HBM. -/
def Obligations.TheHostBoundaryIsServed : Prop :=
  (∀ s : State, s.running = true → s.hs.linkUp = true →
    ∃ t, exec .pcieLinkDown s = .next t ∧ t.hs.linkUp = false ∧ t.hs.barWait = [] ∧ t.hs.vfEn = false ∧ t.hs.msixPnd = [] ∧
      t.fget F.PKG_IRQ_STATUS.EVENTS = 0 ∧ t.fget F.FLUE_HEAD.HEAD = 0 ∧
      (∀ off, 0x440000 ≤ off → off < 0x450100 → t.reg off = RegMap.resetOf off) ∧
      (s.hs.flr = [] → s.liveOf .pf = [] → t = { s with regs := t.regs, hs := t.hs })) ∧
  (∀ s : State, s.running = true →
    ∃ t, exec .pcieLinkUp s = .next t ∧ t.hs = { s.hs with linkUp := true } ∧ t.flag F.CLK_STATUS.PCIE_LOCK = true ∧
      t = { s with regs := t.regs, hs := t.hs } ∧ s.RegsOnly t [F.CLK_STATUS.PCIE_LOCK]) ∧
  (∀ (f : Func) (s : State), s.running = true →
    (f = .pf → (s.ctxs.any fun p => p.2.live) = true → exec (.pmD3hot f) s = .next s) ∧
    ((f = .pf → (s.ctxs.any fun p => p.2.live) = false) →
      ∃ t, exec (.pmD3hot f) s = .next t ∧ t.hs.d3hot.get (fun _ => false) (funcNum f) = true ∧
        t = { s with hs := { s.hs with d3hot := t.hs.d3hot } })) ∧
  (∀ (f : Func) (vec : Nat) (s : State), vectorOk f vec = true → (f, vec) ∈ s.hs.msixOn →
    ((f, vec) ∈ s.hs.msixPnd → s.hs.linkUp = true → s.vecMasked f vec = false →
      ∃ t, exec (.msixIntervalEnd f vec) s = .next t ∧ t.outbox = s.outbox ++ [.msix f vec] ∧ (f, vec) ∈ t.hs.msixOn ∧
        (f, vec) ∉ t.hs.msixPnd ∧ t = { s with hs := { s.hs with msixPnd := t.hs.msixPnd }, outbox := t.outbox }) ∧
    ((f, vec) ∉ s.hs.msixPnd →
      ∃ t, exec (.msixIntervalEnd f vec) s = .next t ∧ (f, vec) ∉ t.hs.msixOn ∧
        (∀ p ∈ s.hs.msixOn, p ≠ (f, vec) → p ∈ t.hs.msixOn) ∧
        t = { s with hs := { s.hs with msixOn := t.hs.msixOn } })) ∧
  (∀ (p : Fin 2) (s : State), s.running = true →
    (s.flag (F.CXL_STATUS.DEV_OK p.val) = true →
      ∃ t, exec (.cxlLinkLost p) s = .next t ∧ t.flag (F.CXL_STATUS.DEV_OK p.val) = false ∧
        t.flag (F.CXL_STATUS.LINK_UP p.val) = false ∧ t.fget (F.CXL_STATUS.ERR p.val) = 4 ∧
        t.reg (Off.CXL_STATUS (1 - p.val)) = s.reg (Off.CXL_STATUS (1 - p.val))) ∧
    (s.flag (F.CXL_STATUS.DEV_OK p.val) = false → exec (.cxlLinkLost p) s = .next s)) ∧
  (∀ (f : Func) (addr : BitVec 39) (n : Nat) (s : State), bar4Ok f addr none n = true → s.barOn f = true → s.hs.barWait = [] →
    let p := s.barSpan { fn := f, off := addr.toNat, wdata := none, n := n }
    s.anyPoison p.1 p.2 = false →
    ∃ t d, exec (.bar4Access f addr none n) s = .next t ∧ t.outbox = s.outbox ++ [.memRead f d] ∧ d.length = n ∧
      (∀ i, i < p.2 → d.getD i 0 = Mem.byte s.ms.mem (p.1 + i)) ∧ (∀ i, p.2 ≤ i → d.getD i 0 = 0) ∧
      t = { s with outbox := t.outbox }) ∧
  (∀ (f : Func) (addr : BitVec 39) (l : List Byte) (s : State), bar4Ok f addr (some l) l.length = true → s.barOn f = true →
    s.hs.barWait = [] →
    let p := s.barSpan { fn := f, off := addr.toNat, wdata := some l, n := l.length }
    p.2 ≠ 0 →
    (s.wallBlocks p.1 p.2 = true →
      exec (.bar4Access f addr (some l) l.length) s = .next (s.countSat F.PW_COUNTS.BLOCKED 1)) ∧
    (s.wallBlocks p.1 p.2 = false → s.wallCaptures = false →
      ∃ t, exec (.bar4Access f addr (some l) l.length) s = .next t ∧
        (∀ i, i < p.2 → Mem.byte t.ms.mem (p.1 + i) = l.getD i 0) ∧
        (∀ a, a < p.1 ∨ p.1 + p.2 ≤ a → Mem.byte t.ms.mem a = Mem.byte s.ms.mem a) ∧
        t = { s with ms := t.ms } ∧ t.ctxs = s.ctxs))

/-! ### Management and test access -/

/-- R507, R535, R537 to R542: each management command that reaches the endpoint is answered with one message, and one that does
not changes nothing; identifiers, event receiver, sensors and the state of an update are as the command sets them. -/
def Obligations.ManagementCommandsAreAnswered : Prop :=
  (∀ (c : Instr) (b : MBus) (s : State), mgBusOf c = some b → c.wellFormed = true → s.mgHears b = false → exec c s = .next s) ∧
  (∀ (b : MBus) (s : State), s.mgHears b = true →
    (∀ op eid, op.toNat < 2 → idOk eid = true → exec (.setEndpointId b op eid) s =
      .next { s with mg := { s.mg with eid := eid }, outbox := s.outbox ++ [.mctp b 0 [0, eid, 0]] }) ∧
    (∀ op eid, op.toNat < 2 → idOk eid = false → exec (.setEndpointId b op eid) s =
      .next { s with outbox := s.outbox ++ [.mctp b ccInvalidData []] }) ∧
    exec (.getEndpointId b) s = .next { s with outbox := s.outbox ++ [.mctp b 0 [s.mg.eid, 0, 0]] } ∧
    (∃ d, d.length = 16 ∧ leOfList d = Config.endpointUuid.toNat ∧
      exec (.getEndpointUuid b) s = .next { s with outbox := s.outbox ++ [.mctp b 0 d] }) ∧
    (∀ ty, ty = 0xFF ∨ ty = 0 ∨ ty = 1 → ∃ d, d.length = 5 ∧
      exec (.getMctpVersionSupport b ty) s = .next { s with outbox := s.outbox ++ [.mctp b 0 d] }) ∧
    exec (.getMessageTypeSupport b) s = .next { s with outbox := s.outbox ++ [.mctp b 0 [1, 1]] } ∧
    (∀ ty cmd, ty = 0 → mctpKnown cmd = false →
      exec (.unsupportedMctpMessage b ty cmd) s = .next { s with outbox := s.outbox ++ [.mctp b ccUnsupported []] }) ∧
    (∀ ty cmd, ty ≠ 0 → exec (.unsupportedMctpMessage b ty cmd) s = .next s) ∧
    (∀ ty cmd, s.inRecovery = false ∨ ty = 5 → pldmKnown ty.toNat cmd.toNat = false →
      exec (.unsupportedPldmCommand b ty cmd) s = .next { s with outbox := s.outbox ++ [.pldm b ccUnsupported []] })) ∧
  (∀ (b : MBus) (s : State), s.mgHears b = true → s.inRecovery = false →
    (∀ tid, idOk tid = true → exec (.settid b tid) s =
      .next { s with mg := { s.mg with tid := tid }, outbox := s.outbox ++ [.pldm b 0 []] }) ∧
    exec (.gettid b) s = .next { s with outbox := s.outbox ++ [.pldm b 0 [s.mg.tid]] } ∧
    (∀ ty, ty = 0 ∨ ty = 2 ∨ ty = 5 → ∃ d, d.length = 9 ∧
      exec (.getpldmversion b ty) s = .next { s with outbox := s.outbox ++ [.pldm b 0 d] }) ∧
    exec (.getpldmtypes b) s = .next { s with outbox := s.outbox ++ [.pldm b 0 [0x25, 0, 0, 0, 0, 0, 0, 0]] } ∧
    (∀ ty, ty = 0 ∨ ty = 2 ∨ ty = 5 → ∃ d, d.length = 32 ∧
      (∀ n, n < 256 → bitAt (leOfList d) n = pldmKnown ty.toNat n) ∧
      exec (.getpldmcommands b ty) s = .next { s with outbox := s.outbox ++ [.pldm b 0 d] }) ∧
    (∀ en eid, en = 0 ∨ en = 1 ∨ en = 3 → exec (.seteventreceiver b en eid) s =
      .next { s with mg := { s.mg with evOn := en, evEid := eid }, outbox := s.outbox ++ [.pldm b 0 []] }) ∧
    (∀ sensor measured, isNumeric sensor.toNat = true → ∃ t d, exec (.getsensorreading b sensor measured) s = .next t ∧
      t = { s with freeCtr := t.freeCtr, outbox := s.outbox ++ [.pldm b 0 d] } ∧ d.length = 10 ∧
      (s.sensorOp sensor.toNat = 0 → leOfList (d.drop 6) = (s.numericReading sensor.toNat measured).toNat)) ∧
    (∀ sensor, isStateSensor sensor.toNat = true → ∃ t d, exec (.getstatesensorreadings b sensor) s = .next t ∧
      t = { s with freeCtr := t.freeCtr, outbox := s.outbox ++ [.pldm b 0 d] } ∧ d.length = 5 ∧
      d.getD 2 0 = stateByte sensor.toNat (s.stateOf sensor.toNat)) ∧
    (∀ sensor op, isNumeric sensor.toNat = true → op.toNat ≤ 2 → ∃ t, exec (.setnumericsensorenable b sensor op) s = .next t ∧
      t.sensorOp sensor.toNat = op.toNat ∧ (∀ n, n ≠ sensor.toNat → t.sensorOp n = s.sensorOp n) ∧
      t.outbox = s.outbox ++ [.pldm b 0 []] ∧ t = { s with mg := { s.mg with senOff := t.mg.senOff }, outbox := t.outbox }) ∧
    (∃ t d, exec (.getpdrrepositoryinfo b) s = .next t ∧ d.length = 40 ∧ leOfList ((d.drop 27).take 4) = 26 ∧
      t = { s with freeCtr := t.freeCtr, outbox := s.outbox ++ [.pldm b 0 d] }) ∧
    (∀ h n, sensorIds[pdrIndex h.toNat]? = some n → ∃ t d, exec (.getpdr b h) s = .next t ∧
      t = { s with freeCtr := t.freeCtr, outbox := s.outbox ++ [.pldm b 0 d] } ∧
      leOfList (d.take 4) = (if pdrIndex h.toNat + 2 ≤ 26 then pdrIndex h.toNat + 2 else 0) ∧
      leOfList (d.drop (d.length - 2)) = n)) ∧
  (∀ (sensor : BitVec 16) (s : State), s.running = true → isStateSensor sensor.toNat = true →
    s.mg.lastSent.get (fun _ => 0) sensor.toNat ≠ s.stateOf sensor.toNat →
    ∃ t, exec (.stateSensorChange sensor) s = .next t ∧
      t.mg.lastSent.get (fun _ => 0) sensor.toNat = s.stateOf sensor.toNat ∧ t = { s with mg := t.mg, outbox := t.outbox } ∧
      (sensor.toNat ∈ s.mg.merging → sensor.toNat ∈ t.mg.pendingE ∧ t.outbox = s.outbox) ∧
      (sensor.toNat ∉ s.mg.merging → s.mg.evOn ≠ 0 → sensor.toNat ∈ t.mg.merging ∧ t.outbox = s.outbox ++
        [.event s.mg.evEid sensor.toNat (stateByte sensor.toNat (s.stateOf sensor.toNat)).toNat])) ∧
  (∀ (sensor : BitVec 16) (s : State), sensor.toNat ∈ s.mg.merging →
    ∃ t, exec (.eventMergeExpiry sensor) s = .next t ∧ t = { s with mg := t.mg, outbox := t.outbox } ∧
      sensor.toNat ∉ t.mg.pendingE ∧
      (sensor.toNat ∉ s.mg.pendingE → sensor.toNat ∉ t.mg.merging ∧ t.outbox = s.outbox) ∧
      (sensor.toNat ∈ s.mg.pendingE → s.mg.evOn ≠ 0 → sensor.toNat ∈ t.mg.merging ∧ t.outbox = s.outbox ++
        [.event s.mg.evEid sensor.toNat (stateByte sensor.toNat (s.stateOf sensor.toNat)).toNat])) ∧
  (∀ (b : MBus) (s : State), s.mgHears b = true →
    let step1 := fun (u : UpdSt) (d : List Byte) =>
      (.next { s with mg := { s.mg with upd := u }, outbox := s.outbox ++ [.pldm b 0 d] } : Host.Outcome State Fault Refusal)
    (∃ d, d.length = 17 ∧ exec (.querydeviceidentifiers b) s = .next { s with outbox := s.outbox ++ [.pldm b 0 d] }) ∧
    (∃ t d, exec (.getfirmwareparameters b) s = .next t ∧
      t = { s with freeCtr := t.freeCtr, outbox := s.outbox ++ [.pldm b 0 d] } ∧ d.length = 18) ∧
    (∃ t d, exec (.getstatus b) s = .next t ∧ d.length = 10 ∧ (d.getD 0 0).toNat = updCode s.mg.upd ∧
      t = { s with freeCtr := t.freeCtr, outbox := s.outbox ++ [.pldm b 0 d] }) ∧
    (∀ n, s.mg.upd = .idle → n ≠ 0 → exec (.requestupdate b n) s = step1 .learn []) ∧
    (∀ n, s.mg.upd ≠ .idle → exec (.requestupdate b n) s = .next { s with outbox := s.outbox ++ [.pldm b 0x81 []] }) ∧
    (∀ comp, s.mg.upd = .learn ∨ s.mg.upd = .ready → compOk comp.toNat = true → exec (.passcomponenttable b comp) s = step1 .ready [0]) ∧
    (∀ comp ver data c x, s.mg.upd = .ready → updateOk data = true → compOk comp.toNat = true →
      dirPick s.boot.flash = some c → s.updItem c comp.toNat = some x →
      exec (.updatecomponent b comp ver data) s = .next { s with
        boot := { s.boot with flash := writeUpdate s.boot.flash s.boot.dirCopy c x ver.toNat data }
        mg := { s.mg with upd := .download }
        outbox := s.outbox ++ [.pldm b 0 [], .fwRequest b 0 data.length] }) ∧
    (∀ r, s.mg.upd = .download → exec (.transfercomplete b r) s = step1 (if r = 0 then .verify else .ready) []) ∧
    (∀ r, s.mg.upd = .verify → exec (.verifycomplete b r) s = step1 (if r = 0 then .apply else .ready) []) ∧
    (∀ r, s.mg.upd = .apply → exec (.applycomplete b r) s = step1 .ready []) ∧
    (s.mg.upd = .ready → exec (.activatefirmware b false) s = step1 .idle [0, 0]) ∧
    (s.mg.upd = .ready → exec (.activatefirmware b true) s = .next { s with outbox := s.outbox ++ [.pldm b 0x8C []] }) ∧
    (s.mg.upd = .download ∨ s.mg.upd = .verify ∨ s.mg.upd = .apply → exec (.cancelupdatecomponent b) s = step1 .ready []) ∧
    (s.mg.upd ≠ .idle → exec (.cancelupdate b) s = step1 .idle [0, 0, 0, 0, 0, 0, 0, 0, 0]))

/-- R543 to R545: each TAP instruction is selected and changes nothing outside the TAP and its cells; EXTEST, HIGHZ and CLAMP
reach the pins only while RESET_N is asserted; IDCODE shifts out the identity of R543. -/
def Obligations.TestAccessStaysInTheTap : Prop :=
  ∀ s : State,
    exec .extest s = .next { s with jtag := { s.jtag with ir := 0 } } ∧
    (∀ v, exec (.samplePreload v) s = .next { s with jtag := { ir := 1, cells := v } }) ∧
    exec .idcode s = .next { s with jtag := { s.jtag with ir := 2 }, outbox := s.outbox ++ [.tdo 0xB940046D] } ∧
    exec .highz s = .next { s with jtag := { s.jtag with ir := 3 } } ∧
    exec .clamp s = .next { s with jtag := { s.jtag with ir := 4 } } ∧
    (∀ ir : Byte, 5 ≤ ir.toNat → exec (.bypass ir) s = .next { s with jtag := { s.jtag with ir := ir } }) ∧
    exec .trstN s = .next { s with jtag := { s.jtag with ir := 2 } } ∧
    (s.pwr.resetN = false → s.pinDrive = .device) ∧
    (s.pwr.resetN = true → (s.jtag.ir = 0 ∨ s.jtag.ir = 4 → s.pinDrive = .cells) ∧ (s.jtag.ir = 3 → s.pinDrive = .highZ) ∧
      (s.jtag.ir ≠ 0 → s.jtag.ir ≠ 3 → s.jtag.ir ≠ 4 → s.pinDrive = .device))

/-! ### Clocks, supplies, resets and power -/

/-- R551, R549 to R557, R571 to R581: the timestamp's upper half is latched by a read of its lower; warnings stretch the clock;
a rate follows cap and heat between 1 and 16; a lost PLL takes its interface down; every cold reset clears the machine and
notes its cause; release runs start-up to its end or to RECOVERY; warm reset keeps the timestamp, the seal and the boot. Which registers
warm reset keeps and what it does in RECOVERY are the model's readings (assumption logs 44 and 45). -/
def Obligations.ClocksSuppliesAndResetsAct : Prop :=
  (∀ (r : Req) (s : State), s.running = true →
    ∃ t, exec (.tsLoRead r) s = .next t ∧ t.outbox = s.outbox ++ [.readData r (BitVec.ofNat 32 (s.ts.toNat % 2 ^ 32))] ∧
      (t.reg Off.TS_HI).toNat = s.ts.toNat / 2 ^ 32 ∧ t = { s with regs := t.regs, outbox := t.outbox } ∧
      ∀ k, k ≠ Off.TS_HI → t.reg k = s.reg k) ∧
  (∀ s : State, s.running = true →
    (∀ c ∈ [Instr.vddCoreWarning, Instr.supplyWarning .vddCore],
      ∃ t, exec c s = .next t ∧ t.flag F.CLK_STATUS.STRETCH = true ∧ t.flag F.SUPPLY_STATUS.WARN_SEEN = true ∧
        t.fget F.SUPPLY_STATUS.WARN_COUNT = (if s.flag F.CLK_STATUS.STRETCH then s.fget F.SUPPLY_STATUS.WARN_COUNT
          else satAdd 65535 (s.fget F.SUPPLY_STATUS.WARN_COUNT) 1) ∧
        t = { s with regs := t.regs, hs := t.hs, outbox := t.outbox }) ∧
    (∀ x, x ≠ Rail.vddCore → ∃ t, exec (.supplyWarning x) s = .next t ∧ t.flag F.SUPPLY_STATUS.WARN_SEEN = true ∧
      bitAt (t.fget F.SUPPLY_STATUS.WARN_RAIL) (railIx x) = true ∧ t.fget F.CLK_STATUS.STRETCH = s.fget F.CLK_STATUS.STRETCH ∧
      t = { s with regs := t.regs, hs := t.hs, outbox := t.outbox }) ∧
    (∃ t, exec .stretchEnd s = .next t ∧ t.flag F.CLK_STATUS.STRETCH = false ∧ t = { s with regs := t.regs } ∧
      s.RegsOnly t [F.CLK_STATUS.STRETCH])) ∧
  (∀ (env : RateEnv) (s : State), s.running = true → 1 ≤ s.fget F.THERM_STATUS.RATE_CAP → s.fget F.THERM_STATUS.RATE_CAP ≤ 16 →
    1 ≤ s.fget F.THERM_STATUS.RATE_THERM → s.fget F.THERM_STATUS.RATE_THERM ≤ 16 →
    ∃ t, exec (.rateUpdate env) s = .next t ∧ 1 ≤ t.fget F.THERM_STATUS.RATE_CAP ∧ t.fget F.THERM_STATUS.RATE_CAP ≤ 16 ∧
      1 ≤ t.fget F.THERM_STATUS.RATE_THERM ∧ t.fget F.THERM_STATUS.RATE_THERM ≤ 16 ∧
      t.fget F.CLK_STATUS.RATE = min (t.fget F.THERM_STATUS.RATE_CAP) (t.fget F.THERM_STATUS.RATE_THERM) ∧
      t.flag F.THERM_STATUS.THROTTLE = decide (t.fget F.THERM_STATUS.RATE_THERM < 16) ∧
      (s.fget F.PWR_CAP.CAP < env.power → t.fget F.THERM_STATUS.RATE_CAP = max 1 (s.fget F.THERM_STATUS.RATE_CAP - 2)) ∧
      (200 ≤ env.dieMax ∨ 190 ≤ env.hbmMax →
        t.fget F.THERM_STATUS.RATE_THERM = max 1 (s.fget F.THERM_STATUS.RATE_THERM - 2)) ∧
      t = { s with regs := t.regs, hs := t.hs, outbox := t.outbox }) ∧
  (∀ s : State, s.running = true →
    (∀ q : PortIx, s.isLive q.val = true → ∃ t, exec (.pllLoss (.lorlink q)) s = .next t ∧ t.portState q.val = 1 ∧
      t.fget (F.PORT_STATE.LAST_ERR q.val) = 0xB ∧ t.flag F.THERM_STATUS.PLL_LOSS = true ∧
      bitAt (t.fget F.CLK_STATUS.LORLINK_LOCK) q.val = false ∧ t.rooms = s.rooms ∧ t.engs = s.engs ∧ t.ms = s.ms) ∧
    (∀ k, ∃ t, exec (.pllLoss (.hbm k)) s = .next t ∧ s.ColdFrom t ∧ t.pwr.hold = .clock ∧ t.flag F.RST_CAUSE.CLOCK = true) ∧
    (∃ t, exec (.pllLoss .pcie) s = .next t ∧ t.hs.linkUp = false ∧ t.flag F.CLK_STATUS.PCIE_LOCK = false ∧ t.hs.barWait = []) ∧
    (∀ p : Fin 2, ∃ t, exec (.pllLoss (.cellar p)) s = .next t ∧ t.flag (F.CXL_STATUS.DEV_OK p.val) = false ∧
      bitAt (t.fget F.CLK_STATUS.CXL_LOCK) p.val = false)) ∧
  (∀ s : State,
    (∀ c ∈ [Instr.powerOnReset, Instr.supplyReset .vaux], ∃ t, exec c s = .next t ∧ s.ColdFrom t ∧ t.regs = State.reset.regs ∧
      t.pwr = { State.reset.pwr with resetN := s.pwr.resetN }) ∧
    (∀ x, x ≠ Rail.vaux → ∃ t, exec (.supplyReset x) s = .next t ∧ s.ColdFrom t ∧ t.flag F.RST_CAUSE.SUPPLY = true ∧
      t.fget F.RST_CAUSE.RAIL = railCode x ∧ t.pwr.hold = (if s.pwr.hold = .up then .cold else s.pwr.hold)) ∧
    (∃ t, exec (.coldReset .resetN) s = .next t ∧ s.ColdFrom t ∧ t.flag F.RST_CAUSE.PIN = true ∧ t.pwr.hold = .cold ∧
      t.pwr.resetN = true ∧ t.pwr.thermtrip = false) ∧
    (∃ t, exec (.coldReset .pwrGood) s = .next t ∧ s.ColdFrom t ∧ t.flag F.RST_CAUSE.PWR_GOOD = true ∧
      t.pwr.hold = (if s.pwr.hold = .up then .cold else s.pwr.hold)) ∧
    (s.pwr.resetN = false → s.pwr.hold ≠ .trip → ∃ t, exec .refclkLoss s = .next t ∧ s.ColdFrom t ∧
      t.flag F.RST_CAUSE.CLOCK = true ∧ t.pwr.hold = .clock ∧ t.outbox = s.outbox ++ [.rings 0 false, .rings 1 false]) ∧
    (s.pwr.resetN = false → ∀ x, ∃ t, exec (.thermalTrip x) s = .next t ∧ s.ColdFrom t ∧ t.flag F.RST_CAUSE.THERMTRIP = true ∧
      t.pwr.hold = .trip ∧ t.pwr.thermtrip = true) ∧
    (s.pwr.resetN = true → exec .refclkLoss s = .next s ∧ ∀ x, exec (.thermalTrip x) s = .next s)) ∧
  (∀ (env : StartEnv) (s : State), env.ok = true →
    (s.pwr.hold ≠ .cold ∨ env.pinsOk = false → exec (.coldResetRelease env) s = .next s) ∧
    (s.pwr.hold = .cold → env.pinsOk = true → ∃ t, exec (.coldResetRelease env) s = .next t ∧ t.running = true ∧ t.ts = 0 ∧
      (t.fget F.BOOT_STATUS.STAGE = 5 ∨ t.fget F.BOOT_STATUS.STAGE = 0xF) ∧
      (env.flashOk = false → t.fget F.BOOT_STATUS.STAGE = 0xF ∧ t.fget F.BOOT_STATUS.ERR = 6) ∧
      (env.flashOk = true → dirPick (s.flashAt env) = none →
        t.fget F.BOOT_STATUS.STAGE = 0xF ∧ t.fget F.BOOT_STATUS.ERR = 1))) ∧
  (∀ (w : BusWr) (env : TestEnv) (s : State), s.Reached w Off.RST_CTRL → s.holdsKey w.req = true → bitAt w.val.toNat 0 = true →
    env.sramFails = [] →
    ∃ t, exec (.warm w env) s = .next t ∧ t.flag F.RST_CAUSE.WARM = true ∧ t.ts = s.ts ∧ t.sealer = s.sealer ∧ t.boot = s.boot ∧
      t.jtag = s.jtag ∧ (∀ c, t.ctx c = Ctx.none) ∧ t.latches = [] ∧ t.engs = [] ∧ t.pwr.hold = s.pwr.hold)

/-- R558 to R568, R595: a power command is refused, dropped or started as R559 says, and its end brings the new state; RETAIN
waits for the drain and takes the rooms' contents; a room's gate changes only when the room holds no work, and takes or returns
its power. Which stores the drain waits for is the model's reading (assumption log 49). -/
def Obligations.PowerStatesAndRoomGatesFollowTheirCommands : Prop :=
  (∀ (w : BusWr) (s : State), s.Reached w Off.PWR_CMD → s.holdsKey w.req = true → ∀ c ∈ [Instr.active w, Instr.idle w, Instr.retain w],
    let g := w.val.toNat % 4
    let st := s.fget F.PWR_STATUS.STATE
    (g = 3 → exec c s = .next s.closeLock) ∧
    (g ≠ 3 → s.flag F.PWR_STATUS.BUSY = true → exec c s = .next (s.closeLock.fset F.PWR_STATUS.DROP 1)) ∧
    (g ≠ 3 → s.flag F.PWR_STATUS.BUSY = false → ∃ t, exec c s = .next t ∧ t.fget F.PWR_CMD.TARGET = g ∧
      t.fget F.PWR_STATUS.STATE = st ∧ t.flag F.LOCK_STATUS.OPEN = false ∧ t.rooms = s.rooms ∧ t.engs = s.engs ∧ t.ms = s.ms ∧
      (g = st → t.flag F.PWR_STATUS.DONE = true ∧ t.flag F.PWR_STATUS.BUSY = false ∧ t.pwr.trans = none) ∧
      (g ≠ st → g = 2 → (s.ctxs.any fun p => p.2.live) = true → t.fget F.PWR_STATUS.REFUSED = 1 ∧
        t.flag F.PWR_STATUS.BUSY = false ∧ t.pwr.trans = none) ∧
      (g ≠ st → g = 2 → (s.ctxs.any fun p => p.2.live) = false → t.flag F.PWR_STATUS.BUSY = true ∧ t.pwr.fwHalt = true ∧
        t.pwr.trans = some { target := 2, origin := st, closed := s.drained }) ∧
      (st = 2 → g = 1 → t.fget F.PWR_STATUS.REFUSED = 3 ∧ t.flag F.PWR_STATUS.BUSY = false ∧ t.pwr.trans = none) ∧
      (g ≠ st → g ≠ 2 → (st = 2 → g ≠ 1) → t.flag F.PWR_STATUS.BUSY = true ∧
        t.pwr.trans = some { target := g, origin := st, closed := false }))) ∧
  (∀ s : State,
    (s.inTrans 1 0 = true → ∃ t, exec .idleEntryEnd s = .next t ∧ t.fget F.PWR_STATUS.STATE = 1 ∧
      t.flag F.PWR_STATUS.BUSY = false ∧ t.flag F.PWR_STATUS.DONE = true ∧ t.pwr = { s.pwr with trans := none } ∧
      t = { s with regs := t.regs, hs := t.hs, pwr := t.pwr, outbox := t.outbox }) ∧
    (s.inTrans 0 1 = true → ∃ t, exec .idleExitEnd s = .next t ∧ t.fget F.PWR_STATUS.STATE = 0 ∧
      t.flag F.PWR_STATUS.BUSY = false ∧ t.flag F.PWR_STATUS.DONE = true ∧ t.pwr = { s.pwr with trans := none } ∧
      t = { s with regs := t.regs, hs := t.hs, pwr := t.pwr, outbox := t.outbox }) ∧
    (s.retainDrains = true → s.drained = false → ∃ t, exec .drainTimeout s = .next t ∧ t.fget F.PWR_STATUS.REFUSED = 2 ∧
      t.flag F.PWR_STATUS.BUSY = false ∧ t.fget F.PWR_STATUS.STATE = s.fget F.PWR_STATUS.STATE ∧
      t.pwr = { s.pwr with trans := none, fwHalt := false } ∧
      t = { s with regs := t.regs, hs := t.hs, pwr := t.pwr, outbox := t.outbox })) ∧
  (∀ (s : State) (x : PwrTrans), s.pwr.trans = some x → x.target = 2 →
    (x.closed = true → ∃ t, exec .retainEntryEnd s = .next t ∧ t.fget F.PWR_STATUS.STATE = 2 ∧ t.flag F.PWR_STATUS.BUSY = false ∧
      t.flag F.PWR_STATUS.DONE = true ∧ t.pwr.trans = none ∧ t.engs = [] ∧ (∀ r, (t.room r).cmds = [] ∧ (t.room r).store = []) ∧
      t.portState 4 = 0 ∧ t.ms.mem = s.ms.mem) ∧
    (x.closed = false → s.drained = true → ∃ t, exec .retainEntryEnd s = .next t ∧
      t.pwr = { s.pwr with trans := some { x with closed := true } } ∧ t.fget (ringFld 0) = 0 ∧ t.fget (ringFld 1) = 0 ∧
      t.fget F.PWR_STATUS.STATE = s.fget F.PWR_STATUS.STATE ∧ t.rooms = s.rooms ∧ t.engs = s.engs ∧ t.ms = s.ms) ∧
    (x.closed = false → s.drained = false → exec .retainEntryEnd s = .next s)) ∧
  (∀ (env : TestEnv) (s : State), s.inTrans 0 2 = true → env.sramFails = [] →
    ∃ t, exec (.retainExitEnd env) s = .next t ∧ t.fget F.PWR_STATUS.STATE = 0 ∧ t.flag F.PWR_STATUS.BUSY = false ∧
      t.flag F.PWR_STATUS.DONE = true ∧ t.pwr = { s.pwr with trans := none, fwHalt := false } ∧ t.latches = [] ∧
      t.engs = s.engs ∧ t.ms = s.ms) ∧
  (∀ (f : FloorIx) (w : BusWr) (s : State), s.Reached w (Off.ROOM_PWR f.val) →
    (s.gateChanges f.val w.val.toNat = [] → exec (.roomPwrWrite f w) s = .next s) ∧
    (∀ r on, s.gateChanges f.val w.val.toNat = [(r, on)] →
      (s.gateRefused r = true → ∃ t, exec (.roomPwrWrite f w) s = .next t ∧ t.flag (F.ROOM_PWR.REFUSED f.val) = true ∧
        t.fget (F.ROOM_PWR.GATE f.val) = s.fget (F.ROOM_PWR.GATE f.val) ∧
        t = { s with regs := t.regs, hs := t.hs, outbox := t.outbox }) ∧
      (s.gateRefused r = false → ∃ t, exec (.roomPwrWrite f w) s = .next t ∧ t.flag (F.ROOM_PWR.REFUSED f.val) = false ∧
        bitAt (t.fget (F.ROOM_PWR.GATE f.val)) (r % 5) = on ∧ t.room r = { s.room r with gating := some on } ∧
        (∀ q, q ≠ r → t.room q = s.room q) ∧ t = { s with regs := t.regs, rooms := t.rooms }))) ∧
  (∀ (r : RoomIx) (s : State), s.running = true →
    ((s.room r.val).gating = some true → ∃ t, exec (.roomGateEnd r) s = .next t ∧
      bitAt (t.fget (F.ROOM_PWR.GATED (roomFloor r.val))) (r.val % 5) = true ∧
      t.room r.val = { RoomSt.reset with outOfSvc := (t.room r.val).outOfSvc } ∧
      ∀ k, k < 5 → t.eng (r.val * 5 + k) = EngSt.reset) ∧
    ((s.room r.val).gating = some false → ∃ t, exec (.roomUngateEnd r) s = .next t ∧
      bitAt (t.fget (F.ROOM_PWR.GATED (roomFloor r.val))) (r.val % 5) = false ∧ (t.room r.val).gating = none ∧
      (t.room r.val).cmds = [] ∧ (t.room r.val).outOfSvc = (s.room r.val).outOfSvc ∧
      (∀ k, k < 5 → t.eng (r.val * 5 + k) = EngSt.reset) ∧ (∀ q, q ≠ r.val → t.room q = s.room q) ∧
      (s.boot.imageOk = true → (t.room r.val).bank (t.fget (F.RS_CTRL.ACTIVE r.val)) = s.boot.image)))

/-- What controls the machine is changed only by the commands that are there for it: every other command leaves timestamp,
mailbox, seal, arbiters, power and reset, boot, management endpoint and test access port as they were. -/
def Obligations.OnlyControlCommandsChangeControl : Prop :=
  ∀ (c : Instr) (s t : State), controlCmd c = false → exec c s = .next t → s.SameControl t
end

