-- ==== Sys2Proof/Laws/Exec.lean ====
section
/-! SUPPORT. The meaning that the dispatch gives each command, so that no proof unfolds the dispatch. -/

namespace Sys2Proof.Machine

@[simp] theorem exec_registerWrite (t : RegTarget) (w : RegAcc) (s : State) : exec (.registerWrite t w) s = execRegisterWrite t w s := rfl
@[simp] theorem exec_lockKeyWrite (w : BusWr) (s : State) : exec (.lockKeyWrite w) s = execLockKeyWrite w s := rfl
@[simp] theorem exec_bStagedApply (b : Boundary) (s : State) : exec (.bStagedApply b) s = execBStagedApply b s := rfl
@[simp] theorem exec_pWriteTakesEffect (d : Domain) (s : State) : exec (.pWriteTakesEffect d) s = execPWriteTakesEffect d s := rfl
@[simp] theorem exec_mailboxSelWrite (w : BusWr) (s : State) : exec (.mailboxSelWrite w) s = execMailboxSelWrite w s := rfl
@[simp] theorem exec_mailboxFetchDone (r : Req) (s : State) : exec (.mailboxFetchDone r) s = execMailboxFetchDone r s := rfl
@[simp] theorem exec_mailboxLastWordRead (r : Req) (s : State) : exec (.mailboxLastWordRead r) s = execMailboxLastWordRead r s := rfl
@[simp] theorem exec_remapWrite (t : RemapReg) (w : BusWr) (s : State) : exec (.remapWrite t w) s = execRemapWrite t w s := rfl
@[simp] theorem exec_fenceRequestWrite (t : RemapReg) (w : BusWr) (s : State) : exec (.fenceRequestWrite t w) s = execFenceRequestWrite t w s := rfl
@[simp] theorem exec_fenceDrainEnd (u : PhysUnit) (s : State) : exec (.fenceDrainEnd u) s = execFenceDrainEnd u s := rfl
@[simp] theorem exec_unitFailureDetected (f : Failure) (s : State) : exec (.unitFailureDetected f) s = execUnitFailureDetected f s := rfl
@[simp] theorem exec_sramUncorrectable (x : SramSite) (s : State) : exec (.sramUncorrectable x) s = execSramUncorrectable x s := rfl
@[simp] theorem exec_sealSweepSnapshot (s : State) : exec .sealSweepSnapshot s = execSealSweepSnapshot s := rfl
@[simp] theorem exec_sealSweepEnd (s : State) : exec .sealSweepEnd s = execSealSweepEnd s := rfl
@[simp] theorem exec_sealHoldExpiry (s : State) : exec .sealHoldExpiry s = execSealHoldExpiry s := rfl
@[simp] theorem exec_sealCommit (w : BusWr) (s : State) : exec (.sealCommit w) s = execSealCommit w s := rfl
@[simp] theorem exec_sealCommitEnd (s : State) : exec .sealCommitEnd s = execSealCommitEnd s := rfl
@[simp] theorem exec_keystoneSet (w : BusWr) (s : State) : exec (.keystoneSet w) s = execKeystoneSet w s := rfl
@[simp] theorem exec_dbTailWrite (p : DbPage) (w : BusWr) (s : State) : exec (.dbTailWrite p w) s = execDbTailWrite p w s := rfl
@[simp] theorem exec_dbDepthRead (p : DbPage) (s : State) : exec (.dbDepthRead p) s = execDbDepthRead p s := rfl
@[simp] theorem exec_compatHoldEnd (p : DbPage) (timeout : Bool) (s : State) : exec (.compatHoldEnd p timeout) s = execCompatHoldEnd p timeout s := rfl
@[simp] theorem exec_descriptorDelivery (s : State) : exec .descriptorDelivery s = execDescriptorDelivery s := rfl
@[simp] theorem exec_commandDispatch (c : CmdRef) (s : State) : exec (.commandDispatch c) s = execCommandDispatch c s := rfl
@[simp] theorem exec_commandComplete (c : CmdRef) (s : State) : exec (.commandComplete c) s = execCommandComplete c s := rfl
@[simp] theorem exec_commandFault (c : CmdRef) (s : State) : exec (.commandFault c) s = execCommandFault c s := rfl
@[simp] theorem exec_sync (c : CmdRef) (s : State) : exec (.sync c) s = execSync c s := rfl
@[simp] theorem exec_matmul (c : ArrayRun) (s : State) : exec (.matmul c) s = execMatmul c s := rfl
@[simp] theorem exec_load (c : CmdRef) (s : State) : exec (.load c) s = execLoad c s := rfl
@[simp] theorem exec_store (c : CmdRef) (s : State) : exec (.store c) s = execStore c s := rfl
@[simp] theorem exec_gather (c : CmdRef) (s : State) : exec (.gather c) s = execGather c s := rfl
@[simp] theorem exec_scatter (c : CmdRef) (s : State) : exec (.scatter c) s = execScatter c s := rfl
@[simp] theorem exec_halo (c : CmdRef) (s : State) : exec (.halo c) s = execHalo c s := rfl
@[simp] theorem exec_mortarOpen (c : CmdRef) (s : State) : exec (.mortarOpen c) s = execMortarOpen c s := rfl
@[simp] theorem exec_call (c : CmdRef) (s : State) : exec (.call c) s = execCall c s := rfl
@[simp] theorem exec_latchValWrite (w : BusWr) (s : State) : exec (.latchValWrite w) s = execLatchValWrite w s := rfl
@[simp] theorem exec_fwGo (r : RoomIx) (w : BusWr) (s : State) : exec (.fwGo r w) s = execFwGo r w s := rfl
@[simp] theorem exec_brkModeWrite (r : RoomIx) (w : BusWr) (s : State) : exec (.brkModeWrite r w) s = execBrkModeWrite r w s := rfl
@[simp] theorem exec_brkResume (r : RoomIx) (w : BusWr) (s : State) : exec (.brkResume r w) s = execBrkResume r w s := rfl
@[simp] theorem exec_engineRecord (e : EngIx) (s : State) : exec (.engineRecord e) s = execEngineRecord e s := rfl
@[simp] theorem exec_dieStageRecord (d : DieIx) (s : State) : exec (.dieStageRecord d) s = execDieStageRecord d s := rfl
@[simp] theorem exec_mortarForwardTimeout (st : MortarStage) (k : MergeKey) (s : State) : exec (.mortarForwardTimeout st k) s = execMortarForwardTimeout st k s := rfl
@[simp] theorem exec_packageStageRecord (s : State) : exec .packageStageRecord s = execPackageStageRecord s := rfl
@[simp] theorem exec_serviceEntry (r : RoomIx) (sq : List Young) (s : State) : exec (.serviceEntry r sq) s = execServiceEntry r sq s := rfl
@[simp] theorem exec_routineLimitExpiry (r : RoomIx) (s : State) : exec (.routineLimitExpiry r) s = execRoutineLimitExpiry r s := rfl
@[simp] theorem exec_iadd (r : Pipe) (rd : GReg) (ra : GReg) (b : Src2) (s : State) : exec (.iadd r rd ra b) s = execIadd r rd ra b s := rfl
@[simp] theorem exec_isub (r : Pipe) (rd : GReg) (ra : GReg) (b : Src2) (s : State) : exec (.isub r rd ra b) s = execIsub r rd ra b s := rfl
@[simp] theorem exec_iand (r : Pipe) (rd : GReg) (ra : GReg) (b : Src2) (s : State) : exec (.iand r rd ra b) s = execIand r rd ra b s := rfl
@[simp] theorem exec_ior (r : Pipe) (rd : GReg) (ra : GReg) (b : Src2) (s : State) : exec (.ior r rd ra b) s = execIor r rd ra b s := rfl
@[simp] theorem exec_ixor (r : Pipe) (rd : GReg) (ra : GReg) (b : Src2) (s : State) : exec (.ixor r rd ra b) s = execIxor r rd ra b s := rfl
@[simp] theorem exec_inor (r : Pipe) (rd : GReg) (ra : GReg) (b : Src2) (s : State) : exec (.inor r rd ra b) s = execInor r rd ra b s := rfl
@[simp] theorem exec_shl (r : Pipe) (rd : GReg) (ra : GReg) (b : Src2) (s : State) : exec (.shl r rd ra b) s = execShl r rd ra b s := rfl
@[simp] theorem exec_shr (r : Pipe) (rd : GReg) (ra : GReg) (b : Src2) (s : State) : exec (.shr r rd ra b) s = execShr r rd ra b s := rfl
@[simp] theorem exec_shra (r : Pipe) (rd : GReg) (ra : GReg) (b : Src2) (s : State) : exec (.shra r rd ra b) s = execShra r rd ra b s := rfl
@[simp] theorem exec_cmplt (r : Pipe) (rd : GReg) (ra : GReg) (b : Src2) (s : State) : exec (.cmplt r rd ra b) s = execCmplt r rd ra b s := rfl
@[simp] theorem exec_cmpltu (r : Pipe) (rd : GReg) (ra : GReg) (b : Src2) (s : State) : exec (.cmpltu r rd ra b) s = execCmpltu r rd ra b s := rfl
@[simp] theorem exec_cmpeq (r : Pipe) (rd : GReg) (ra : GReg) (b : Src2) (s : State) : exec (.cmpeq r rd ra b) s = execCmpeq r rd ra b s := rfl
@[simp] theorem exec_imovh (r : Pipe) (rd : GReg) (imm : BitVec 16) (s : State) : exec (.imovh r rd imm) s = execImovh r rd imm s := rfl
@[simp] theorem exec_isel (r : Pipe) (rd : GReg) (ra : GReg) (rb : GReg) (rc : GReg) (s : State) : exec (.isel r rd ra rb rc) s = execIsel r rd ra rb rc s := rfl
@[simp] theorem exec_clz (r : Pipe) (rd : GReg) (ra : GReg) (s : State) : exec (.clz r rd ra) s = execClz r rd ra s := rfl
@[simp] theorem exec_bitcnt (r : Pipe) (rd : GReg) (ra : GReg) (s : State) : exec (.bitcnt r rd ra) s = execBitcnt r rd ra s := rfl
@[simp] theorem exec_imul (r : Pipe) (rd : GReg) (ra : GReg) (rb : GReg) (s : State) : exec (.imul r rd ra rb) s = execImul r rd ra rb s := rfl
@[simp] theorem exec_ld8 (r : Pipe) (rd : GReg) (ra : GReg) (off : BitVec 16) (s : State) : exec (.ld8 r rd ra off) s = execLd8 r rd ra off s := rfl
@[simp] theorem exec_ld8u (r : Pipe) (rd : GReg) (ra : GReg) (off : BitVec 16) (s : State) : exec (.ld8u r rd ra off) s = execLd8u r rd ra off s := rfl
@[simp] theorem exec_ld16 (r : Pipe) (rd : GReg) (ra : GReg) (off : BitVec 16) (s : State) : exec (.ld16 r rd ra off) s = execLd16 r rd ra off s := rfl
@[simp] theorem exec_ld16u (r : Pipe) (rd : GReg) (ra : GReg) (off : BitVec 16) (s : State) : exec (.ld16u r rd ra off) s = execLd16u r rd ra off s := rfl
@[simp] theorem exec_ld32 (r : Pipe) (rd : GReg) (ra : GReg) (off : BitVec 16) (s : State) : exec (.ld32 r rd ra off) s = execLd32 r rd ra off s := rfl
@[simp] theorem exec_st8 (r : Pipe) (rs : GReg) (ra : GReg) (off : BitVec 16) (s : State) : exec (.st8 r rs ra off) s = execSt8 r rs ra off s := rfl
@[simp] theorem exec_st16 (r : Pipe) (rs : GReg) (ra : GReg) (off : BitVec 16) (s : State) : exec (.st16 r rs ra off) s = execSt16 r rs ra off s := rfl
@[simp] theorem exec_st32 (r : Pipe) (rs : GReg) (ra : GReg) (off : BitVec 16) (s : State) : exec (.st32 r rs ra off) s = execSt32 r rs ra off s := rfl
@[simp] theorem exec_ld2w (r : Pipe) (rd : GReg) (ra : GReg) (off : BitVec 16) (s : State) : exec (.ld2w r rd ra off) s = execLd2w r rd ra off s := rfl
@[simp] theorem exec_st2w (r : Pipe) (rs : GReg) (ra : GReg) (off : BitVec 16) (s : State) : exec (.st2w r rs ra off) s = execSt2w r rs ra off s := rfl
@[simp] theorem exec_brz (r : RoomIx) (ra : GReg) (tgt : BitVec 13) (sq : List Young) (s : State) : exec (.brz r ra tgt sq) s = execBrz r ra tgt sq s := rfl
@[simp] theorem exec_brnz (r : RoomIx) (ra : GReg) (tgt : BitVec 13) (sq : List Young) (s : State) : exec (.brnz r ra tgt sq) s = execBrnz r ra tgt sq s := rfl
@[simp] theorem exec_breq (r : RoomIx) (ra : GReg) (rb : GReg) (tgt : BitVec 13) (sq : List Young) (s : State) : exec (.breq r ra rb tgt sq) s = execBreq r ra rb tgt sq s := rfl
@[simp] theorem exec_brne (r : RoomIx) (ra : GReg) (rb : GReg) (tgt : BitVec 13) (sq : List Young) (s : State) : exec (.brne r ra rb tgt sq) s = execBrne r ra rb tgt sq s := rfl
@[simp] theorem exec_brlt (r : RoomIx) (ra : GReg) (rb : GReg) (tgt : BitVec 13) (sq : List Young) (s : State) : exec (.brlt r ra rb tgt sq) s = execBrlt r ra rb tgt sq s := rfl
@[simp] theorem exec_brltu (r : RoomIx) (ra : GReg) (rb : GReg) (tgt : BitVec 13) (sq : List Young) (s : State) : exec (.brltu r ra rb tgt sq) s = execBrltu r ra rb tgt sq s := rfl
@[simp] theorem exec_jmp (r : Pipe) (tgt : BitVec 13) (s : State) : exec (.jmp r tgt) s = execJmp r tgt s := rfl
@[simp] theorem exec_jmpr (r : Pipe) (ra : GReg) (s : State) : exec (.jmpr r ra) s = execJmpr r ra s := rfl
@[simp] theorem exec_rcall (r : Pipe) (rt : Fin 4096) (s : State) : exec (.rcall r rt) s = execRcall r rt s := rfl
@[simp] theorem exec_ret (r : Pipe) (s : State) : exec (.ret r) s = execRet r s := rfl
@[simp] theorem exec_dmbar (r : Pipe) (s : State) : exec (.dmbar r) s = execDmbar r s := rfl
@[simp] theorem exec_haltw (r : Pipe) (s : State) : exec (.haltw r) s = execHaltw r s := rfl
@[simp] theorem exec_sysrd (r : Pipe) (rd : GReg) (n : BitVec 16) (s : State) : exec (.sysrd r rd n) s = execSysrd r rd n s := rfl
@[simp] theorem exec_syswr (r : Pipe) (ra : GReg) (n : BitVec 16) (s : State) : exec (.syswr r ra n) s = execSyswr r ra n s := rfl
@[simp] theorem exec_trapret (r : Pipe) (s : State) : exec (.trapret r) s = execTrapret r s := rfl
@[simp] theorem exec_esel (r : Pipe) (f : CpWord) (s : State) : exec (.esel r f) s = execEsel r f s := rfl
@[simp] theorem exec_tload (r : Pipe) (f : CpWord) (s : State) : exec (.tload r f) s = execTload r f s := rfl
@[simp] theorem exec_tloadTransferEnd (r : RoomIx) (s : State) : exec (.tloadTransferEnd r) s = execTloadTransferEnd r s := rfl
@[simp] theorem exec_tpref (r : Pipe) (f : CpWord) (s : State) : exec (.tpref r f) s = execTpref r f s := rfl
@[simp] theorem exec_tstore (r : Pipe) (f : CpWord) (s : State) : exec (.tstore r f) s = execTstore r f s := rfl
@[simp] theorem exec_eissue (r : Pipe) (f : CpWord) (s : State) : exec (.eissue r f) s = execEissue r f s := rfl
@[simp] theorem exec_issuedDescriptorReadEnd (r : RoomIx) (s : State) : exec (.issuedDescriptorReadEnd r) s = execIssuedDescriptorReadEnd r s := rfl
@[simp] theorem exec_ewait (r : Pipe) (f : CpWord) (s : State) : exec (.ewait r f) s = execEwait r f s := rfl
@[simp] theorem exec_lsig (r : Pipe) (f : CpWord) (s : State) : exec (.lsig r f) s = execLsig r f s := rfl
@[simp] theorem exec_lwait (r : Pipe) (f : CpWord) (s : State) : exec (.lwait r f) s = execLwait r f s := rfl
@[simp] theorem exec_lread (r : Pipe) (f : CpWord) (s : State) : exec (.lread r f) s = execLread r f s := rfl
@[simp] theorem exec_lockstepCompare (r : RoomIx) (main : CommitRec) (chk : CommitRec) (railsOk : Bool) (parityOk : Bool) (s : State) : exec (.lockstepCompare r main chk railsOk parityOk) s = execLockstepCompare r main chk railsOk parityOk s := rfl
@[simp] theorem exec_lockstepInjection (r : RoomIx) (passed : Bool) (s : State) : exec (.lockstepInjection r passed) s = execLockstepInjection r passed s := rfl
@[simp] theorem exec_swapReq (r : RoomIx) (w : BusWr) (s : State) : exec (.swapReq r w) s = execSwapReq r w s := rfl
@[simp] theorem exec_swapCopyEnd (r : RoomIx) (s : State) : exec (.swapCopyEnd r) s = execSwapCopyEnd r s := rfl
@[simp] theorem exec_routineStoreWindowWrite (r : RoomIx) (word : BitVec 13) (w : BusWr) (s : State) : exec (.routineStoreWindowWrite r word w) s = execRoutineStoreWindowWrite r word w s := rfl
@[simp] theorem exec_debugPathWrite (r : RoomIx) (word : BitVec 13) (val : W32) (s : State) : exec (.debugPathWrite r word val) s = execDebugPathWrite r word val s := rfl
@[simp] theorem exec_swap (r : RoomIx) (w : BusWr) (s : State) : exec (.swap r w) s = execSwap r w s := rfl
@[simp] theorem exec_swapCheckEnd (r : RoomIx) (s : State) : exec (.swapCheckEnd r) s = execSwapCheckEnd r s := rfl
@[simp] theorem exec_drainingEnd (r : RoomIx) (s : State) : exec (.drainingEnd r) s = execDrainingEnd r s := rfl
@[simp] theorem exec_streamBlockIssue (s0 : StreamRef) (s : State) : exec (.streamBlockIssue s0) s = execStreamBlockIssue s0 s := rfl
@[simp] theorem exec_streamBlockComplete (s0 : StreamRef) (k : Nat) (s : State) : exec (.streamBlockComplete s0 k) s = execStreamBlockComplete s0 k s := rfl
@[simp] theorem exec_translationWalkEnd (s0 : StreamRef) (s : State) : exec (.translationWalkEnd s0) s = execTranslationWalkEnd s0 s := rfl
@[simp] theorem exec_faultRingRecordWrite (s : State) : exec .faultRingRecordWrite s = execFaultRingRecordWrite s := rfl
@[simp] theorem exec_xfResume (w : BusWr) (s : State) : exec (.xfResume w) s = execXfResume w s := rfl
@[simp] theorem exec_invGo (w : BusWr) (s : State) : exec (.invGo w) s = execInvGo w s := rfl
@[simp] theorem exec_invDone (s : State) : exec .invDone s = execInvDone s := rfl
@[simp] theorem exec_larderFillEnd (x : BitVec 16) (s : State) : exec (.larderFillEnd x) s = execLarderFillEnd x s := rfl
@[simp] theorem exec_cellarBurstData (p : Fin 2) (seq : Nat) (n : Nat) (poison : List (BitVec 48)) (s : State) : exec (.cellarBurstData p seq n poison) s = execCellarBurstData p seq n poison s := rfl
@[simp] theorem exec_cellarGapExpiry (p : Fin 2) (seq : Nat) (s : State) : exec (.cellarGapExpiry p seq) s = execCellarGapExpiry p seq s := rfl
@[simp] theorem exec_lateThreshExpiry (e : EngIx) (s : State) : exec (.lateThreshExpiry e) s = execLateThreshExpiry e s := rfl
@[simp] theorem exec_quantumExpiry (e : EngIx) (s : State) : exec (.quantumExpiry e) s = execQuantumExpiry e s := rfl
@[simp] theorem exec_preempt (e : EngIx) (w : BusWr) (s : State) : exec (.preempt e w) s = execPreempt e w s := rfl
@[simp] theorem exec_contextSwitch (e : EngIx) (s : State) : exec (.contextSwitch e) s = execContextSwitch e s := rfl
@[simp] theorem exec_drainTimeout (s : State) : exec .drainTimeout s = execDrainTimeout s := rfl
@[simp] theorem exec_arbRequest (a : ArbIx) (i0 : ArbSource) (beats : Fin 9) (cycle : Nat) (s : State) : exec (.arbRequest a i0 beats cycle) s = execArbRequest a i0 beats cycle s := rfl
@[simp] theorem exec_arbDecision (a : ArbIx) (cycle : Nat) (withdrawn : List ArbSource) (s : State) : exec (.arbDecision a cycle withdrawn) s = execArbDecision a cycle withdrawn s := rfl
@[simp] theorem exec_arbStarve (a : ArbIx) (i0 : Fin 16) (cycle : Nat) (s : State) : exec (.arbStarve a i0 cycle) s = execArbStarve a i0 cycle s := rfl
@[simp] theorem exec_arbClassWrite (a : ArbIx) (w : BusWr) (cycle : Nat) (s : State) : exec (.arbClassWrite a w cycle) s = execArbClassWrite a w cycle s := rfl
@[simp] theorem exec_cntClr (a : ArbIx) (w : CycleWr) (s : State) : exec (.cntClr a w) s = execCntClr a w s := rfl
@[simp] theorem exec_memCtrlEn (w : BusWr) (s : State) : exec (.memCtrlEn w) s = execMemCtrlEn w s := rfl
@[simp] theorem exec_hbmPcRemapWrite (s0 : Fin 8) (w : BusWr) (s : State) : exec (.hbmPcRemapWrite s0 w) s = execHbmPcRemapWrite s0 w s := rfl
@[simp] theorem exec_messageEgress (s : State) : exec .messageEgress s = execMessageEgress s := rfl
@[simp] theorem exec_flitReceive (q : PortIx) (f : Flit) (s : State) : exec (.flitReceive q f) s = execFlitReceive q f s := rfl
@[simp] theorem exec_nak (q : PortIx) (hdr : W64) (s : State) : exec (.nak q hdr) s = execNak q hdr s := rfl
@[simp] theorem exec_nakTimeout (q : PortIx) (s : State) : exec (.nakTimeout q) s = execNakTimeout q s := rfl
@[simp] theorem exec_abort (q : PortIx) (hdr : W64) (s : State) : exec (.abort q hdr) s = execAbort q hdr s := rfl
@[simp] theorem exec_llGapExpiry (q : PortIx) (vc : Fin 8) (s : State) : exec (.llGapExpiry q vc) s = execLlGapExpiry q vc s := rfl
@[simp] theorem exec_llRespExpiry (s0 : StreamRef) (k : Nat) (s : State) : exec (.llRespExpiry s0 k) s = execLlRespExpiry s0 k s := rfl
@[simp] theorem exec_rdReq (q : PortIx) (s : State) : exec (.rdReq q) s = execRdReq q s := rfl
@[simp] theorem exec_rdRsp (q : ReadRsp) (s : State) : exec (.rdRsp q) s = execRdRsp q s := rfl
@[simp] theorem exec_wr (q : PortIx) (s : State) : exec (.wr q) s = execWr q s := rfl
@[simp] theorem exec_wrAck (q : PortIx) (s : State) : exec (.wrAck q) s = execWrAck q s := rfl
@[simp] theorem exec_latch (q : PortIx) (s : State) : exec (.latch q) s = execLatch q s := rfl
@[simp] theorem exec_mortar (q : PortIx) (s : State) : exec (.mortar q) s = execMortar q s := rfl
@[simp] theorem exec_heartbeat (q : PortIx) (s : State) : exec (.heartbeat q) s = execHeartbeat q s := rfl
@[simp] theorem exec_epochData (q : PortIx) (s : State) : exec (.epochData q) s = execEpochData q s := rfl
@[simp] theorem exec_epochEnd (q : PortIx) (s : State) : exec (.epochEnd q) s = execEpochEnd q s := rfl
@[simp] theorem exec_epochAck (q : PortIx) (s : State) : exec (.epochAck q) s = execEpochAck q s := rfl
@[simp] theorem exec_retrain (q : PortIx) (w : BusWr) (s : State) : exec (.retrain q w) s = execRetrain q w s := rfl
@[simp] theorem exec_portEnable (q : PortIx) (w : BusWr) (s : State) : exec (.portEnable q w) s = execPortEnable q w s := rfl
@[simp] theorem exec_trainingStageExit (q : PortIx) (i0 : TrainInfo) (s : State) : exec (.trainingStageExit q i0) s = execTrainingStageExit q i0 s := rfl
@[simp] theorem exec_trainingTimeout (q : PortIx) (fewLanes : Bool) (s : State) : exec (.trainingTimeout q fewLanes) s = execTrainingTimeout q fewLanes s := rfl
@[simp] theorem exec_los (q : PortIx) (s : State) : exec (.los q) s = execLos q s := rfl
@[simp] theorem exec_join (w : BusWr) (s : State) : exec (.join w) s = execJoin w s := rfl
@[simp] theorem exec_joinTimerExpiry (g : RingIx) (s : State) : exec (.joinTimerExpiry g) s = execJoinTimerExpiry g s := rfl
@[simp] theorem exec_rtInv (w : BusWr) (s : State) : exec (.rtInv w) s = execRtInv w s := rfl
@[simp] theorem exec_rtInvDone (s : State) : exec .rtInvDone s = execRtInvDone s := rfl
@[simp] theorem exec_flush (w : BusWr) (s : State) : exec (.flush w) s = execFlush w s := rfl
@[simp] theorem exec_epochTimer (s : State) : exec .epochTimer s = execEpochTimer s := rfl
@[simp] theorem exec_close (w : BusWr) (s : State) : exec (.close w) s = execClose w s := rfl
@[simp] theorem exec_resync (w : BusWr) (s : State) : exec (.resync w) s = execResync w s := rfl
@[simp] theorem exec_takeover (w : BusWr) (s : State) : exec (.takeover w) s = execTakeover w s := rfl
@[simp] theorem exec_wallGraceExpiry (s : State) : exec .wallGraceExpiry s = execWallGraceExpiry s := rfl
@[simp] theorem exec_pcieLinkDown (s : State) : exec .pcieLinkDown s = execPcieLinkDown s := rfl
@[simp] theorem exec_pmD3hot (f : Func) (s : State) : exec (.pmD3hot f) s = execPmD3hot f s := rfl
@[simp] theorem exec_create (w : BusWr) (s : State) : exec (.create w) s = execCreate w s := rfl
@[simp] theorem exec_destroy (w : BusWr) (s : State) : exec (.destroy w) s = execDestroy w s := rfl
@[simp] theorem exec_destroyEnd (s : State) : exec .destroyEnd s = execDestroyEnd s := rfl
@[simp] theorem exec_functionLevelReset (f : Func) (s : State) : exec (.functionLevelReset f) s = execFunctionLevelReset f s := rfl
@[simp] theorem exec_vfAptWrite (v : Fin 256) (isSize : Bool) (w : BusWr) (s : State) : exec (.vfAptWrite v isSize w) s = execVfAptWrite v isSize w s := rfl
@[simp] theorem exec_flueConfigWrite (k : Fin 3) (w : BusWr) (s : State) : exec (.flueConfigWrite k w) s = execFlueConfigWrite k w s := rfl
@[simp] theorem exec_msixIntervalEnd (f : Func) (vec : Nat) (s : State) : exec (.msixIntervalEnd f vec) s = execMsixIntervalEnd f vec s := rfl
@[simp] theorem exec_cxlLinkLost (p : Fin 2) (s : State) : exec (.cxlLinkLost p) s = execCxlLinkLost p s := rfl
@[simp] theorem exec_setEndpointId (b : MBus) (op : BitVec 2) (eid : Byte) (s : State) : exec (.setEndpointId b op eid) s = execSetEndpointId b op eid s := rfl
@[simp] theorem exec_getEndpointId (b : MBus) (s : State) : exec (.getEndpointId b) s = execGetEndpointId b s := rfl
@[simp] theorem exec_getEndpointUuid (b : MBus) (s : State) : exec (.getEndpointUuid b) s = execGetEndpointUuid b s := rfl
@[simp] theorem exec_getMctpVersionSupport (b : MBus) (ty : Byte) (s : State) : exec (.getMctpVersionSupport b ty) s = execGetMctpVersionSupport b ty s := rfl
@[simp] theorem exec_getMessageTypeSupport (b : MBus) (s : State) : exec (.getMessageTypeSupport b) s = execGetMessageTypeSupport b s := rfl
@[simp] theorem exec_unsupportedMctpMessage (b : MBus) (ty : BitVec 7) (cmd : Byte) (s : State) : exec (.unsupportedMctpMessage b ty cmd) s = execUnsupportedMctpMessage b ty cmd s := rfl
@[simp] theorem exec_settid (b : MBus) (tid : Byte) (s : State) : exec (.settid b tid) s = execSettid b tid s := rfl
@[simp] theorem exec_gettid (b : MBus) (s : State) : exec (.gettid b) s = execGettid b s := rfl
@[simp] theorem exec_getpldmversion (b : MBus) (ty : Byte) (s : State) : exec (.getpldmversion b ty) s = execGetpldmversion b ty s := rfl
@[simp] theorem exec_getpldmtypes (b : MBus) (s : State) : exec (.getpldmtypes b) s = execGetpldmtypes b s := rfl
@[simp] theorem exec_getpldmcommands (b : MBus) (ty : Byte) (s : State) : exec (.getpldmcommands b ty) s = execGetpldmcommands b ty s := rfl
@[simp] theorem exec_seteventreceiver (b : MBus) (enable : Byte) (eid : Byte) (s : State) : exec (.seteventreceiver b enable eid) s = execSeteventreceiver b enable eid s := rfl
@[simp] theorem exec_getsensorreading (b : MBus) (sensor : BitVec 16) (measured : W32) (s : State) : exec (.getsensorreading b sensor measured) s = execGetsensorreading b sensor measured s := rfl
@[simp] theorem exec_getstatesensorreadings (b : MBus) (sensor : BitVec 16) (s : State) : exec (.getstatesensorreadings b sensor) s = execGetstatesensorreadings b sensor s := rfl
@[simp] theorem exec_setnumericsensorenable (b : MBus) (sensor : BitVec 16) (op : Byte) (s : State) : exec (.setnumericsensorenable b sensor op) s = execSetnumericsensorenable b sensor op s := rfl
@[simp] theorem exec_getpdrrepositoryinfo (b : MBus) (s : State) : exec (.getpdrrepositoryinfo b) s = execGetpdrrepositoryinfo b s := rfl
@[simp] theorem exec_getpdr (b : MBus) (handle : W32) (s : State) : exec (.getpdr b handle) s = execGetpdr b handle s := rfl
@[simp] theorem exec_querydeviceidentifiers (b : MBus) (s : State) : exec (.querydeviceidentifiers b) s = execQuerydeviceidentifiers b s := rfl
@[simp] theorem exec_getfirmwareparameters (b : MBus) (s : State) : exec (.getfirmwareparameters b) s = execGetfirmwareparameters b s := rfl
@[simp] theorem exec_requestupdate (b : MBus) (ncomp : BitVec 16) (s : State) : exec (.requestupdate b ncomp) s = execRequestupdate b ncomp s := rfl
@[simp] theorem exec_passcomponenttable (b : MBus) (comp : BitVec 16) (s : State) : exec (.passcomponenttable b comp) s = execPasscomponenttable b comp s := rfl
@[simp] theorem exec_updatecomponent (b : MBus) (comp : BitVec 16) (version : W32) (data : List Byte) (s : State) : exec (.updatecomponent b comp version data) s = execUpdatecomponent b comp version data s := rfl
@[simp] theorem exec_transfercomplete (b : MBus) (result : Byte) (s : State) : exec (.transfercomplete b result) s = execTransfercomplete b result s := rfl
@[simp] theorem exec_verifycomplete (b : MBus) (result : Byte) (s : State) : exec (.verifycomplete b result) s = execVerifycomplete b result s := rfl
@[simp] theorem exec_applycomplete (b : MBus) (result : Byte) (s : State) : exec (.applycomplete b result) s = execApplycomplete b result s := rfl
@[simp] theorem exec_activatefirmware (b : MBus) (selfContained : Bool) (s : State) : exec (.activatefirmware b selfContained) s = execActivatefirmware b selfContained s := rfl
@[simp] theorem exec_getstatus (b : MBus) (s : State) : exec (.getstatus b) s = execGetstatus b s := rfl
@[simp] theorem exec_cancelupdatecomponent (b : MBus) (s : State) : exec (.cancelupdatecomponent b) s = execCancelupdatecomponent b s := rfl
@[simp] theorem exec_cancelupdate (b : MBus) (s : State) : exec (.cancelupdate b) s = execCancelupdate b s := rfl
@[simp] theorem exec_unsupportedPldmCommand (b : MBus) (ty : BitVec 6) (cmd : Byte) (s : State) : exec (.unsupportedPldmCommand b ty cmd) s = execUnsupportedPldmCommand b ty cmd s := rfl
@[simp] theorem exec_stateSensorChange (sensor : BitVec 16) (s : State) : exec (.stateSensorChange sensor) s = execStateSensorChange sensor s := rfl
@[simp] theorem exec_eventMergeExpiry (sensor : BitVec 16) (s : State) : exec (.eventMergeExpiry sensor) s = execEventMergeExpiry sensor s := rfl
@[simp] theorem exec_extest (s : State) : exec .extest s = execExtest s := rfl
@[simp] theorem exec_samplePreload (cells : W64) (s : State) : exec (.samplePreload cells) s = execSamplePreload cells s := rfl
@[simp] theorem exec_idcode (s : State) : exec .idcode s = execIdcode s := rfl
@[simp] theorem exec_highz (s : State) : exec .highz s = execHighz s := rfl
@[simp] theorem exec_clamp (s : State) : exec .clamp s = execClamp s := rfl
@[simp] theorem exec_bypass (ir : Byte) (s : State) : exec (.bypass ir) s = execBypass ir s := rfl
@[simp] theorem exec_trstN (s : State) : exec .trstN s = execTrstN s := rfl
@[simp] theorem exec_tsLoRead (r : Req) (s : State) : exec (.tsLoRead r) s = execTsLoRead r s := rfl
@[simp] theorem exec_refclkLoss (s : State) : exec .refclkLoss s = execRefclkLoss s := rfl
@[simp] theorem exec_pllLoss (p : Pll) (s : State) : exec (.pllLoss p) s = execPllLoss p s := rfl
@[simp] theorem exec_vddCoreWarning (s : State) : exec .vddCoreWarning s = execVddCoreWarning s := rfl
@[simp] theorem exec_stretchEnd (s : State) : exec .stretchEnd s = execStretchEnd s := rfl
@[simp] theorem exec_supplyWarning (x : Rail) (s : State) : exec (.supplyWarning x) s = execSupplyWarning x s := rfl
@[simp] theorem exec_supplyReset (x : Rail) (s : State) : exec (.supplyReset x) s = execSupplyReset x s := rfl
@[simp] theorem exec_powerOnReset (s : State) : exec .powerOnReset s = execPowerOnReset s := rfl
@[simp] theorem exec_coldReset (p : ResetPin) (s : State) : exec (.coldReset p) s = execColdReset p s := rfl
@[simp] theorem exec_coldResetRelease (env : StartEnv) (s : State) : exec (.coldResetRelease env) s = execColdResetRelease env s := rfl
@[simp] theorem exec_warm (w : BusWr) (env : TestEnv) (s : State) : exec (.warm w env) s = execWarm w env s := rfl
@[simp] theorem exec_thermalTrip (x : ThermSensor) (s : State) : exec (.thermalTrip x) s = execThermalTrip x s := rfl
@[simp] theorem exec_rateUpdate (env : RateEnv) (s : State) : exec (.rateUpdate env) s = execRateUpdate env s := rfl
@[simp] theorem exec_active (w : BusWr) (s : State) : exec (.active w) s = execActive w s := rfl
@[simp] theorem exec_idle (w : BusWr) (s : State) : exec (.idle w) s = execIdle w s := rfl
@[simp] theorem exec_retain (w : BusWr) (s : State) : exec (.retain w) s = execRetain w s := rfl
@[simp] theorem exec_idleEntryEnd (s : State) : exec .idleEntryEnd s = execIdleEntryEnd s := rfl
@[simp] theorem exec_retainEntryEnd (s : State) : exec .retainEntryEnd s = execRetainEntryEnd s := rfl
@[simp] theorem exec_retainExitEnd (env : TestEnv) (s : State) : exec (.retainExitEnd env) s = execRetainExitEnd env s := rfl
@[simp] theorem exec_roomPwrWrite (f : FloorIx) (w : BusWr) (s : State) : exec (.roomPwrWrite f w) s = execRoomPwrWrite f w s := rfl
@[simp] theorem exec_roomGateEnd (r : RoomIx) (s : State) : exec (.roomGateEnd r) s = execRoomGateEnd r s := rfl
@[simp] theorem exec_roomUngateEnd (r : RoomIx) (s : State) : exec (.roomUngateEnd r) s = execRoomUngateEnd r s := rfl
@[simp] theorem exec_pcieLinkUp (s : State) : exec .pcieLinkUp s = execPcieLinkUp s := rfl
@[simp] theorem exec_bar4Access (f : Func) (addr : BitVec 39) (wdata : Option (List Byte)) (n : Nat) (s : State) : exec (.bar4Access f addr wdata n) s = execBar4Access f addr wdata n s := rfl
@[simp] theorem exec_createEnd (s : State) : exec .createEnd s = execCreateEnd s := rfl
@[simp] theorem exec_idleExitEnd (s : State) : exec .idleExitEnd s = execIdleExitEnd s := rfl
@[simp] theorem exec_wallHandshakeRetry (s : State) : exec .wallHandshakeRetry s = execWallHandshakeRetry s := rfl
@[simp] theorem exec_vfEnable (en : Bool) (numVfs : Fin 257) (s : State) : exec (.vfEnable en numVfs) s = execVfEnable en numVfs s := rfl

end Sys2Proof.Machine
end

