-- ==== Sys2Proof/Laws/FMap.lean ====
section
/-! SUPPORT. Laws of the sparse maps: reading after writing, and that every operation keeps the canonical form. -/

namespace Sys2Proof.Machine

variable {α : Type}

/-- A key that no entry lists reads as the default. -/
theorem FMap.get_not_listed (d : Nat → α) (m : FMap α) (k : Nat) (h : ∀ e ∈ m, e.1 ≠ k) : FMap.get d m k = d k := by
  induction m with
  | nil => rfl
  | cons e t ih =>
    obtain ⟨j, v⟩ := e
    have hj : k ≠ j := fun hk => h (j, v) (by simp) hk.symm
    simp only [FMap.get, if_neg hj]
    exact ih fun e he => h e (by simp [he])

/-- Entries that are not listed at the key do not matter. -/
theorem FMap.get_append_left (d : Nat → α) (a b : FMap α) (k : Nat) (h : ∀ e ∈ a, e.1 ≠ k) :
    FMap.get d (a ++ b) k = FMap.get d b k := by
  induction a with
  | nil => rfl
  | cons e t ih =>
    obtain ⟨j, v⟩ := e
    have hj : k ≠ j := fun hk => h (j, v) (by simp) hk.symm
    simp only [List.cons_append, FMap.get, if_neg hj]
    exact ih fun e he => h e (by simp [he])

/-- Where the second list does not list the key, the first decides. -/
theorem FMap.get_append_right (d : Nat → α) (a b : FMap α) (k : Nat) (h : ∀ e ∈ b, e.1 ≠ k) :
    FMap.get d (a ++ b) k = FMap.get d a k := by
  induction a with
  | nil => simpa [FMap.get] using FMap.get_not_listed d b k h
  | cons e t ih =>
    obtain ⟨j, v⟩ := e
    simp only [List.cons_append, FMap.get, ih]

/-- Leaving out entries at other keys changes nothing at the key. -/
theorem FMap.get_filter (d : Nat → α) (m : FMap α) (p : Nat × α → Bool) (k : Nat) (h : ∀ v, p (k, v) = true) :
    FMap.get d (m.filter p) k = FMap.get d m k := by
  induction m with
  | nil => rfl
  | cons e t ih =>
    obtain ⟨j, v⟩ := e
    by_cases hj : k = j
    · subst hj; simp [h v, FMap.get]
    · cases hp : p (j, v)
      · simp [hp, FMap.get, hj, ih]
      · simp [hp, FMap.get, hj, ih]

variable [DecidableEq α]

/-- The entries that `FMap.setRange` adds. -/
def FMap.added (d : Nat → α) (lo n : Nat) (f : Nat → α) : FMap α :=
  (List.range n).filterMap fun i => if f i = d (lo + i) then none else some (lo + i, f i)

theorem FMap.mem_added (d : Nat → α) (lo n : Nat) (f : Nat → α) (e : Nat × α) (he : e ∈ FMap.added d lo n f) :
    ∃ i, i < n ∧ e = (lo + i, f i) ∧ f i ≠ d (lo + i) := by
  simp only [FMap.added, List.mem_filterMap, List.mem_range] at he
  obtain ⟨i, hi, h⟩ := he
  split at h
  · cases h
  · exact ⟨i, hi, by simpa using h.symm, by assumption⟩

theorem FMap.get_added (d : Nat → α) (lo n : Nat) (f : Nat → α) (i : Nat) (hi : i < n) :
    FMap.get d (FMap.added d lo n f) (lo + i) = f i := by
  induction n with
  | zero => omega
  | succ n ih =>
    have hs : FMap.added d lo (n + 1) f = FMap.added d lo n f ++ FMap.added d (lo + n) 1 fun _ => f n := by
      simp only [FMap.added, List.range_succ, List.filterMap_append]
      congr 1
    rw [hs]
    by_cases h : i = n
    · subst h
      rw [FMap.get_append_left]
      · simp only [FMap.added]
        by_cases hd : f i = d (lo + i) <;> simp [FMap.get, hd]
      · intro e he
        obtain ⟨j, hj, rfl, -⟩ := FMap.mem_added d lo i f e he
        simp; omega
    · rw [FMap.get_append_right]
      · exact ih (by omega)
      · intro e he
        obtain ⟨j, hj, rfl, -⟩ := FMap.mem_added _ _ _ _ e he
        simp; omega

/-- Inside the written range the new value is read. -/
theorem FMap.get_setRange_in (d : Nat → α) (m : FMap α) (lo n : Nat) (f : Nat → α) (i : Nat) (hi : i < n) :
    FMap.get d (FMap.setRange d m lo n f) (lo + i) = f i := by
  show FMap.get d (_ ++ FMap.added d lo n f ++ _) (lo + i) = f i
  rw [FMap.get_append_right, FMap.get_append_left, FMap.get_added d lo n f i hi]
  · intro e he; simp at he; omega
  · intro e he; simp at he; omega

/-- Outside the written range the old value is read. -/
theorem FMap.get_setRange_out (d : Nat → α) (m : FMap α) (lo n : Nat) (f : Nat → α) (k : Nat) (hk : k < lo ∨ lo + n ≤ k) :
    FMap.get d (FMap.setRange d m lo n f) k = FMap.get d m k := by
  show FMap.get d (_ ++ FMap.added d lo n f ++ _) k = _
  have hadd : ∀ e ∈ FMap.added d lo n f, e.1 ≠ k := by
    intro e he
    obtain ⟨j, hj, rfl, -⟩ := FMap.mem_added _ _ _ _ e he
    simp; omega
  rcases hk with hk | hk
  · rw [FMap.get_append_right, FMap.get_append_right _ _ _ _ hadd, FMap.get_filter]
    · intro v; simpa using hk
    · intro e he; simp at he; omega
  · rw [List.append_assoc, FMap.get_append_left, FMap.get_append_left _ _ _ _ hadd, FMap.get_filter]
    · intro v; simpa using hk
    · intro e he; simp at he; omega

/-- What is read at a key just written. -/
@[simp] theorem FMap.get_set_same (d : Nat → α) (m : FMap α) (k : Nat) (v : α) : FMap.get d (FMap.set d m k v) k = v :=
  FMap.get_setRange_in d m k 1 (fun _ => v) 0 (by omega)

/-- What is read at every other key. -/
theorem FMap.get_set_ne (d : Nat → α) (m : FMap α) (k j : Nat) (v : α) (h : j ≠ k) :
    FMap.get d (FMap.set d m k v) j = FMap.get d m j :=
  FMap.get_setRange_out d m k 1 (fun _ => v) j (by omega)

/-- Reading after writing, in one equation. -/
theorem FMap.get_set (d : Nat → α) (m : FMap α) (k j : Nat) (v : α) :
    FMap.get d (FMap.set d m k v) j = if j = k then v else FMap.get d m j := by
  split
  · next h => subst h; simp
  · next h => exact FMap.get_set_ne d m k j v h

/-! ### Canonical form -/

/-- Canonical form as a proposition. -/
theorem FMap.wf_iff (d : Nat → α) (m : FMap α) :
    FMap.wf d m = true ↔ m.Pairwise (fun a b => a.1 < b.1) ∧ ∀ e ∈ m, e.2 ≠ d e.1 := by
  simp [FMap.wf]

/-- The empty map is canonical. -/
@[simp] theorem FMap.wf_nil (d : Nat → α) : FMap.wf d ([] : FMap α) = true := by simp [FMap.wf]

/-- Leaving out entries keeps the form. -/
theorem FMap.wf_filter (d : Nat → α) (m : FMap α) (p : Nat × α → Bool) (h : FMap.wf d m = true) :
    FMap.wf d (m.filter p) = true := by
  rw [FMap.wf_iff] at *
  exact ⟨h.1.filter p, fun e he => h.2 e (List.mem_filter.mp he).1⟩

/-- Writing a range gives a canonical map whenever the old one was. -/
theorem FMap.wf_setRange (d : Nat → α) (m : FMap α) (lo n : Nat) (f : Nat → α) (h : FMap.wf d m = true) :
    FMap.wf d (FMap.setRange d m lo n f) = true := by
  show FMap.wf d (_ ++ FMap.added d lo n f ++ _) = true
  rw [FMap.wf_iff] at *
  have hadd : (FMap.added d lo n f).Pairwise (fun a b => a.1 < b.1) := by
    simp only [FMap.added]
    rw [List.pairwise_filterMap]
    refine List.pairwise_lt_range.imp ?_
    intro i j hij a ha b hb
    split at ha <;> cases ha
    split at hb <;> cases hb
    simp; omega
  refine ⟨?_, ?_⟩
  · rw [List.pairwise_append, List.pairwise_append]
    refine ⟨⟨h.1.filter _, hadd, ?_⟩, h.1.filter _, ?_⟩
    · intro a ha b hb
      obtain ⟨j, hj, rfl, -⟩ := FMap.mem_added _ _ _ _ b hb
      simp at ha; simp; omega
    · intro a ha b hb
      simp at hb
      rcases List.mem_append.mp ha with ha | ha
      · simp at ha; omega
      · obtain ⟨j, hj, rfl, -⟩ := FMap.mem_added _ _ _ _ a ha
        simp; omega
  · intro e he
    rcases List.mem_append.mp he with he | he
    · rcases List.mem_append.mp he with he | he
      · exact h.2 e (List.mem_filter.mp he).1
      · obtain ⟨j, hj, rfl, hne⟩ := FMap.mem_added _ _ _ _ e he
        exact hne
    · exact h.2 e (List.mem_filter.mp he).1

/-- Writing a key keeps the form. -/
theorem FMap.wf_set (d : Nat → α) (m : FMap α) (k : Nat) (v : α) (h : FMap.wf d m = true) :
    FMap.wf d (FMap.set d m k v) = true := FMap.wf_setRange d m k 1 _ h

/-- Mapping the values keeps the form. -/
theorem FMap.wf_mapV (d : Nat → α) (m : FMap α) (f : α → α) (h : FMap.wf d m = true) :
    FMap.wf d (FMap.mapV d m f) = true := by
  rw [FMap.wf_iff] at *
  refine ⟨?_, ?_⟩
  · simp only [FMap.mapV]
    rw [List.pairwise_filterMap]
    refine h.1.imp ?_
    intro a b hab x hx y hy
    split at hx <;> cases hx
    split at hy <;> cases hy
    exact hab
  · intro e he
    simp only [FMap.mapV, List.mem_filterMap] at he
    obtain ⟨a, -, ha⟩ := he
    split at ha
    · cases ha
    · next hne => cases ha; exact hne

/-! ### Memories -/

/-- Every write of bytes keeps the memory's canonical form. -/
theorem Mem.wf_writeFn (m : FMap Byte) (a n : Nat) (f : Nat → Byte) (h : Mem.wf m = true) : Mem.wf (Mem.writeFn m a n f) = true :=
  FMap.wf_setRange zeroByte m a n f h

/-- Every little-endian write keeps the form. -/
theorem Mem.wf_writeLe (m : FMap Byte) (a n v : Nat) (h : Mem.wf m = true) : Mem.wf (Mem.writeLe m a n v) = true :=
  Mem.wf_writeFn m a n _ h

/-- Every write of a list keeps the form. -/
theorem Mem.wf_writeList (m : FMap Byte) (a : Nat) (l : List Byte) (h : Mem.wf m = true) : Mem.wf (Mem.writeList m a l) = true :=
  Mem.wf_writeFn m a _ _ h

/-- Every write of bits keeps the form. -/
theorem Mem.wf_writeBits (m : FMap Byte) (b n : Nat) (f : Nat → Bool) (h : Mem.wf m = true) : Mem.wf (Mem.writeBits m b n f) = true :=
  Mem.wf_writeFn m _ _ _ h

/-- The bytes of a list just written. -/
theorem Mem.byte_writeList_in (m : FMap Byte) (a : Nat) (l : List Byte) (i : Nat) (h : i < l.length) :
    Mem.byte (Mem.writeList m a l) (a + i) = l.getD i 0 := FMap.get_setRange_in zeroByte m a l.length (listByte l) i h

/-- Every byte outside a list just written. -/
theorem Mem.byte_writeList_out (m : FMap Byte) (a : Nat) (l : List Byte) (k : Nat) (h : k < a ∨ a + l.length ≤ k) :
    Mem.byte (Mem.writeList m a l) k = Mem.byte m k := FMap.get_setRange_out zeroByte m a l.length (listByte l) k h

end Sys2Proof.Machine
end

