-- ==== Sys2Proof/Laws/Keeps.lean ====
section
/-! SUPPORT. The relation `Keeps` is a preorder that record updates, folds and cases respect. -/

namespace Sys2Proof.Machine

namespace State

theorem Keeps.refl (s : State) : Keeps s s := ⟨rfl, id, Nat.le_refl _, List.prefix_refl _⟩

theorem Keeps.trans {a b c : State} (h : Keeps a b) (k : Keeps b c) : Keeps a c :=
  ⟨k.queue.trans h.queue, fun m => k.canon (h.canon m), Nat.le_trans h.drawn k.drawn, h.sent.trans k.sent⟩

/-- An update of any fields but the queue, the free values, what was sent, memory and flash. -/
@[simp] theorem keeps_mk {s0 t : State} (h : Keeps s0 t) (ts regs staged pwrites mboxBusy sealer latches ctxs rrLast rrLeft nextOrd
    rooms engs) (ms : MemSt) (arbs mo link pwr) (boot : BootSt) (hs mg jtag) (hm : ms.mem = t.ms.mem)
    (hb : boot.flash = t.boot.flash) :
    Keeps s0 (State.mk t.pending t.freeCtr ts regs staged pwrites mboxBusy sealer latches ctxs rrLast rrLeft nextOrd rooms engs
      ms arbs mo link pwr boot hs mg jtag t.outbox) := by
  refine ⟨h.queue, fun m => ?_, h.drawn, h.sent⟩
  have := h.canon m
  simpa [memCanon, hm, hb] using this

@[simp] theorem keeps_ite {s0 a b : State} (c : Prop) [Decidable c] (ha : Keeps s0 a) (hb : Keeps s0 b) :
    Keeps s0 (if c then a else b) := by split <;> assumption

@[simp] theorem keeps_ite2 {α : Type} {s0 : State} {a b : α × State} (c : Prop) [Decidable c] (ha : Keeps s0 a.2)
    (hb : Keeps s0 b.2) : Keeps s0 (if c then a else b).2 := by split <;> assumption

@[simp] theorem keeps_foldl {α : Type} {s0 : State} (g : State → α → State) (l : List α) (s : State)
    (h : Keeps s0 s) (hg : ∀ t a, Keeps s0 t → Keeps s0 (g t a)) : Keeps s0 (l.foldl g s) := by
  induction l generalizing s with
  | nil => exact h
  | cons a l ih => exact ih _ (hg _ _ h)

@[simp] theorem keeps_foldl2 {α β : Type} {s0 : State} (g : β × State → α → β × State) (l : List α) (s : β × State)
    (h : Keeps s0 s.2) (hg : ∀ t a, Keeps s0 t.2 → Keeps s0 (g t a).2) : Keeps s0 (l.foldl g s).2 := by
  induction l generalizing s with
  | nil => exact h
  | cons a l ih => exact ih _ (hg _ _ h)

/-- Folds over a structure that carries the state. -/
theorem keeps_fold_of {α β : Type} {s0 : State} (st : β → State) (g : β → α → β) (l : List α) (b : β)
    (h : Keeps s0 (st b)) (hg : ∀ t a, Keeps s0 (st t) → Keeps s0 (st (g t a))) : Keeps s0 (st (l.foldl g b)) := by
  induction l generalizing b with
  | nil => exact h
  | cons a l ih => exact ih _ (hg _ _ h)

end State

end Sys2Proof.Machine
end

