-- ==== Sys2Proof/Laws/KeepsOps.lean ====
section
/-! SUPPORT. The operations over state, layouts, registers, memory, translation, room commands, fences, queues, arbiters and
MATMUL leave `Keeps` true. -/

set_option maxRecDepth 4000

namespace Sys2Proof.Machine

open State

/-! Ops -/

@[simp] theorem State.draw_keeps (s : State) (s0 : State) (hK : Keeps s0 s) :
    Keeps s0 (State.draw s).2 :=
  ⟨hK.queue, hK.canon, Nat.le_succ_of_le hK.drawn, hK.sent⟩

@[simp] theorem State.setReg_keeps (s : State) (key : Nat) (v : W32) (s0 : State) (hK : Keeps s0 s) :
    Keeps s0 (State.setReg s key v) := by
  unfold State.setReg
  simp (maxDischargeDepth := 100) +contextual [hK]

@[simp] theorem State.fset_keeps (s : State) (f : Fld) (x : Nat) (s0 : State) (hK : Keeps s0 s) :
    Keeps s0 (State.fset s f x) := by
  unfold State.fset
  simp (maxDischargeDepth := 100) +contextual [hK]

@[simp] theorem State.count_keeps (s : State) (f : Fld) (n : Nat) (s0 : State) (hK : Keeps s0 s) :
    Keeps s0 (State.count s f n) := by
  unfold State.count
  simp (maxDischargeDepth := 100) +contextual [hK]

@[simp] theorem State.countSat_keeps (s : State) (f : Fld) (n : Nat) (s0 : State) (hK : Keeps s0 s) :
    Keeps s0 (State.countSat s f n) := by
  unfold State.countSat
  simp (maxDischargeDepth := 100) +contextual [hK]

@[simp] theorem State.forBits_keeps (s : State) (f : Fld) (x : Nat) (s0 : State) (hK : Keeps s0 s) :
    Keeps s0 (State.forBits s f x) := by
  unfold State.forBits
  simp (maxDischargeDepth := 100) +contextual [hK]

@[simp] theorem State.setCtx_keeps (s : State) (c : Nat) (x : Ctx) (s0 : State) (hK : Keeps s0 s) :
    Keeps s0 (State.setCtx s c x) := by
  unfold State.setCtx
  simp (maxDischargeDepth := 100) +contextual [hK]

@[simp] theorem State.setRoom_keeps (s : State) (r : Nat) (x : RoomSt) (s0 : State) (hK : Keeps s0 s) :
    Keeps s0 (State.setRoom s r x) := by
  unfold State.setRoom
  simp (maxDischargeDepth := 100) +contextual [hK]

@[simp] theorem State.setEng_keeps (s : State) (e : Nat) (x : EngSt) (s0 : State) (hK : Keeps s0 s) :
    Keeps s0 (State.setEng s e x) := by
  unfold State.setEng
  simp (maxDischargeDepth := 100) +contextual [hK]

@[simp] theorem State.setPort_keeps (s : State) (q : Nat) (p : PortSt) (s0 : State) (hK : Keeps s0 s) :
    Keeps s0 (State.setPort s q p) := by
  unfold State.setPort
  simp (maxDischargeDepth := 100) +contextual [hK]

@[simp] theorem State.setArb_keeps (s : State) (a : Nat) (x : ArbSt) (s0 : State) (hK : Keeps s0 s) :
    Keeps s0 (State.setArb s a x) := by
  unfold State.setArb
  simp (maxDischargeDepth := 100) +contextual [hK]

@[simp] theorem State.emit_keeps (s : State) (o : Out) (s0 : State) (hK : Keeps s0 s) :
    Keeps s0 (State.emit s o) :=
  ⟨hK.queue, hK.canon, hK.drawn, hK.sent.trans (List.prefix_append _ _)⟩

@[simp] theorem State.setPba_keeps (s : State) (f : Func) (vec : Nat) (on : Bool) (s0 : State) (hK : Keeps s0 s) :
    Keeps s0 (State.setPba s f vec on) := by
  unfold State.setPba
  try dsimp only
  (repeat' split) <;> simp (maxDischargeDepth := 100) +contextual [hK]

@[simp] theorem State.sendMsix_keeps (s : State) (f : Func) (vec : Nat) (s0 : State) (hK : Keeps s0 s) :
    Keeps s0 (State.sendMsix s f vec) := by
  unfold State.sendMsix
  simp (maxDischargeDepth := 100) +contextual [hK]

@[simp] theorem State.signal_keeps (s : State) (f : Func) (vec : Nat) (s0 : State) (hK : Keeps s0 s) :
    Keeps s0 (State.signal s f vec) := by
  unfold State.signal
  simp (maxDischargeDepth := 100) +contextual [hK]

@[simp] theorem State.pkgEvent_keeps (s : State) (i : Nat) (s0 : State) (hK : Keeps s0 s) :
    Keeps s0 (State.pkgEvent s i) := by
  unfold State.pkgEvent
  simp (maxDischargeDepth := 100) +contextual [hK]

@[simp] theorem State.mgmtIrq_keeps (s : State) (r : Nat) (s0 : State) (hK : Keeps s0 s) :
    Keeps s0 (State.mgmtIrq s r) := by
  unfold State.mgmtIrq
  simp (maxDischargeDepth := 100) +contextual [hK]

@[simp] theorem State.noteRange_keeps (s : State) (a : Nat) (n : Nat) (s0 : State) (hK : Keeps s0 s) :
    Keeps s0 (State.noteRange s a n) := by
  unfold State.noteRange
  simp (maxDischargeDepth := 100) +contextual [hK]

@[simp] theorem State.nextBseq_keeps (s : State) (dst : Nat) (vc : Nat) (s0 : State) (hK : Keeps s0 s) :
    Keeps s0 (State.nextBseq s dst vc).2 := by
  unfold State.nextBseq
  simp (maxDischargeDepth := 100) +contextual [hK]

@[simp] theorem State.originate_keeps (s : State) (m : Msg) (s0 : State) (hK : Keeps s0 s) :
    Keeps s0 (State.originate s m) := by
  unfold State.originate
  simp (maxDischargeDepth := 100) +contextual [hK]

@[simp] theorem State.closeEpoch_keeps (s : State) (s0 : State) (hK : Keeps s0 s) :
    Keeps s0 (State.closeEpoch s) := by
  unfold State.closeEpoch
  simp (maxDischargeDepth := 100) +contextual [hK]

@[simp] theorem State.capture_keeps (s : State) (a : Nat) (l : List Byte) (s0 : State) (hK : Keeps s0 s) :
    Keeps s0 (State.capture s a l) := by
  unfold State.capture
  simp (maxDischargeDepth := 100) +contextual [hK]

@[simp] theorem State.dropLines_keeps (s : State) (sel : Line → Bool) (s0 : State) (hK : Keeps s0 s) :
    Keeps s0 (State.dropLines s sel) := by
  unfold State.dropLines
  try dsimp only
  (repeat' split) <;> simp (maxDischargeDepth := 100) +contextual [hK]

@[simp] theorem State.dropWritten_keeps (s : State) (a : Nat) (n : Nat) (s0 : State) (hK : Keeps s0 s) :
    Keeps s0 (State.dropWritten s a n) := by
  unfold State.dropWritten
  try dsimp only
  (repeat' split) <;> simp (maxDischargeDepth := 100) +contextual [hK]

@[simp] theorem State.clearPoison_keeps (s : State) (a : Nat) (n : Nat) (s0 : State) (hK : Keeps s0 s) :
    Keeps s0 (State.clearPoison s a n) := by
  unfold State.clearPoison
  simp (maxDischargeDepth := 100) +contextual [hK]

@[simp] theorem State.rawWrite_keeps (s : State) (a : Nat) (l : List Byte) (s0 : State) (hK : Keeps s0 s) :
    Keeps s0 (State.rawWrite s a l) := by
  have h1 : ∀ f : Nat → Byte, Keeps s0 { s with ms := { s.ms with mem := Mem.writeFn s.ms.mem (s.foldAddr a) l.length f } } :=
    fun f => ⟨hK.queue, fun m => ⟨Mem.wf_writeFn _ _ _ _ (hK.canon m).1, (hK.canon m).2⟩, hK.drawn, hK.sent⟩
  unfold State.rawWrite
  exact State.noteRange_keeps _ _ _ _ (State.clearPoison_keeps _ _ _ _ (State.dropWritten_keeps _ _ _ _ (h1 _)))

@[simp] theorem State.physWrite_keeps (s : State) (a : Nat) (l : List Byte) (s0 : State) (hK : Keeps s0 s) :
    Keeps s0 (State.physWrite s a l) := by
  unfold State.physWrite
  simp (maxDischargeDepth := 100) +contextual [hK]

@[simp] theorem State.physRead_keeps (s : State) (a : Nat) (n : Nat) (s0 : State) (hK : Keeps s0 s) :
    Keeps s0 (State.physRead s a n).2 := by
  unfold State.physRead
  simp (maxDischargeDepth := 100) +contextual [hK]

@[simp] theorem State.fluePush_keeps (s : State) (rec32 : List Byte) (s0 : State) (hK : Keeps s0 s) :
    Keeps s0 (State.fluePush s rec32) := by
  unfold State.fluePush
  simp (maxDischargeDepth := 100) +contextual [hK]

@[simp] theorem State.evalLatch_keeps (s : State) (l : Nat) (v : W32) (s0 : State) (hK : Keeps s0 s) :
    Keeps s0 (State.evalLatch s l v) := by
  unfold State.evalLatch
  simp (maxDischargeDepth := 100) +contextual [hK]

@[simp] theorem State.latchTake_keeps (s : State) (l : Nat) (v : W32) (s0 : State) (hK : Keeps s0 s) :
    Keeps s0 (State.latchTake s l v) := by
  unfold State.latchTake
  simp (maxDischargeDepth := 100) +contextual [hK]

@[simp] theorem State.applySignal_keeps (s : State) (op : Nat) (l : Nat) (operand : Nat) (s0 : State) (hK : Keeps s0 s) :
    Keeps s0 (State.applySignal s op l operand) := by
  unfold State.applySignal
  simp (maxDischargeDepth := 100) +contextual [hK]

/-! Layout -/

@[simp] theorem State.freeSpace_keeps (s : State) (r : Nat) (e : Nat) (ctx : Nat) (space : Nat) (lo : Nat) (n : Nat) (s0 : State) (hK : Keeps s0 s) :
    Keeps s0 (State.freeSpace s r e ctx space lo n) := by
  unfold State.freeSpace
  simp (maxDischargeDepth := 100) +contextual [hK]

@[simp] theorem State.freeRegions_keeps (s : State) (r : Nat) (e : Nat) (ctx : Nat) (space : Nat) (size : Nat) (l : List Int)
    (s0 : State) (hK : Keeps s0 s) :
    Keeps s0 (State.freeRegions s r e ctx space size l) := by
  unfold State.freeRegions
  try dsimp only
  (repeat' split) <;> simp (maxDischargeDepth := 100) +contextual [hK]

@[simp] theorem State.freeParts_keeps (s : State) (r : Nat) (ctx : Nat) (l : List Region) (s0 : State) (hK : Keeps s0 s) :
    Keeps s0 (State.freeParts s r ctx l) := by
  unfold State.freeParts
  try dsimp only
  (repeat' split) <;> simp (maxDischargeDepth := 100) +contextual [hK]

/-! Regs -/

@[simp] theorem State.whole_keeps (s : State) (w : BusWr) (f : State → State) (s0 : State) (hK : Keeps s0 s) (hf : ∀ t, Keeps s0 t → Keeps s0 (f t)) :
    Keeps s0 (State.whole s w f) := by
  unfold State.whole
  simp (maxDischargeDepth := 100) +contextual [hK, hf]

@[simp] theorem State.busWrite_keeps (s : State) (off : Nat) (w : BusWr) (f : State → State)
    (s0 : State) (hK : Keeps s0 s) (hf : ∀ t, Keeps s0 t → Keeps s0 (f t)) :
    Keeps s0 (State.busWrite s off w f) := by
  unfold State.busWrite
  simp (maxDischargeDepth := 100) +contextual [hK, hf]

@[simp] theorem State.closeLock_keeps (s : State) (s0 : State) (hK : Keeps s0 s) :
    Keeps s0 (State.closeLock s) := by
  unfold State.closeLock
  simp (maxDischargeDepth := 100) +contextual [hK]

@[simp] theorem State.useKey_keeps (s : State) (req : Req) (s0 : State) (hK : Keeps s0 s) :
    Keeps s0 (State.useKey s req).2 := by
  unfold State.useKey
  simp (maxDischargeDepth := 100) +contextual [hK]

@[simp] theorem State.postWrite_keeps (s : State) (d : Domain) (off : Nat) (x : Nat) (s0 : State) (hK : Keeps s0 s) :
    Keeps s0 (State.postWrite s d off x) := by
  unfold State.postWrite
  simp (maxDischargeDepth := 100) +contextual [hK]

@[simp] theorem State.writeField_keeps (s : State) (off : Nat) (v : Nat) (keyed : Bool) (f : FieldDef) (s0 : State) (hK : Keeps s0 s) :
    Keeps s0 (State.writeField s off v keyed f) := by
  unfold State.writeField
  try dsimp only
  (repeat' split) <;> simp (maxDischargeDepth := 100) +contextual [hK]

@[simp] theorem State.writePlain_keeps (s : State) (off : Nat) (v : Nat) (keyed : Bool) (s0 : State) (hK : Keeps s0 s) :
    Keeps s0 (State.writePlain s off v keyed) := by
  unfold State.writePlain
  try dsimp only
  (repeat' split) <;> simp (maxDischargeDepth := 100) +contextual [hK]

@[simp] theorem State.keyedWrite_keeps (s : State) (off : Nat) (w : BusWr) (k : Bool → State → State)
    (s0 : State) (hK : Keeps s0 s) (hk : ∀ a t, Keeps s0 t → Keeps s0 (k a t)) :
    Keeps s0 (State.keyedWrite s off w k) := by
  unfold State.keyedWrite
  simp (maxDischargeDepth := 100) +contextual [hK, hk]

@[simp] theorem State.openWrite_keeps (s : State) (off : Nat) (w : BusWr) (k : State → State)
    (s0 : State) (hK : Keeps s0 s) (hk : ∀ t, Keeps s0 t → Keeps s0 (k t)) :
    Keeps s0 (State.openWrite s off w k) := by
  unfold State.openWrite
  simp (maxDischargeDepth := 100) +contextual [hK, hk]

@[simp] theorem State.afterPlain_keeps (s : State) (off : Nat) (v : Nat) (old : W32) (s0 : State) (hK : Keeps s0 s) :
    Keeps s0 (State.afterPlain s off v old) := by
  unfold State.afterPlain
  simp (maxDischargeDepth := 100) +contextual [hK]

@[simp] theorem State.writeBar0_keeps (s : State) (off : Nat) (w : BusWr) (s0 : State) (hK : Keeps s0 s) :
    Keeps s0 (State.writeBar0 s off w) := by
  unfold State.writeBar0
  try dsimp only
  (repeat' split) <;> simp (maxDischargeDepth := 100) +contextual [hK]

@[simp] theorem State.writeVf_keeps (s : State) (v : Nat) (off : Nat) (w : BusWr) (s0 : State) (hK : Keeps s0 s) :
    Keeps s0 (State.writeVf s v off w) := by
  unfold State.writeVf
  simp (maxDischargeDepth := 100) +contextual [hK]

@[simp] theorem State.readBar0_keeps (s : State) (req : Req) (off : Nat) (be : BitVec 4) (s0 : State) (hK : Keeps s0 s) :
    Keeps s0 (State.readBar0 s req off be) := by
  unfold State.readBar0
  try dsimp only
  (repeat' split) <;> simp (maxDischargeDepth := 100) +contextual [hK]

/-! Translate -/

@[simp] theorem State.walkL0_keeps (s : State) (ctx : Nat) (va : Nat) (base : Nat) (e : Nat) (s0 : State) (hK : Keeps s0 s) :
    Keeps s0 (State.walkL0 s ctx va base e).2 := by
  unfold State.walkL0
  simp (maxDischargeDepth := 100) +contextual [hK]

@[simp] theorem State.walkFrom_keeps (s : State) (ctx : Nat) (va : Nat) (x0 : List Nat) (x1 : Nat) (s0 : State) (hK : Keeps s0 s) :
    Keeps s0 (State.walkFrom s ctx va x0 x1).2 := by
  induction x0 generalizing x1 with
  | nil => simpa [State.walkFrom] using hK
  | cons l rest ih =>
    unfold State.walkFrom
    dsimp only
    (repeat' split) <;> simp [hK, ih]

@[simp] theorem State.cachePage_keeps (s : State) (r : Nat) (w : Walk) (s0 : State) (hK : Keeps s0 s) :
    Keeps s0 (State.cachePage s r w) := by
  unfold State.cachePage
  try dsimp only
  (repeat' split) <;> simp (maxDischargeDepth := 100) +contextual [hK]

@[simp] theorem State.choose_keeps (s : State) (l : List XRes) (dflt : XRes) (s0 : State) (hK : Keeps s0 s) :
    Keeps s0 (State.choose s l dflt).2 := by
  unfold State.choose
  simp (maxDischargeDepth := 100) +contextual [hK]

@[simp] theorem State.xlatePaged_keeps (s : State) (r : Nat) (ctx : Nat) (va : Nat) (write : Bool) (s0 : State) (hK : Keeps s0 s) :
    Keeps s0 (State.xlatePaged s r ctx va write).2 := by
  unfold State.xlatePaged
  simp (maxDischargeDepth := 100) +contextual [hK]

@[simp] theorem State.xlateExpert_keeps (s : State) (r : Nat) (ctx : Nat) (va : Nat) (write : Bool) (s0 : State) (hK : Keeps s0 s) :
    Keeps s0 (State.xlateExpert s r ctx va write).2 := by
  unfold State.xlateExpert
  simp (maxDischargeDepth := 100) +contextual [hK]

@[simp] theorem State.xlate_keeps (s : State) (r : Nat) (ctx : Nat) (va : Nat) (write : Bool) (s0 : State) (hK : Keeps s0 s) :
    Keeps s0 (State.xlate s r ctx va write).2 := by
  unfold State.xlate
  simp (maxDischargeDepth := 100) +contextual [hK]

@[simp] theorem State.xlateOnly_keeps (s : State) (r : Nat) (ctx : Nat) (va : Nat) (write : Bool) (s0 : State) (hK : Keeps s0 s) :
    Keeps s0 (State.xlateOnly s r ctx va write).2 := by
  have h := (State.xlate_keeps s r ctx va write s (Keeps.refl s)).drawn
  exact ⟨hK.queue, hK.canon, Nat.le_trans hK.drawn h, hK.sent⟩

@[simp] theorem State.abandonFill_keeps (s : State) (x : Nat) (s0 : State) (hK : Keeps s0 s) :
    Keeps s0 (State.abandonFill s x) := by
  unfold State.abandonFill
  simp (maxDischargeDepth := 100) +contextual [hK]

@[simp] theorem State.wroteExpert_keeps (s : State) (ctx : Nat) (va : Nat) (s0 : State) (hK : Keeps s0 s) :
    Keeps s0 (State.wroteExpert s ctx va) := by
  unfold State.wroteExpert
  try dsimp only
  (repeat' split) <;> simp (maxDischargeDepth := 100) +contextual [hK]

@[simp] theorem State.freeBytes_keeps (s : State) (n : Nat) (s0 : State) (hK : Keeps s0 s) :
    Keeps s0 (State.freeBytes s n).2 := by
  unfold State.freeBytes
  simp (maxDischargeDepth := 100) +contextual [hK]

@[simp] theorem State.readPiece_keeps (s : State) (pa : Nat) (n : Nat) (s0 : State) (hK : Keeps s0 s) :
    Keeps s0 (State.readPiece s pa n).2 := by
  unfold State.readPiece
  simp (maxDischargeDepth := 100) +contextual [hK]

@[simp] theorem State.readVa_keeps (s : State) (r : Nat) (ctx : Nat) (va : Nat) (n : Nat) (s0 : State) (hK : Keeps s0 s) :
    Keeps s0 (State.readVa s r ctx va n).2 := by
  unfold State.readVa
  try dsimp only
  refine keeps_foldl2 _ _ _ (by simp (maxDischargeDepth := 100) +contextual [hK]) ?_
  intro t a ht
  (repeat' split) <;> simp (maxDischargeDepth := 100) +contextual [ht]

@[simp] theorem State.writeVa_keeps (s : State) (r : Nat) (ctx : Nat) (va : Nat) (l : List Byte) (s0 : State) (hK : Keeps s0 s) :
    Keeps s0 (State.writeVa s r ctx va l) := by
  unfold State.writeVa
  try dsimp only
  (repeat' split) <;> simp (maxDischargeDepth := 100) +contextual [hK]

@[simp] theorem State.dropTlbs_keeps (s : State) (sel : Tlb → Bool) (s0 : State) (hK : Keeps s0 s) :
    Keeps s0 (State.dropTlbs s sel) := by
  unfold State.dropTlbs
  simp (maxDischargeDepth := 100) +contextual [hK]

@[simp] theorem State.dropLedger_keeps (s : State) (sel : Nat → Nat → Bool) (s0 : State) (hK : Keeps s0 s) :
    Keeps s0 (State.dropLedger s sel) := by
  unfold State.dropLedger
  simp (maxDischargeDepth := 100) +contextual [hK]

/-! Cmds -/

@[simp] theorem State.updCmd_keeps (s : State) (r : Nat) (seq : Nat) (f : RoomCmd → RoomCmd) (s0 : State) (hK : Keeps s0 s) :
    Keeps s0 (State.updCmd s r seq f) := by
  unfold State.updCmd
  simp (maxDischargeDepth := 100) +contextual [hK]

@[simp] theorem State.writeStatus_keeps (s : State) (r : Nat) (c : RoomCmd) (st : Nat) (cause : Nat) (s0 : State) (hK : Keeps s0 s) :
    Keeps s0 (State.writeStatus s r c st cause) := by
  unfold State.writeStatus
  simp (maxDischargeDepth := 100) +contextual [hK]

@[simp] theorem State.settle_keeps (s : State) (i : FaultInfo) (s0 : State) (hK : Keeps s0 s) :
    Keeps s0 (State.settle s i).2 := by
  unfold State.settle
  simp (maxDischargeDepth := 100) +contextual [hK]

@[simp] theorem State.ctxVector_keeps (s : State) (x : Ctx) (vec : Nat) (s0 : State) (hK : Keeps s0 s) :
    Keeps s0 (State.ctxVector s x vec) := by
  unfold State.ctxVector
  simp (maxDischargeDepth := 100) +contextual [hK]

@[simp] theorem State.ctxFault_keeps (s : State) (c : Nat) (i : FaultInfo) (tag : Nat) (place : Nat) (qidx : Nat) (s0 : State) (hK : Keeps s0 s) :
    Keeps s0 (State.ctxFault s c i tag place qidx) := by
  unfold State.ctxFault
  simp (maxDischargeDepth := 100) +contextual [hK]

@[simp] theorem State.fwFault_keeps (s : State) (r : Nat) (i : FaultInfo) (tag : Nat) (place : Nat) (s0 : State) (hK : Keeps s0 s) :
    Keeps s0 (State.fwFault s r i tag place) := by
  unfold State.fwFault
  simp (maxDischargeDepth := 100) +contextual [hK]

@[simp] theorem State.flueCmd_keeps (s : State) (ty : Nat) (cause : Nat) (c : RoomCmd) (phys : Option Nat) (s0 : State) (hK : Keeps s0 s) :
    Keeps s0 (State.flueCmd s ty cause c phys) := by
  unfold State.flueCmd
  try dsimp only
  (repeat' split) <;> simp (maxDischargeDepth := 100) +contextual [hK]

@[simp] theorem State.dropStreams_keeps (s : State) (e : Nat) (sel : Stream → Bool) (s0 : State) (hK : Keeps s0 s) :
    Keeps s0 (State.dropStreams s e sel) := by
  unfold State.dropStreams
  simp (maxDischargeDepth := 100) +contextual [hK]

@[simp] theorem State.freeBound_keeps (s : State) (r : Nat) (s0 : State) (hK : Keeps s0 s) :
    Keeps s0 (State.freeBound s r) := by
  unfold State.freeBound
  simp (maxDischargeDepth := 100) +contextual [hK]

@[simp] theorem State.unbindIdle_keeps (s : State) (r : Nat) (s0 : State) (hK : Keeps s0 s) :
    Keeps s0 (State.unbindIdle s r) := by
  unfold State.unbindIdle
  simp (maxDischargeDepth := 100) +contextual [hK]

@[simp] theorem State.endCmd_keeps (s : State) (r : Nat) (c : RoomCmd) (s0 : State) (hK : Keeps s0 s) :
    Keeps s0 (State.endCmd s r c) := by
  unfold State.endCmd
  try dsimp only
  (repeat' split) <;> simp (maxDischargeDepth := 100) +contextual [hK]

@[simp] theorem State.noteTicket_keeps (s : State) (r : Nat) (src : Src) (st : Nat) (s0 : State) (hK : Keeps s0 s) :
    Keeps s0 (State.noteTicket s r src st) := by
  unfold State.noteTicket
  try dsimp only
  (repeat' split) <;> simp (maxDischargeDepth := 100) +contextual [hK]

@[simp] theorem State.stopRoutine_keeps (s : State) (r : Nat) (s0 : State) (hK : Keeps s0 s) :
    Keeps s0 (State.stopRoutine s r) := by
  unfold State.stopRoutine
  simp (maxDischargeDepth := 100) +contextual [hK]

@[simp] theorem State.faultCall_keeps (s : State) (r : Nat) (i : FaultInfo) (s0 : State) (hK : Keeps s0 s) :
    Keeps s0 (State.faultCall s r i) := by
  unfold State.faultCall
  try dsimp only
  (repeat' split) <;> simp (maxDischargeDepth := 100) +contextual [hK]

@[simp] theorem State.deadTag_keeps (s : State) (c : RoomCmd) (w : Nat) (s0 : State) (hK : Keeps s0 s) :
    Keeps s0 (State.deadTag s c w) := by
  unfold State.deadTag
  simp (maxDischargeDepth := 100) +contextual [hK]

@[simp] theorem State.dropCall_keeps (s : State) (r : Nat) (c : RoomCmd) (s0 : State) (hK : Keeps s0 s) :
    Keeps s0 (State.dropCall s r c) := by
  unfold State.dropCall
  simp (maxDischargeDepth := 100) +contextual [hK]

@[simp] theorem State.cmdFault_keeps (s : State) (r : Nat) (c : RoomCmd) (i : FaultInfo) (s0 : State) (hK : Keeps s0 s) :
    Keeps s0 (State.cmdFault s r c i) := by
  unfold State.cmdFault
  try dsimp only
  (repeat' split) <;> simp (maxDischargeDepth := 100) +contextual [hK]

@[simp] theorem State.applySigEntry_keeps (s : State) (e : Nat) (s0 : State) (hK : Keeps s0 s) :
    Keeps s0 (State.applySigEntry s e) := by
  unfold State.applySigEntry
  simp (maxDischargeDepth := 100) +contextual [hK]

@[simp] theorem State.cmdComplete_keeps (s : State) (r : Nat) (c : RoomCmd) (s0 : State) (hK : Keeps s0 s) :
    Keeps s0 (State.cmdComplete s r c) := by
  unfold State.cmdComplete
  refine State.setRoom_keeps _ _ _ _ (State.endCmd_keeps _ _ _ _ ?_)
  (repeat' split) <;> simp (maxDischargeDepth := 100) +contextual [hK]

@[simp] theorem State.faultUndelivered_keeps (s : State) (r : Nat) (c : Nat) (desc : BitVec 2048) (qidx : Nat) (i : FaultInfo)
    (s0 : State) (hK : Keeps s0 s) :
    Keeps s0 (State.faultUndelivered s r c desc qidx i) := by
  unfold State.faultUndelivered
  simp (maxDischargeDepth := 100) +contextual [hK]

/-! Fences -/

@[simp] theorem State.coldClear_keeps (s : State) (h : Hold) (s0 : State) (hK : Keeps s0 s) :
    Keeps s0 (State.coldClear s h) := by
  have h1 : ∀ x : State, x.pending = s.pending → x.ms.mem = s.outerMem → x.boot.flash = s.boot.flash →
      x.freeCtr = s.freeCtr → x.outbox = s.outbox → Keeps s0 x := by
    intro x hp hm hb hf ho
    refine ⟨hp.trans hK.queue, fun m => ⟨?_, ?_⟩, hf ▸ hK.drawn, ho ▸ hK.sent⟩
    · rw [hm]; exact FMap.wf_filter _ _ _ (hK.canon m).1
    · rw [hb]; exact (hK.canon m).2
  unfold State.coldClear
  dsimp only
  split
  · exact h1 _ rfl rfl rfl rfl rfl
  · exact State.fset_keeps _ _ _ _ (h1 _ rfl rfl rfl rfl rfl)

@[simp] theorem State.dropBias_keeps (s : State) (s0 : State) (hK : Keeps s0 s) :
    Keeps s0 (State.dropBias s) := by
  unfold State.dropBias
  simp (maxDischargeDepth := 100) +contextual [hK]

@[simp] theorem State.packageStop_keeps (s : State) (s0 : State) (hK : Keeps s0 s) :
    Keeps s0 (State.packageStop s) := by
  unfold State.packageStop
  simp (maxDischargeDepth := 100) +contextual [hK]

@[simp] theorem State.faultCmds_keeps (s : State) (r : Nat) (sel : RoomCmd → Bool) (info : RoomCmd → FaultInfo) (s0 : State) (hK : Keeps s0 s) :
    Keeps s0 (State.faultCmds s r sel info) := by
  unfold State.faultCmds
  try dsimp only
  refine keeps_foldl _ _ _ (by simp (maxDischargeDepth := 100) +contextual [hK]) ?_
  intro t a ht
  (repeat' split) <;> simp (maxDischargeDepth := 100) +contextual [ht]

@[simp] theorem State.evictEngine_keeps (s : State) (e : Nat) (cause : Nat) (s0 : State) (hK : Keeps s0 s) :
    Keeps s0 (State.evictEngine s e cause) := by
  unfold State.evictEngine
  simp (maxDischargeDepth := 100) +contextual [hK]

@[simp] theorem State.evictRoom_keeps (s : State) (r : Nat) (cause : Nat) (s0 : State) (hK : Keeps s0 s) :
    Keeps s0 (State.evictRoom s r cause) := by
  unfold State.evictRoom
  simp (maxDischargeDepth := 100) +contextual [hK]

@[simp] theorem State.setBit_keeps (s : State) (f : Fld) (i : Nat) (s0 : State) (hK : Keeps s0 s) :
    Keeps s0 (State.setBit s f i) := by
  unfold State.setBit
  simp (maxDischargeDepth := 100) +contextual [hK]

@[simp] theorem State.clrBit_keeps (s : State) (f : Fld) (i : Nat) (s0 : State) (hK : Keeps s0 s) :
    Keeps s0 (State.clrBit s f i) := by
  unfold State.clrBit
  simp (maxDischargeDepth := 100) +contextual [hK]

@[simp] theorem State.setEngFenced_keeps (s : State) (e : Nat) (hw : Bool) (s0 : State) (hK : Keeps s0 s) :
    Keeps s0 (State.setEngFenced s e hw) := by
  unfold State.setEngFenced
  simp (maxDischargeDepth := 100) +contextual [hK]

@[simp] theorem State.setRoomFenced_keeps (s : State) (r : Nat) (hw : Bool) (s0 : State) (hK : Keeps s0 s) :
    Keeps s0 (State.setRoomFenced s r hw) := by
  unfold State.setRoomFenced
  simp (maxDischargeDepth := 100) +contextual [hK]

@[simp] theorem State.fenceEngine_keeps (s : State) (e : Nat) (s0 : State) (hK : Keeps s0 s) :
    Keeps s0 (State.fenceEngine s e) := by
  unfold State.fenceEngine
  simp (maxDischargeDepth := 100) +contextual [hK]

@[simp] theorem State.fenceRoom_keeps (s : State) (r : Nat) (s0 : State) (hK : Keeps s0 s) :
    Keeps s0 (State.fenceRoom s r) := by
  unfold State.fenceRoom
  simp (maxDischargeDepth := 100) +contextual [hK]

@[simp] theorem State.fenceDieUnits_keeps (s : State) (d : Nat) (s0 : State) (hK : Keeps s0 s) :
    Keeps s0 (State.fenceDieUnits s d) := by
  unfold State.fenceDieUnits
  simp (maxDischargeDepth := 100) +contextual [hK]

@[simp] theorem State.fenceDie_keeps (s : State) (d : Nat) (s0 : State) (hK : Keeps s0 s) :
    Keeps s0 (State.fenceDie s d) := by
  unfold State.fenceDie
  simp (maxDischargeDepth := 100) +contextual [hK]

/-! Queues -/

@[simp] theorem State.doorbell_keeps (s : State) (c : Nat) (v : Nat) (s0 : State) (hK : Keeps s0 s) :
    Keeps s0 (State.doorbell s c v) := by
  unfold State.doorbell
  simp (maxDischargeDepth := 100) +contextual [hK]

@[simp] theorem State.depthRead_keeps (s : State) (p : DbPage) (select : Nat → Nat) (s0 : State) (hK : Keeps s0 s) :
    Keeps s0 (State.depthRead s p select) := by
  unfold State.depthRead
  try dsimp only
  (repeat' split) <;> simp (maxDischargeDepth := 100) +contextual [hK]

@[simp] theorem State.readPage_keeps (s : State) (p : DbPage) (off : Nat) (be : BitVec 4) (s0 : State) (hK : Keeps s0 s) :
    Keeps s0 (State.readPage s p off be) := by
  unfold State.readPage
  try dsimp only
  (repeat' split) <;> simp (maxDischargeDepth := 100) +contextual [hK]

@[simp] theorem State.enterRoom_keeps (s : State) (r : Nat) (src : Src) (ctx : Nat) (desc : BitVec 2048) (qidx : Nat) (s0 : State) (hK : Keeps s0 s) :
    Keeps s0 (State.enterRoom s r src ctx desc qidx) := by
  unfold State.enterRoom
  simp (maxDischargeDepth := 100) +contextual [hK]

@[simp] theorem State.clearDrops_keeps (s : State) (r : Nat) (i : Nat) (s0 : State) (hK : Keeps s0 s) :
    Keeps s0 (State.clearDrops s r i) := by
  unfold State.clearDrops
  simp (maxDischargeDepth := 100) +contextual [hK]

@[simp] theorem State.advanceHead_keeps (s : State) (c : Nat) (s0 : State) (hK : Keeps s0 s) :
    Keeps s0 (State.advanceHead s c) := by
  unfold State.advanceHead
  simp (maxDischargeDepth := 100) +contextual [hK]

@[simp] theorem State.bindInbox_keeps (s : State) (r : Nat) (i : Nat) (c : Nat) (s0 : State) (hK : Keeps s0 s) :
    Keeps s0 (State.bindInbox s r i c) := by
  unfold State.bindInbox
  simp (maxDischargeDepth := 100) +contextual [hK]

@[simp] theorem State.deliver_keeps (s : State) (c : Nat) (s0 : State) (hK : Keeps s0 s) :
    Keeps s0 (State.deliver s c) := by
  unfold State.deliver
  try dsimp only
  (repeat' split) <;> simp (maxDischargeDepth := 100) +contextual [hK]

/-! Registers -/

@[simp] theorem State.writeWord_keeps (s : State) (t : RegTarget) (w : BusWr) (s0 : State) (hK : Keeps s0 s) :
    Keeps s0 (State.writeWord s t w) := by
  unfold State.writeWord
  try dsimp only
  (repeat' split) <;> simp (maxDischargeDepth := 100) +contextual [hK]

@[simp] theorem State.readWord_keeps (s : State) (t : RegTarget) (req : Req) (be : BitVec 4) (s0 : State) (hK : Keeps s0 s) :
    Keeps s0 (State.readWord s t req be) := by
  unfold State.readWord
  (repeat' split) <;> first | exact hK | simp (maxDischargeDepth := 100) +contextual [hK]

@[simp] theorem State.writeBoth_keeps (s : State) (t : RegTarget) (host : W32) (mgmt : W32) (s0 : State) (hK : Keeps s0 s) :
    Keeps s0 (State.writeBoth s t host mgmt) := by
  unfold State.writeBoth
  try dsimp only
  (repeat' split) <;> simp (maxDischargeDepth := 100) +contextual [hK]

@[simp] theorem State.applyStaged_keeps (s : State) (off : Nat) (f : Fld) (s0 : State) (hK : Keeps s0 s) :
    Keeps s0 (State.applyStaged s off f) := by
  unfold State.applyStaged
  try dsimp only
  (repeat' split) <;> simp (maxDischargeDepth := 100) +contextual [hK]

@[simp] theorem State.applyCpEn_keeps (s : State) (q : Nat) (s0 : State) (hK : Keeps s0 s) :
    Keeps s0 (State.applyCpEn s q) := by
  unfold State.applyCpEn
  try dsimp only
  (repeat' split) <;> simp (maxDischargeDepth := 100) +contextual [hK]

@[simp] theorem State.posted_keeps (s : State) (p : PWrite) (s0 : State) (hK : Keeps s0 s) :
    Keeps s0 (State.posted s p) := by
  unfold State.posted
  simp (maxDischargeDepth := 100) +contextual [hK]

/-! Arbiters -/

@[simp] theorem State.starve_keeps (s : State) (a : Nat) (i : Nat) (s0 : State) (hK : Keeps s0 s) :
    Keeps s0 (State.starve s a i) := by
  unfold State.starve
  try dsimp only
  (repeat' split) <;> simp (maxDischargeDepth := 100) +contextual [hK]

@[simp] theorem State.countGrant_keeps (s : State) (a : Nat) (i : Nat) (wait : Nat) (cycle : Nat) (s0 : State) (hK : Keeps s0 s) :
    Keeps s0 (State.countGrant s a i wait cycle) := by
  unfold State.countGrant
  simp (maxDischargeDepth := 100) +contextual [hK]

@[simp] theorem State.beginBurst_keeps (s : State) (a : Nat) (cycle : Nat) (q : ArbReq) (s0 : State) (hK : Keeps s0 s) :
    Keeps s0 (State.beginBurst s a cycle q) := by
  unfold State.beginBurst
  simp (maxDischargeDepth := 100) +contextual [hK]

@[simp] theorem State.beatsOf_keeps (s : State) (beats : Nat) (s0 : State) (hK : Keeps s0 s) :
    Keeps s0 (State.beatsOf s beats).2 := by
  unfold State.beatsOf
  try dsimp only
  (repeat' split) <;> simp (maxDischargeDepth := 100) +contextual [hK]

@[simp] theorem State.raiseReq_keeps (s : State) (a : Nat) (q : ArbReq) (s0 : State) (hK : Keeps s0 s) :
    Keeps s0 (State.raiseReq s a q) := by
  unfold State.raiseReq
  try dsimp only
  (repeat' split) <;> simp (maxDischargeDepth := 100) +contextual [hK]

@[simp] theorem State.clearCounts_keeps (s : State) (a : Nat) (cycle : Nat) (i : Nat) (s0 : State) (hK : Keeps s0 s) :
    Keeps s0 (State.clearCounts s a cycle i) := by
  unfold State.clearCounts
  try dsimp only
  (repeat' split) <;> simp (maxDischargeDepth := 100) +contextual [hK]

@[simp] theorem State.setPcRemap_keeps (s : State) (k : Nat) (v : Nat) (s0 : State) (hK : Keeps s0 s) :
    Keeps s0 (State.setPcRemap s k v) := by
  unfold State.setPcRemap
  simp (maxDischargeDepth := 100) +contextual [hK]

/-! Matmul -/

theorem keeps_iteM {s0 : State} {a b : MmSt} (c : Prop) [Decidable c] (ha : Keeps s0 a.s) (hb : Keeps s0 b.s) :
    Keeps s0 (if c then a else b).s := by split <;> assumption

theorem keeps_iteB {s0 : State} {a b : MmSt × Bool} (c : Prop) [Decidable c] (ha : Keeps s0 a.1.s) (hb : Keeps s0 b.1.s) :
    Keeps s0 (if c then a else b).1.s := by split <;> assumption

@[simp] theorem State.workDone_keeps (s : State) (r : Nat) (seq : Nat) (s0 : State) (hK : Keeps s0 s) :
    Keeps s0 (State.workDone s r seq) := by
  unfold State.workDone
  simp (maxDischargeDepth := 100) +contextual [hK]

@[simp] theorem State.workFault_keeps (s : State) (r : Nat) (seq : Nat) (i : FaultInfo) (s0 : State) (hK : Keeps s0 s) :
    Keeps s0 (State.workFault s r seq i) := by
  unfold State.workFault
  simp (maxDischargeDepth := 100) +contextual [hK]

@[simp] theorem State.workIssued_keeps (s : State) (r : Nat) (seq : Nat) (s0 : State) (hK : Keeps s0 s) :
    Keeps s0 (State.workIssued s r seq) := by
  unfold State.workIssued
  simp (maxDischargeDepth := 100) +contextual [hK]

@[simp] theorem State.workUndef_keeps (s : State) (r : Nat) (seq : Nat) (d : Nat) (s0 : State) (hK : Keeps s0 s) :
    Keeps s0 (State.workUndef s r seq d) := by
  unfold State.workUndef
  simp (maxDischargeDepth := 100) +contextual [hK]

@[simp] theorem State.mmInsts_keeps (s : State) (m : Mm) (s0 : State) (hK : Keeps s0 s) :
    Keeps s0 (State.mmInsts s m).2 := by
  unfold State.mmInsts
  try dsimp only
  (repeat' split) <;> simp (maxDischargeDepth := 100) +contextual [hK]

@[simp] theorem State.mmSpoil_keeps (s : State) (m : Mm) (l : List MmInst) (s0 : State) (hK : Keeps s0 s) :
    Keeps s0 (State.mmSpoil s m l) := by
  have h1 : Keeps s0 ((m.outRegs l).foldl (fun st t => st.freeSpace m.r m.e m.ctx 0 t.lo (t.size * 256)) s) :=
    keeps_foldl _ _ _ hK fun t a ht => by simp [ht]
  unfold State.mmSpoil
  refine State.setEng_keeps _ _ _ _ (keeps_foldl _ _ _ h1 fun t a ht => ?_)
  simp [ht]

@[simp] theorem State.mmRelease_keeps (s : State) (m : Mm) (s0 : State) (hK : Keeps s0 s) :
    Keeps s0 (State.mmRelease s m) := by
  unfold State.mmRelease
  try dsimp only
  (repeat' split) <;> simp (maxDischargeDepth := 100) +contextual [hK]

@[simp] theorem State.countWalk_keeps (s : State) (m : Mm) (drop : Nat) (miss : Nat) (s0 : State) (hK : Keeps s0 s) :
    Keeps s0 (State.countWalk s m drop miss) := by
  unfold State.countWalk
  try dsimp only
  (repeat' split) <;> simp (maxDischargeDepth := 100) +contextual [hK]

@[simp] theorem MmSt.over_keeps (t : MmSt) (n : Nat) (f : MmSt → MmSt) (s0 : State) (hK : Keeps s0 t.s)
    (hf : ∀ t, Keeps s0 t.s → Keeps s0 (f t).s) : Keeps s0 (MmSt.steps t n f).s := by
  unfold MmSt.steps
  (repeat' split) <;> first | exact hK | exact hf _ hK

@[simp] theorem Mm.walkTile_keeps (m : Mm) (w : WalkIn) (i : MmInst) (m0 n0 : Nat) (main shad : AccSlot) (t : MmSt)
    (f : TileAcc → TileAcc → MmSt → MmSt) (s0 : State) (hK : Keeps s0 t.s)
    (hf : ∀ a b t, Keeps s0 t.s → Keeps s0 (f a b t).s) : Keeps s0 (Mm.walkTile m w i m0 n0 main shad t f).s := by
  unfold Mm.walkTile
  refine keeps_iteM _ ?_ ?_
  · exact State.countWalk_keeps _ _ _ _ _ hK
  · refine hf _ _ _ ?_
    exact State.countWalk_keeps _ _ _ _ _ hK

@[simp] theorem Mm.finish_keeps (m : Mm) (i : MmInst) (g : Geo) (o : OutMap) (m0 : Nat) (n0 : Nat) (slot : Nat) (a : AccSlot) (t : MmSt)
    (s0 : State) (hK : Keeps s0 t.s) :
    Keeps s0 (Mm.finish m i g o m0 n0 slot a t).s := by
  unfold Mm.finish
  try dsimp only
  (repeat' split) <;> simp (maxDischargeDepth := 100) +contextual [hK]

@[simp] theorem Mm.holdOrFinish_keeps (m : Mm) (i : MmInst) (g : Geo) (o : OutMap) (m0 : Nat) (n0 : Nat) (slot : Nat) (a : AccSlot) (t : MmSt)
    (s0 : State) (hK : Keeps s0 t.s) :
    Keeps s0 (Mm.holdOrFinish m i g o m0 n0 slot a t).s := by
  unfold Mm.holdOrFinish
  split
  · exact State.setEng_keeps _ _ _ _ hK
  · exact Mm.finish_keeps _ _ _ _ _ _ _ _ _ _ hK

@[simp] theorem Mm.enter_keeps (m : Mm) (i : MmInst) (m0 n0 : Nat) (f : Nat → MmSt → MmSt) (t : MmSt) (s0 : State)
    (hK : Keeps s0 t.s) (hf : ∀ n t, Keeps s0 t.s → Keeps s0 (f n t).s) : Keeps s0 (Mm.enter m i m0 n0 f t).s := by
  refine MmSt.over_keeps _ _ _ _ hK fun t ht => ?_
  dsimp only
  (repeat' split) <;> first | exact ht | exact hf _ _ ht

@[simp] theorem Mm.showSlot_keeps (m : Mm) (n : Nat) (t : MmSt) (s0 : State) (hK : Keeps s0 t.s) :
    Keeps s0 (Mm.showSlot m n t).s := by
  unfold Mm.showSlot
  split
  · exact hK
  · exact State.setEng_keeps _ _ _ _ hK

@[simp] theorem Mm.tile_keeps (m : Mm) (i : MmInst) (g : Geo) (o : OutMap) (m0 n0 : Nat) (t : MmSt) (s0 : State)
    (hK : Keeps s0 t.s) : Keeps s0 (Mm.tile m i g o m0 n0 t).s := by
  refine Mm.enter_keeps _ _ _ _ _ _ _ hK fun n t ht => ?_
  have hf : ∀ g : TileAcc → TileAcc → MmSt → MmSt, (∀ a b t1, Keeps s0 t1.s → Keeps s0 (g a b t1).s) → ∀ w a b,
      Keeps s0 (m.walkTile w i m0 n0 a b t g).s := fun g hg w a b => Mm.walkTile_keeps _ _ _ _ _ _ _ _ _ _ ht hg
  refine keeps_iteM _ ?_ ?_
  · refine Mm.showSlot_keeps _ _ _ _ (hf _ (fun a b t1 h1 => ?_) _ _ _)
    refine Mm.holdOrFinish_keeps _ _ _ _ _ _ _ _ _ _ ?_
    exact h1
  · refine hf _ (fun a b t1 h1 => ?_) _ _ _
    refine Mm.holdOrFinish_keeps _ _ _ _ _ _ _ _ _ _ ?_
    exact h1

@[simp] theorem Mm.topkRows_keeps (m : Mm) (i : MmInst) (m0 : Nat) (n0 : Nat) (rows : List Nat) (t : MmSt) (s0 : State) (hK : Keeps s0 t.s) :
    Keeps s0 (Mm.topkRows m i m0 n0 rows t).s := by
  refine keeps_fold_of MmSt.s _ _ _ hK fun t a ht => ?_
  split
  · exact ht
  · refine State.setEng_keeps _ _ _ _ ?_
    split <;> simp [ht]

@[simp] theorem Mm.verifyRow_keeps (m : Mm) (i : MmInst) (m0 : Nat) (n0 : Nat) (row : Nat) (t : MmSt) (s0 : State) (hK : Keeps s0 t.s) :
    Keeps s0 (Mm.verifyRow m i m0 n0 row t).s := by
  unfold Mm.verifyRow
  try dsimp only
  (repeat' split) <;> simp (maxDischargeDepth := 100) +contextual [hK]

@[simp] theorem Mm.courseEnd_keeps (m : Mm) (i : MmInst) (m0 : Nat) (n0 : Nat) (t : MmSt) (s0 : State) (hK : Keeps s0 t.s) :
    Keeps s0 (Mm.courseEnd m i m0 n0 t).s := by
  have hv : ∀ l : List Nat, Keeps s0 (l.foldl (fun acc r => m.verifyRow i m0 n0 r acc) t).s := fun l =>
    keeps_fold_of MmSt.s _ _ _ hK fun t a ht => by simp [ht]
  unfold Mm.courseEnd
  dsimp only
  (repeat' split) <;> simp [hK, hv]

@[simp] theorem Mm.firstTile_keeps (m : Mm) (i : MmInst) (m0 n1 j : Nat) (t : MmSt) (s0 : State) (hK : Keeps s0 t.s) :
    Keeps s0 (Mm.firstTile m i m0 n1 j t).s := by
  refine MmSt.over_keeps _ _ _ _ hK fun t ht => ?_
  split
  · exact ht
  · exact Mm.walkTile_keeps _ _ _ _ _ _ _ _ _ _ ht fun a b t1 h1 => h1

@[simp] theorem Mm.secondTile_keeps (m : Mm) (i : MmInst) (ib : EngSt) (n1 m0 n0 : Nat) (t : MmSt) (s0 : State)
    (hK : Keeps s0 t.s) : Keeps s0 (Mm.secondTile m i ib n1 m0 n0 t).s := by
  refine Mm.enter_keeps _ _ _ _ _ _ _ hK fun n t ht => ?_
  dsimp only
  split
  · exact Mm.showSlot_keeps _ _ _ _ (Mm.walkTile_keeps _ _ _ _ _ _ _ _ _ _ ht fun a b t1 h1 => Mm.holdOrFinish_keeps _ _ _ _ _ _ _ _ _ _ h1)
  · exact Mm.walkTile_keeps _ _ _ _ _ _ _ _ _ _ ht fun a b t1 h1 => Mm.holdOrFinish_keeps _ _ _ _ _ _ _ _ _ _ h1

@[simp] theorem Mm.rowStage_keeps (m : Mm) (i : MmInst) (m0 : Nat) (n1 : Nat) (t : MmSt) (s0 : State) (hK : Keeps s0 t.s) :
    Keeps s0 (Mm.rowStage m i m0 n1 t).s := by
  unfold Mm.rowStage
  try dsimp only
  (repeat' split) <;> simp (maxDischargeDepth := 100) +contextual [hK]

@[simp] theorem Mm.lintelCourse_keeps (m : Mm) (i : MmInst) (m0 : Nat) (t : MmSt) (s0 : State) (hK : Keeps s0 t.s) :
    Keeps s0 (Mm.lintelCourse m i m0 t).s := by
  refine MmSt.over_keeps _ _ _ _ hK fun t ht => ?_
  have h1 : ∀ (n1 : Nat) (l : List Nat), Keeps s0 (l.foldl (fun acc j => m.firstTile i m0 n1 j acc) t).s := fun n1 l =>
    keeps_fold_of MmSt.s _ _ _ ht fun t a h => by simp [h]
  have h2 : ∀ (l : List Nat) (ib : EngSt) (n1 c : Nat) (t1 : MmSt), Keeps s0 t1.s →
      Keeps s0 (l.foldl (fun acc j => m.secondTile i ib n1 m0 (j * c) acc) t1).s := fun l ib n1 c t1 h1 =>
    keeps_fold_of MmSt.s _ _ _ h1 fun t a ht => by simp [ht]
  dsimp only
  split
  · exact h2 _ _ _ _ _ (Mm.rowStage_keeps _ _ _ _ _ _ (h1 _ _))
  · exact Mm.courseEnd_keeps _ _ _ _ _ _ (h2 _ _ _ _ _ (Mm.rowStage_keeps _ _ _ _ _ _ (h1 _ _)))

@[simp] theorem Mm.course_keeps (m : Mm) (i : MmInst) (m0 : Nat) (t : MmSt) (s0 : State) (hK : Keeps s0 t.s) :
    Keeps s0 (Mm.course m i m0 t).s := by
  refine MmSt.over_keeps _ _ _ _ hK fun t ht => ?_
  have hf : ∀ (l : List Nat) (f : Nat → OutMap) (g : Nat → Geo) (c : Nat → Nat),
      Keeps s0 (l.foldl (fun acc j => m.tile i (g j) (f j) m0 (c j) acc) t).s := fun l f g c =>
    keeps_fold_of MmSt.s _ _ _ ht fun t a h => by simp [h]
  dsimp only
  split
  · exact hf _ _ _ _
  · exact Mm.courseEnd_keeps _ _ _ _ _ _ (hf _ _ _ _)

@[simp] theorem Mm.packWindow_keeps (m : Mm) (i : MmInst) (wgrp : Nat) (band : Nat) (t : MmSt) (s0 : State) (hK : Keeps s0 t.s) :
    Keeps s0 (Mm.packWindow m i wgrp band t).s := by
  refine MmSt.over_keeps _ _ _ _ hK fun t ht => ?_
  split
  · exact ht
  · exact keeps_fold_of MmSt.s _ _ _ ht fun t a h => Mm.tile_keeps _ _ _ _ _ _ _ _ h

@[simp] theorem Mm.oneInst_keeps (m : Mm) (i : MmInst) (t : MmSt) (s0 : State) (hK : Keeps s0 t.s) :
    Keeps s0 (Mm.oneInst m i t).s := by
  have h1 : ∀ (l k : List Nat), Keeps s0 (l.foldl (fun acc w => k.foldl (fun acc2 b => m.packWindow i w b acc2) acc) t).s :=
    fun l k => keeps_fold_of MmSt.s _ _ _ hK fun t a ht => keeps_fold_of MmSt.s _ _ _ ht fun t a ht => by simp [ht]
  have h2 : ∀ (l : List Nat) (c : Nat), Keeps s0 (l.foldl (fun acc j =>
      if m.ec.lintel then m.lintelCourse i (j * c) acc else m.course i (j * c) acc) t).s :=
    fun l c => keeps_fold_of MmSt.s _ _ _ hK fun t a ht => by split <;> simp [ht]
  unfold Mm.oneInst
  split
  · exact hK
  · dsimp only
    split
    · exact hK
    · split
      · exact h1 _ _
      · exact h2 _ _

@[simp] theorem Mm.runInsts_keeps (m : Mm) (x0 : List MmInst) (x1 : MmSt) (s0 : State) (hK : Keeps s0 x1.s) :
    Keeps s0 (Mm.runInsts m x0 x1).1.s := by
  induction x0 generalizing x1 with
  | nil => exact hK
  | cons a l ih =>
    unfold Mm.runInsts
    refine keeps_iteB _ hK (keeps_iteB _ ?_ hK)
    · have h2 : Keeps s0 (m.oneInst a (if x1.p.judged = true then x1 else
          { x1 with p := { x1.p with judged := true, bad := x1.p.bad || m.badAsh (x1.s.eng m.e) a } })).s :=
        Mm.oneInst_keeps _ _ _ _ (keeps_iteM _ hK hK)
      exact keeps_iteB _ h2 (ih _ h2)

@[simp] theorem State.dropProg_keeps (s : State) (m : Mm) (s0 : State) (hK : Keeps s0 s) :
    Keeps s0 (State.dropProg s m) := by
  unfold State.dropProg
  try dsimp only
  (repeat' split) <;> simp (maxDischargeDepth := 100) +contextual [hK]

@[simp] theorem State.mmIllegal_keeps (s : State) (m : Mm) (l : List MmInst) (s0 : State) (hK : Keeps s0 s) :
    Keeps s0 (State.mmIllegal s m l) := by
  unfold State.mmIllegal
  simp (maxDischargeDepth := 100) +contextual [hK]

@[simp] theorem State.mmEnd_keeps (t : MmSt) (legal : Bool) (m : Mm) (s0 : State) (hK : Keeps s0 t.s) :
    Keeps s0 (State.mmEnd t legal m) := by
  unfold State.mmEnd
  try dsimp only
  (repeat' split) <;> simp (maxDischargeDepth := 100) +contextual [hK]

@[simp] theorem State.goMatmul_keeps (s : State) (m : Mm) (p : MmProg) (n : Option Nat) (s0 : State) (hK : Keeps s0 s) :
    Keeps s0 (State.goMatmul s m p n) := by
  exact State.mmEnd_keeps _ _ _ _ (Mm.runInsts_keeps _ _ _ _ hK)

@[simp] theorem State.startMatmul_keeps (s : State) (m : Mm) (n : Option Nat) (s0 : State) (hK : Keeps s0 s) :
    Keeps s0 (State.startMatmul s m n) := by
  have h : Keeps s0 (s.mmInsts m).2 := by simp [hK]
  unfold State.startMatmul
  dsimp only
  (repeat' split) <;> simp [h]

end Sys2Proof.Machine
end

