-- ==== Sys2Proof/Laws/KeepsMoves.lean ====
section
/-! SUPPORT. The dispatch of commands, moves, streams, BARs, cores, routine stores and party wall leave `Keeps` true. -/

set_option maxRecDepth 4000

namespace Sys2Proof.Machine

open State

/-! Commands -/

@[simp] theorem State.affOf_keeps (s : State) (r : Nat) (c : RoomCmd) (s0 : State) (hK : Keeps s0 s) :
    Keeps s0 (State.affOf s r c).2 := by
  unfold State.affOf
  simp (maxDischargeDepth := 100) +contextual [hK]

@[simp] theorem State.takeBreak_keeps (s : State) (r : Nat) (c : RoomCmd) (s0 : State) (hK : Keeps s0 s) :
    Keeps s0 (State.takeBreak s r c) := by
  unfold State.takeBreak
  simp (maxDischargeDepth := 100) +contextual [hK]

@[simp] theorem State.countDispatch_keeps (s : State) (r : Nat) (c : RoomCmd) (s0 : State) (hK : Keeps s0 s) :
    Keeps s0 (State.countDispatch s r c) := by
  unfold State.countDispatch
  simp (maxDischargeDepth := 100) +contextual [hK]

@[simp] theorem State.flueDispatch_keeps (s : State) (r : Nat) (seq : Nat) (s0 : State) (hK : Keeps s0 s) :
    Keeps s0 (State.flueDispatch s r seq) := by
  unfold State.flueDispatch
  try dsimp only
  (repeat' split) <;> simp (maxDischargeDepth := 100) +contextual [hK]

@[simp] theorem State.placeTask_keeps (s : State) (c : RoomCmd) (e : Nat) (n : Nat) (s0 : State) (hK : Keeps s0 s) :
    Keeps s0 (State.placeTask s c e n) := by
  unfold State.placeTask
  simp (maxDischargeDepth := 100) +contextual [hK]

@[simp] theorem State.shapeOf_keeps (s : State) (r : Nat) (c : RoomCmd) (s0 : State) (hK : Keeps s0 s) :
    Keeps s0 (State.shapeOf s r c).2 := by
  unfold State.shapeOf
  simp (maxDischargeDepth := 100) +contextual [hK]

@[simp] theorem State.doDispatch_keeps (s : State) (r : Nat) (c : RoomCmd) (en : Option (Nat × Nat)) (s0 : State) (hK : Keeps s0 s) :
    Keeps s0 (State.doDispatch s r c en) := by
  unfold State.doDispatch
  try dsimp only
  (repeat' split) <;> simp (maxDischargeDepth := 100) +contextual [hK]

@[simp] theorem State.dispatchReady_keeps (s : State) (r : Nat) (c : RoomCmd) (s0 : State) (hK : Keeps s0 s) :
    Keeps s0 (State.dispatchReady s r c) := by
  unfold State.dispatchReady
  try dsimp only
  (repeat' split) <;> simp (maxDischargeDepth := 100) +contextual [hK]

@[simp] theorem State.fwCopy_keeps (s : State) (r : Nat) (s0 : State) (hK : Keeps s0 s) :
    Keeps s0 (State.fwCopy s r) := by
  unfold State.fwCopy
  dsimp only
  (repeat' split) <;> simp (maxDischargeDepth := 100) +contextual [hK]

@[simp] theorem State.resume_keeps (s : State) (r : Nat) (s0 : State) (hK : Keeps s0 s) :
    Keeps s0 (State.resume s r) := by
  unfold State.resume
  try dsimp only
  (repeat' split) <;> simp (maxDischargeDepth := 100) +contextual [hK]

/-! Moves -/

@[simp] theorem State.putSpace_keeps (s : State) (r : Nat) (e : Nat) (ctx : Nat) (space : Nat) (b : Nat) (w : Nat) (v : Nat)
    (s0 : State) (hK : Keeps s0 s) :
    Keeps s0 (State.putSpace s r e ctx space b w v) := by
  unfold State.putSpace
  simp (maxDischargeDepth := 100) +contextual [hK]

@[simp] theorem State.spoilBits_keeps (s : State) (r : Nat) (ctx : Nat) (b : Nat) (n : Nat) (s0 : State) (hK : Keeps s0 s) :
    Keeps s0 (State.spoilBits s r ctx b n) := by
  unfold State.spoilBits
  try dsimp only
  (repeat' split) <;> simp (maxDischargeDepth := 100) +contextual [hK]

@[simp] theorem State.spoilBlocks_keeps (s : State) (r : Nat) (ctx : Nat) (l : List Block) (s0 : State) (hK : Keeps s0 s) :
    Keeps s0 (State.spoilBlocks s r ctx l) := by
  unfold State.spoilBlocks
  try dsimp only
  (repeat' split) <;> simp (maxDischargeDepth := 100) +contextual [hK]

@[simp] theorem State.spoilVa_keeps (s : State) (r : Nat) (ctx : Nat) (va : Nat) (n : Nat) (s0 : State) (hK : Keeps s0 s) :
    Keeps s0 (State.spoilVa s r ctx va n) := by
  unfold State.spoilVa
  try dsimp only
  refine keeps_foldl _ _ _ (by simp (maxDischargeDepth := 100) +contextual [hK]) ?_
  intro t a ht
  (repeat' split) <;> simp (maxDischargeDepth := 100) +contextual [ht]

@[simp] theorem State.readOrPark_keeps (s : State) (r : Nat) (ctx : Nat) (va : Nat) (n : Nat) (s0 : State) (hK : Keeps s0 s) :
    Keeps s0 (State.readOrPark s r ctx va n).2 := by
  unfold State.readOrPark
  try dsimp only
  refine keeps_foldl2 _ _ _ (by simp (maxDischargeDepth := 100) +contextual [hK]) ?_
  intro t a ht
  (repeat' split) <;> simp (maxDischargeDepth := 100) +contextual [ht]

@[simp] theorem State.addStream_keeps (s : State) (c : RoomCmd) (e : Nat) (isWrite : Bool) (bs : List Block) (ashlar : Bool) (err : Option FaultInfo)
    (s0 : State) (hK : Keeps s0 s) :
    Keeps s0 (State.addStream s c e isWrite bs ashlar err) := by
  unfold State.addStream
  simp (maxDischargeDepth := 100) +contextual [hK]

@[simp] theorem State.parkOn_keeps (s : State) (r : Nat) (c : RoomCmd) (e : Nat) (va : Nat) (s0 : State) (hK : Keeps s0 s) :
    Keeps s0 (State.parkOn s r c e va) := by
  unfold State.parkOn
  simp (maxDischargeDepth := 100) +contextual [hK]

@[simp] theorem State.startMove_keeps (s : State) (r : Nat) (c : RoomCmd) (e : Nat) (isWrite : Bool) (bs : List Block) (ashlar : Bool) (err : Option FaultInfo)
    (s0 : State) (hK : Keeps s0 s) :
    Keeps s0 (State.startMove s r c e isWrite bs ashlar err) := by
  unfold State.startMove
  try dsimp only
  (repeat' split) <;> simp (maxDischargeDepth := 100) +contextual [hK]

@[simp] theorem State.moveNothing_keeps (s : State) (r : Nat) (c : RoomCmd) (s0 : State) (hK : Keeps s0 s) :
    Keeps s0 (State.moveNothing s r c) := by
  unfold State.moveNothing
  simp (maxDischargeDepth := 100) +contextual [hK]

@[simp] theorem State.partBytes_keeps (s : State) (r : Nat) (c : RoomCmd) (e : Nat) (t : Tensor) (i : MvInst) (o : Nat) (n : Nat)
    (s0 : State) (hK : Keeps s0 s) :
    Keeps s0 (State.partBytes s r c e t i o n).2 := by
  unfold State.partBytes
  try dsimp only
  (repeat' split) <;> simp (maxDischargeDepth := 100) +contextual [hK]

@[simp] theorem State.readBox_keeps (s : State) (r : Nat) (c : RoomCmd) (e : Nat) (t : Tensor) (i : MvInst) (s0 : State) (hK : Keeps s0 s) :
    Keeps s0 (State.readBox s r c e t i).2 := by
  unfold State.readBox
  try dsimp only
  (repeat' split) <;> simp (maxDischargeDepth := 100) +contextual [hK]

@[simp] theorem State.readInst_keeps (s : State) (r : Nat) (c : RoomCmd) (e : Nat) (acc : MvRead) (i : MvInst) (s0 : State) (hK : Keeps s0 s) :
    Keeps s0 (State.readInst s r c e acc i).2 := by
  unfold State.readInst
  try dsimp only
  (repeat' split) <;> simp (maxDischargeDepth := 100) +contextual [hK]

@[simp] theorem State.readMoves_keeps (s : State) (r : Nat) (c : RoomCmd) (e : Nat) (l : List MvInst) (s0 : State) (hK : Keeps s0 s) :
    Keeps s0 (State.readMoves s r c e l).2 := by
  unfold State.readMoves
  simp (maxDischargeDepth := 100) +contextual [hK]

@[simp] theorem State.mvIllegal_keeps (s : State) (r : Nat) (c : RoomCmd) (e : Nat) (m : MvRead) (l : List MvInst) (s0 : State) (hK : Keeps s0 s) :
    Keeps s0 (State.mvIllegal s r c e m l) := by
  unfold State.mvIllegal
  simp (maxDischargeDepth := 100) +contextual [hK]

@[simp] theorem State.mvRun_keeps (s : State) (r : Nat) (c : RoomCmd) (e : Nat) (m : MvRead) (l : List MvInst) (s0 : State) (hK : Keeps s0 s) :
    Keeps s0 (State.mvRun s r c e m l) := by
  unfold State.mvRun
  simp (maxDischargeDepth := 100) +contextual [hK]

@[simp] theorem State.moveWork_keeps (s : State) (r : Nat) (c : RoomCmd) (e : Nat) (s0 : State) (hK : Keeps s0 s) :
    Keeps s0 (State.moveWork s r c e) := by
  unfold State.moveWork
  try dsimp only
  (repeat' split) <;> simp (maxDischargeDepth := 100) +contextual [hK]

@[simp] theorem State.notePoison_keeps (s : State) (n : Nat) (s0 : State) (hK : Keeps s0 s) :
    Keeps s0 (State.notePoison s n) := by
  unfold State.notePoison
  simp (maxDischargeDepth := 100) +contextual [hK]

@[simp] theorem State.readIdx_keeps (s : State) (r : Nat) (c : RoomCmd) (s0 : State) (hK : Keeps s0 s) :
    Keeps s0 (State.readIdx s r c).2 := by
  unfold State.readIdx
  try dsimp only
  refine keeps_foldl2 _ _ _ (by simp (maxDischargeDepth := 100) +contextual [hK]) ?_
  intro t a ht
  (repeat' split) <;> simp (maxDischargeDepth := 100) +contextual [ht]

@[simp] theorem State.putGrout_keeps (s : State) (r : Nat) (e : Nat) (ctx : Nat) (space : Nat) (l : List Piece) (s0 : State) (hK : Keeps s0 s) :
    Keeps s0 (State.putGrout s r e ctx space l) := by
  unfold State.putGrout
  try dsimp only
  refine keeps_foldl _ _ _ (by simp (maxDischargeDepth := 100) +contextual [hK]) ?_
  intro t a ht
  (repeat' split) <;> simp (maxDischargeDepth := 100) +contextual [ht]

@[simp] theorem State.gsIllegal_keeps (s : State) (r : Nat) (c : RoomCmd) (e : Nat) (t : Tensor) (s0 : State) (hK : Keeps s0 s) :
    Keeps s0 (State.gsIllegal s r c e t) := by
  unfold State.gsIllegal
  simp (maxDischargeDepth := 100) +contextual [hK]

@[simp] theorem State.gsWork_keeps (s : State) (r : Nat) (c : RoomCmd) (e : Nat) (s0 : State) (hK : Keeps s0 s) :
    Keeps s0 (State.gsWork s r c e) := by
  unfold State.gsWork
  try dsimp only
  (repeat' split) <;> simp (maxDischargeDepth := 100) +contextual [hK]

@[simp] theorem State.haloPiece_keeps (s : State) (ctx : Nat) (e : Nat) (e2 : Nat) (t : TReg) (lo : Nat) (size : Nat) (inst : Nat) (p : Piece)
    (s0 : State) (hK : Keeps s0 s) :
    Keeps s0 (State.haloPiece s ctx e e2 t lo size inst p).1 := by
  unfold State.haloPiece
  try dsimp only
  (repeat' split) <;> simp (maxDischargeDepth := 100) +contextual [hK]

@[simp] theorem State.haloAll_keeps (ctx : Nat) (e : Nat) (e2 : Nat) (t : TReg) (lo : Nat) (size : Nat) (inst : Nat) (x0 : List Piece) (x1 : State)
    (s0 : State) (hK : Keeps s0 x1) :
    Keeps s0 (State.haloAll ctx e e2 t lo size inst x0 x1).1 := by
  induction x0 generalizing x1 with
  | nil => exact hK
  | cons a l ih =>
    unfold State.haloAll
    have hp := State.haloPiece_keeps x1 ctx e e2 t lo size inst a s0 hK
    split
    · next h => rw [h] at hp; exact ih _ hp
    · exact hp

@[simp] theorem State.haloInsts_keeps (c : RoomCmd) (e : Nat) (e2 : Nat) (x0 : List Nat) (x1 : State) (s0 : State) (hK : Keeps s0 x1) :
    Keeps s0 (State.haloInsts c e e2 x0 x1).1 := by
  induction x0 generalizing x1 with
  | nil => exact hK
  | cons a l ih =>
    unfold State.haloInsts
    dsimp only
    split
    · next h => exact ih _ (by have := congrArg Prod.fst h; simp only at this; rw [← this]; simp [hK])
    · simp [hK]

@[simp] theorem State.freeHalo_keeps (s : State) (c : RoomCmd) (s0 : State) (hK : Keeps s0 s) :
    Keeps s0 (State.freeHalo s c) := by
  unfold State.freeHalo
  try dsimp only
  (repeat' split) <;> simp (maxDischargeDepth := 100) +contextual [hK]

@[simp] theorem State.haloRaces_keeps (s : State) (r : Nat) (c : RoomCmd) (e2 : Nat) (s0 : State) (hK : Keeps s0 s) :
    Keeps s0 (State.haloRaces s r c e2) := by
  unfold State.haloRaces
  try dsimp only
  (repeat' split) <;> simp (maxDischargeDepth := 100) +contextual [hK]

@[simp] theorem State.haloIllegal_keeps (s : State) (r : Nat) (c : RoomCmd) (s0 : State) (hK : Keeps s0 s) :
    Keeps s0 (State.haloIllegal s r c) := by
  unfold State.haloIllegal
  try dsimp only
  (repeat' split) <;> simp (maxDischargeDepth := 100) +contextual [hK]

@[simp] theorem State.haloWork_keeps (s : State) (r : Nat) (c : RoomCmd) (e : Nat) (s0 : State) (hK : Keeps s0 s) :
    Keeps s0 (State.haloWork s r c e) := by
  unfold State.haloWork
  split
  · simp [hK]
  · split
    · simp [hK]
    · rename_i e2 _ _
      have := State.haloInsts_keeps c e e2 (List.range (dRepeat c.desc)) s s0 hK
      revert this
      split <;> intro h <;> rename_i hq <;> rw [hq] at h <;> simp (maxDischargeDepth := 100) +contextual [h]

/-! Streams -/

@[simp] theorem State.floorRoute_keeps (s : State) (f : Nat) (p : Nat) (s0 : State) (hK : Keeps s0 s) :
    Keeps s0 (State.floorRoute s f p).2 := by
  unfold State.floorRoute
  try dsimp only
  (repeat' split) <;> simp (maxDischargeDepth := 100) +contextual [hK]

@[simp] theorem State.updStream_keeps (s : State) (t : StreamRef) (f : Stream → Stream) (s0 : State) (hK : Keeps s0 s) :
    Keeps s0 (State.updStream s t f) := by
  unfold State.updStream
  simp (maxDischargeDepth := 100) +contextual [hK]

@[simp] theorem State.flueTask_keeps (s : State) (ty : Nat) (c : RoomCmd) (s0 : State) (hK : Keeps s0 s) :
    Keeps s0 (State.flueTask s ty c) := by
  unfold State.flueTask
  simp (maxDischargeDepth := 100) +contextual [hK]

@[simp] theorem State.landRead_keeps (s : State) (t : StreamRef) (st : Stream) (b : Block) (v : Nat) (s0 : State) (hK : Keeps s0 s) :
    Keeps s0 (State.landRead s t st b v) := by
  unfold State.landRead
  try dsimp only
  (repeat' split) <;> simp (maxDischargeDepth := 100) +contextual [hK]

@[simp] theorem State.endStream_keeps (s : State) (t : StreamRef) (st : Stream) (look : Bool) (s0 : State) (hK : Keeps s0 s) :
    Keeps s0 (State.endStream s t st look) := by
  unfold State.endStream
  try dsimp only
  (repeat' split) <;> simp (maxDischargeDepth := 100) +contextual [hK]

@[simp] theorem State.checkStream_keeps (s : State) (t : StreamRef) (look : Bool) (s0 : State) (hK : Keeps s0 s) :
    Keeps s0 (State.checkStream s t look) := by
  unfold State.checkStream
  try dsimp only
  (repeat' split) <;> simp (maxDischargeDepth := 100) +contextual [hK]

@[simp] theorem State.parkRecord_keeps (s : State) (t : StreamRef) (st : Stream) (c : RoomCmd) (ty : Nat) (level : Nat) (va : Nat)
    (s0 : State) (hK : Keeps s0 s) :
    Keeps s0 (State.parkRecord s t st c ty level va).2 := by
  unfold State.parkRecord
  simp (maxDischargeDepth := 100) +contextual [hK]

@[simp] theorem State.giveTicket_keeps (s : State) (t : StreamRef) (ctx : Nat) (rec64 : BitVec 512) (s0 : State) (hK : Keeps s0 s) :
    Keeps s0 (State.giveTicket s t ctx rec64) := by
  unfold State.giveTicket
  try dsimp only
  (repeat' split) <;> simp (maxDischargeDepth := 100) +contextual [hK]

@[simp] theorem State.passUnbacked_keeps (s : State) (t : StreamRef) (st : Stream) (s0 : State) (hK : Keeps s0 s) :
    Keeps s0 (State.passUnbacked s t st) := by
  unfold State.passUnbacked
  try dsimp only
  (repeat' split) <;> simp (maxDischargeDepth := 100) +contextual [hK]

@[simp] theorem State.parkStream_keeps (s : State) (t : StreamRef) (ty : Nat) (level : Nat) (s0 : State) (hK : Keeps s0 s) :
    Keeps s0 (State.parkStream s t ty level) := by
  unfold State.parkStream
  try dsimp only
  (repeat' split) <;> simp (maxDischargeDepth := 100) +contextual [hK]

@[simp] theorem State.parkBlock_keeps (s : State) (t : StreamRef) (k : Nat) (ty : Nat) (s0 : State) (hK : Keeps s0 s) :
    Keeps s0 (State.parkBlock s t k ty) := by
  unfold State.parkBlock
  try dsimp only
  (repeat' split) <;> simp (maxDischargeDepth := 100) +contextual [hK]

@[simp] theorem State.fillDrop_keeps (s : State) (s0 : State) (hK : Keeps s0 s) :
    Keeps s0 (State.fillDrop s) := by
  unfold State.fillDrop
  simp (maxDischargeDepth := 100) +contextual [hK]

@[simp] theorem State.copyPoison_keeps (s : State) (src : Nat) (dst : Nat) (n : Nat) (s0 : State) (hK : Keeps s0 s) :
    Keeps s0 (State.copyPoison s src dst n) := by
  unfold State.copyPoison
  simp (maxDischargeDepth := 100) +contextual [hK]

@[simp] theorem State.putLine_keeps (s : State) (f : Nat) (x : Line) (s0 : State) (hK : Keeps s0 s) :
    Keeps s0 (State.putLine s f x) := by
  unfold State.putLine
  try dsimp only
  (repeat' split) <;> simp (maxDischargeDepth := 100) +contextual [hK]

@[simp] theorem State.fillLine_keeps (s : State) (f : Nat) (a : Nat) (data : List Byte) (bad : List Nat) (keep : Option Nat → Option Nat)
    (s0 : State) (hK : Keeps s0 s) :
    Keeps s0 (State.fillLine s f a data bad keep) := by
  unfold State.fillLine
  try dsimp only
  (repeat' split) <;> simp (maxDischargeDepth := 100) +contextual [hK]

@[simp] theorem State.cacheRead_keeps (s : State) (fl : Nat) (st : Stream) (f : InFlight) (data : List Byte) (bad : List Nat)
    (s0 : State) (hK : Keeps s0 s) :
    Keeps s0 (State.cacheRead s fl st f data bad) := by
  unfold State.cacheRead
  try dsimp only
  (repeat' split) <;> simp (maxDischargeDepth := 100) +contextual [hK]

@[simp] theorem State.outBits_keeps (s : State) (e : Nat) (c : Nat) (b : Block) (s0 : State) (hK : Keeps s0 s) :
    Keeps s0 (State.outBits s e c b).2 := by
  unfold State.outBits
  try dsimp only
  (repeat' split) <;> simp (maxDischargeDepth := 100) +contextual [hK]

@[simp] theorem State.sendFar_keeps (s : State) (t : StreamRef) (st : Stream) (c : RoomCmd) (b : Block) (pa : Nat) (s0 : State) (hK : Keeps s0 s) :
    Keeps s0 (State.sendFar s t st c b pa).2 := by
  unfold State.sendFar
  simp (maxDischargeDepth := 100) +contextual [hK]

@[simp] theorem State.launch_keeps (s : State) (t : StreamRef) (st : Stream) (c : RoomCmd) (b : Block) (pa : Nat) (s0 : State) (hK : Keeps s0 s) :
    Keeps s0 (State.launch s t st c b pa) := by
  have hg : ∀ (q : State) (g : Stream → Stream), Keeps s0 q →
      Keeps s0 (if st.resumed then (q.updStream t g).flueTask 5 c else q.updStream t g) := by
    intro q g hq
    split <;> simp [hq]
  unfold State.launch
  dsimp only
  split
  · exact hg _ _ hK
  · split
    · exact hg _ _ (State.sendFar_keeps _ _ _ _ _ _ _ hK)
    · split
      · refine hg _ _ ?_
        simp [hK]
      · exact hg _ _ hK

@[simp] theorem State.issueBlock_keeps (s : State) (t : StreamRef) (st : Stream) (c : RoomCmd) (b : Block) (s0 : State) (hK : Keeps s0 s) :
    Keeps s0 (State.issueBlock s t st c b) := by
  unfold State.issueBlock
  try dsimp only
  (repeat' split) <;> simp (maxDischargeDepth := 100) +contextual [hK]

@[simp] theorem State.takeBlock_keeps (s : State) (t : StreamRef) (st : Stream) (f : InFlight) (data : List Byte) (bad : List Nat)
    (s0 : State) (hK : Keeps s0 s) :
    Keeps s0 (State.takeBlock s t st f data bad) := by
  unfold State.takeBlock
  try dsimp only
  (repeat' split) <;> simp (maxDischargeDepth := 100) +contextual [hK]

@[simp] theorem State.retire_keeps (s : State) (t : StreamRef) (k : Nat) (look : Bool) (s0 : State) (hK : Keeps s0 s) :
    Keeps s0 (State.retire s t k look) := by
  unfold State.retire
  simp (maxDischargeDepth := 100) +contextual [hK]

@[simp] theorem State.blockData_keeps (s : State) (f : InFlight) (s0 : State) (hK : Keeps s0 s) :
    Keeps s0 (State.blockData s f).2 := by
  unfold State.blockData
  try dsimp only
  (repeat' split) <;> simp (maxDischargeDepth := 100) +contextual [hK]

@[simp] theorem State.completeRead_keeps (s : State) (t : StreamRef) (st : Stream) (f : InFlight) (data : List Byte) (bad : List Nat)
    (s0 : State) (hK : Keeps s0 s) :
    Keeps s0 (State.completeRead s t st f data bad) := by
  unfold State.completeRead
  try dsimp only
  (repeat' split) <;> simp (maxDischargeDepth := 100) +contextual [hK]

@[simp] theorem State.completeWrite_keeps (s : State) (t : StreamRef) (st : Stream) (f : InFlight) (s0 : State) (hK : Keeps s0 s) :
    Keeps s0 (State.completeWrite s t st f) := by
  unfold State.completeWrite
  simp (maxDischargeDepth := 100) +contextual [hK]

@[simp] theorem State.freeTicketNum_keeps (s : State) (n : Nat) (s0 : State) (hK : Keeps s0 s) :
    Keeps s0 (State.freeTicketNum s n) := by
  unfold State.freeTicketNum
  try dsimp only
  (repeat' split) <;> simp (maxDischargeDepth := 100) +contextual [hK]

@[simp] theorem State.markPoison_keeps (s : State) (l : List Nat) (s0 : State) (hK : Keeps s0 s) :
    Keeps s0 (State.markPoison s l) := by
  unfold State.markPoison
  simp (maxDischargeDepth := 100) +contextual [hK]

@[simp] theorem State.wantSwitch_keeps (s : State) (e : Nat) (s0 : State) (hK : Keeps s0 s) :
    Keeps s0 (State.wantSwitch s e) := by
  unfold State.wantSwitch
  simp (maxDischargeDepth := 100) +contextual [hK]

@[simp] theorem State.saveTask_keeps (s : State) (e : Nat) (n : Nat) (s0 : State) (hK : Keeps s0 s) :
    Keeps s0 (State.saveTask s e n) := by
  unfold State.saveTask
  simp (maxDischargeDepth := 100) +contextual [hK]

@[simp] theorem State.flueSwitch_keeps (s : State) (ty : Nat) (e : Nat) (n : Nat) (s0 : State) (hK : Keeps s0 s) :
    Keeps s0 (State.flueSwitch s ty e n) := by
  unfold State.flueSwitch
  try dsimp only
  (repeat' split) <;> simp (maxDischargeDepth := 100) +contextual [hK]

@[simp] theorem State.switchTo_keeps (s : State) (e : Nat) (c : Nat) (s0 : State) (hK : Keeps s0 s) :
    Keeps s0 (State.switchTo s e c) := by
  unfold State.switchTo
  simp (maxDischargeDepth := 100) +contextual [hK]

/-! Bar -/

@[simp] theorem State.barWrite_keeps (s : State) (b : BarAcc) (l : List Byte) (s0 : State) (hK : Keeps s0 s) :
    Keeps s0 (State.barWrite s b l) := by
  unfold State.barWrite
  simp (maxDischargeDepth := 100) +contextual [hK]

@[simp] theorem State.barRead_keeps (s : State) (b : BarAcc) (s0 : State) (hK : Keeps s0 s) :
    Keeps s0 (State.barRead s b) := by
  unfold State.barRead
  simp (maxDischargeDepth := 100) +contextual [hK]

@[simp] theorem State.barDo_keeps (s : State) (b : BarAcc) (s0 : State) (hK : Keeps s0 s) :
    Keeps s0 (State.barDo s b) := by
  unfold State.barDo
  try dsimp only
  (repeat' split) <;> simp (maxDischargeDepth := 100) +contextual [hK]

@[simp] theorem State.barDrain_keeps (x0 : List BarAcc) (x1 : State) (s0 : State) (hK : Keeps s0 x1) :
    Keeps s0 (State.barDrain x0 x1) := by
  induction x0 generalizing x1 with
  | nil => simp [State.barDrain, hK]
  | cons a l ih =>
    unfold State.barDrain
    split
    · simp [hK]
    · exact ih _ (by simp [hK])

@[simp] theorem State.serveBar_keeps (s : State) (s0 : State) (hK : Keeps s0 s) :
    Keeps s0 (State.serveBar s) := by
  unfold State.serveBar
  simp (maxDischargeDepth := 100) +contextual [hK]

/-! Cores -/

@[simp] theorem State.setCore_keeps (s : State) (r : Nat) (c : CoreSt) (s0 : State) (hK : Keeps s0 s) :
    Keeps s0 (State.setCore s r c) := by
  unfold State.setCore
  simp (maxDischargeDepth := 100) +contextual [hK]

@[simp] theorem State.releaseSlot_keeps (s : State) (r : Nat) (s0 : State) (hK : Keeps s0 s) :
    Keeps s0 (State.releaseSlot s r) := by
  unfold State.releaseSlot
  try dsimp only
  (repeat' split) <;> simp (maxDischargeDepth := 100) +contextual [hK]

@[simp] theorem State.bindSlot_keeps (s : State) (r : Nat) (e : Nat) (n : Nat) (s0 : State) (hK : Keeps s0 s) :
    Keeps s0 (State.bindSlot s r e n) := by
  unfold State.bindSlot
  simp (maxDischargeDepth := 100) +contextual [hK]

@[simp] theorem State.doEsel_keeps (s : State) (r : Nat) (gc : Nat) (le : Nat) (s0 : State) (hK : Keeps s0 s) :
    Keeps s0 (State.doEsel s r gc le) := by
  unfold State.doEsel
  try dsimp only
  (repeat' split) <;> simp (maxDischargeDepth := 100) +contextual [hK]

@[simp] theorem State.release_keeps (s : State) (r : Nat) (a : HeldAct) (s0 : State) (hK : Keeps s0 s) :
    Keeps s0 (State.release s r a) := by
  unfold State.release
  try dsimp only
  (repeat' split) <;> simp (maxDischargeDepth := 100) +contextual [hK]

@[simp] theorem State.commitIns_keeps (s : State) (r : Nat) (a : Option HeldAct) (s0 : State) (hK : Keeps s0 s) :
    Keeps s0 (State.commitIns s r a) := by
  unfold State.commitIns
  try dsimp only
  (repeat' split) <;> simp (maxDischargeDepth := 100) +contextual [hK]

@[simp] theorem State.blurCore_keeps (s : State) (r : Nat) (s0 : State) (hK : Keeps s0 s) :
    Keeps s0 (State.blurCore s r) := by
  unfold State.blurCore
  try dsimp only
  (repeat' split) <;> simp (maxDischargeDepth := 100) +contextual [hK]

@[simp] theorem State.finish_keeps (s : State) (r : Pipe) (c : CoreSt) (s0 : State) (hK : Keeps s0 s) :
    Keeps s0 (State.finish s r c) := by
  unfold State.finish
  simp (maxDischargeDepth := 100) +contextual [hK]

@[simp] theorem State.startTload_keeps (s : State) (r : Nat) (e : Nat) (n : Nat) (t : Nat) (a : Nat) (commit : Option Bool)
    (s0 : State) (hK : Keeps s0 s) :
    Keeps s0 (State.startTload s r e n t a commit) := by
  unfold State.startTload
  simp (maxDischargeDepth := 100) +contextual [hK]

@[simp] theorem State.routineTag_keeps (s : State) (r : Nat) (s0 : State) (hK : Keeps s0 s) :
    Keeps s0 (State.routineTag s r).2 := by
  unfold State.routineTag
  try dsimp only
  (repeat' split) <;> simp (maxDischargeDepth := 100) +contextual [hK]

@[simp] theorem State.prefetchBlock_keeps (s : State) (r : Nat) (ctx : Nat) (va : Nat) (s0 : State) (hK : Keeps s0 s) :
    Keeps s0 (State.prefetchBlock s r ctx va) := by
  unfold State.prefetchBlock
  try dsimp only
  (repeat' split) <;> simp (maxDischargeDepth := 100) +contextual [hK]

@[simp] theorem State.prefetch_keeps (s : State) (r : Nat) (ctx : Nat) (va : Nat) (n : Nat) (s0 : State) (hK : Keeps s0 s) :
    Keeps s0 (State.prefetch s r ctx va n) := by
  unfold State.prefetch
  simp (maxDischargeDepth := 100) +contextual [hK]

@[simp] theorem State.squash1_keeps (s : State) (r : Nat) (y : Young) (s0 : State) (hK : Keeps s0 s) :
    Keeps s0 (State.squash1 s r y) := by
  unfold State.squash1
  try dsimp only
  (repeat' split) <;> simp (maxDischargeDepth := 100) +contextual [hK]

@[simp] theorem State.squash_keeps (s : State) (r : Nat) (l : List Young) (s0 : State) (hK : Keeps s0 s) :
    Keeps s0 (State.squash s r l) := by
  unfold State.squash
  simp (maxDischargeDepth := 100) +contextual [hK]

@[simp] theorem State.endService_keeps (s : State) (r : Nat) (s0 : State) (hK : Keeps s0 s) :
    Keeps s0 (State.endService s r) := by
  unfold State.endService
  simp (maxDischargeDepth := 100) +contextual [hK]

@[simp] theorem State.routineFault_keeps (s : State) (r : Nat) (i : FaultInfo) (s0 : State) (hK : Keeps s0 s) :
    Keeps s0 (State.routineFault s r i) := by
  unfold State.routineFault
  try dsimp only
  (repeat' split) <;> simp (maxDischargeDepth := 100) +contextual [hK]

@[simp] theorem State.coFault_keeps (s : State) (r : Pipe) (i : FaultInfo) (s0 : State) (hK : Keeps s0 s) :
    Keeps s0 (State.coFault s r i) := by
  unfold State.coFault
  try dsimp only
  (repeat' split) <;> simp (maxDischargeDepth := 100) +contextual [hK]

@[simp] theorem State.joinSpare_keeps (s : State) (r : Nat) (s0 : State) (hK : Keeps s0 s) :
    Keeps s0 (State.joinSpare s r) := by
  unfold State.joinSpare
  simp (maxDischargeDepth := 100) +contextual [hK]

@[simp] theorem State.g4Of_keeps (s : State) (ctx : Nat) (s0 : State) (hK : Keeps s0 s) :
    Keeps s0 (State.g4Of s ctx).2 := by
  unfold State.g4Of
  simp (maxDischargeDepth := 100) +contextual [hK]

@[simp] theorem State.startCall_keeps (s : State) (r : Nat) (c : RoomCmd) (entry : Nat) (s0 : State) (hK : Keeps s0 s) :
    Keeps s0 (State.startCall s r c entry) := by
  unfold State.startCall
  simp (maxDischargeDepth := 100) +contextual [hK]

@[simp] theorem State.saveRoutine_keeps (s : State) (r : Nat) (s0 : State) (hK : Keeps s0 s) :
    Keeps s0 (State.saveRoutine s r) := by
  unfold State.saveRoutine
  try dsimp only
  (repeat' split) <;> simp (maxDischargeDepth := 100) +contextual [hK]

@[simp] theorem State.jumpTo_keeps (s : State) (r : Pipe) (c : CoreSt) (s0 : State) (hK : Keeps s0 s) :
    Keeps s0 (State.jumpTo s r c) := by
  unfold State.jumpTo
  try dsimp only
  (repeat' split) <;> simp (maxDischargeDepth := 100) +contextual [hK]

/-! Lockstep -/

@[simp] theorem State.releaseOne_keeps (s : State) (r : Nat) (s0 : State) (hK : Keeps s0 s) :
    Keeps s0 (State.releaseOne s r) := by
  unfold State.releaseOne
  try dsimp only
  (repeat' split) <;> simp (maxDischargeDepth := 100) +contextual [hK]

@[simp] theorem State.releaseAll_keeps (s : State) (r : Nat) (s0 : State) (hK : Keeps s0 s) :
    Keeps s0 (State.releaseAll s r) := by
  unfold State.releaseAll
  simp (maxDischargeDepth := 100) +contextual [hK]

@[simp] theorem State.lockstepLoss_keeps (s : State) (r : Nat) (bits : Nat) (s0 : State) (hK : Keeps s0 s) :
    Keeps s0 (State.lockstepLoss s r bits) := by
  unfold State.lockstepLoss
  simp (maxDischargeDepth := 100) +contextual [hK]

@[simp] theorem State.startSwap_keeps (s : State) (r : Nat) (s0 : State) (hK : Keeps s0 s) :
    Keeps s0 (State.startSwap s r) := by
  unfold State.startSwap
  simp (maxDischargeDepth := 100) +contextual [hK]

@[simp] theorem State.spoilEngine_keeps (s : State) (e : Nat) (s0 : State) (hK : Keeps s0 s) :
    Keeps s0 (State.spoilEngine s e) := by
  unfold State.spoilEngine
  simp (maxDischargeDepth := 100) +contextual [hK]

@[simp] theorem State.spoilRoom_keeps (s : State) (r : Nat) (s0 : State) (hK : Keeps s0 s) :
    Keeps s0 (State.spoilRoom s r) := by
  unfold State.spoilRoom
  simp (maxDischargeDepth := 100) +contextual [hK]

@[simp] theorem State.flipBank_keeps (s : State) (r : Nat) (s0 : State) (hK : Keeps s0 s) :
    Keeps s0 (State.flipBank s r) := by
  unfold State.flipBank
  simp (maxDischargeDepth := 100) +contextual [hK]

/-! Wall -/

@[simp] theorem State.setWall_keeps (s : State) (f : WallSt → WallSt) (s0 : State) (hK : Keeps s0 s) :
    Keeps s0 (State.setWall s f) := by
  unfold State.setWall
  simp (maxDischargeDepth := 100) +contextual [hK]

@[simp] theorem State.wallStale_keeps (s : State) (cause : Nat) (s0 : State) (hK : Keeps s0 s) :
    Keeps s0 (State.wallStale s cause) := by
  unfold State.wallStale
  simp (maxDischargeDepth := 100) +contextual [hK]

@[simp] theorem State.wallDiscard_keeps (s : State) (s0 : State) (hK : Keeps s0 s) :
    Keeps s0 (State.wallDiscard s) := by
  unfold State.wallDiscard
  simp (maxDischargeDepth := 100) +contextual [hK]

@[simp] theorem State.wallBreach_keeps (s : State) (s0 : State) (hK : Keeps s0 s) :
    Keeps s0 (State.wallBreach s) := by
  unfold State.wallBreach
  simp (maxDischargeDepth := 100) +contextual [hK]

@[simp] theorem State.wallDown_keeps (s : State) (s0 : State) (hK : Keeps s0 s) :
    Keeps s0 (State.wallDown s) := by
  unfold State.wallDown
  simp (maxDischargeDepth := 100) +contextual [hK]

@[simp] theorem State.wallMirror_keeps (s : State) (v : W32) (s0 : State) (hK : Keeps s0 s) :
    Keeps s0 (State.wallMirror s v) := by
  unfold State.wallMirror
  simp (maxDischargeDepth := 100) +contextual [hK]

@[simp] theorem State.wallUp_keeps (s : State) (v : W32) (s0 : State) (hK : Keeps s0 s) :
    Keeps s0 (State.wallUp s v) := by
  unfold State.wallUp
  simp (maxDischargeDepth := 100) +contextual [hK]

@[simp] theorem State.wallLeave_keeps (s : State) (s0 : State) (hK : Keeps s0 s) :
    Keeps s0 (State.wallLeave s) := by
  unfold State.wallLeave
  simp (maxDischargeDepth := 100) +contextual [hK]

@[simp] theorem State.copyWindows_keeps (s : State) (s0 : State) (hK : Keeps s0 s) :
    Keeps s0 (State.copyWindows s) := by
  unfold State.copyWindows
  simp (maxDischargeDepth := 100) +contextual [hK]

@[simp] theorem State.wallClose_keeps (s : State) (s0 : State) (hK : Keeps s0 s) :
    Keeps s0 (State.wallClose s) := by
  unfold State.wallClose
  try dsimp only
  (repeat' split) <;> simp (maxDischargeDepth := 100) +contextual [hK]

@[simp] theorem State.wallResync_keeps (s : State) (s0 : State) (hK : Keeps s0 s) :
    Keeps s0 (State.wallResync s) := by
  unfold State.wallResync
  try dsimp only
  (repeat' split) <;> simp (maxDischargeDepth := 100) +contextual [hK]

@[simp] theorem State.wallTakeover_keeps (s : State) (s0 : State) (hK : Keeps s0 s) :
    Keeps s0 (State.wallTakeover s) := by
  unfold State.wallTakeover
  try dsimp only
  (repeat' split) <;> simp (maxDischargeDepth := 100) +contextual [hK]

@[simp] theorem State.pwCtrlWrite_keeps (s : State) (w : BusWr) (s0 : State) (hK : Keeps s0 s) :
    Keeps s0 (State.pwCtrlWrite s w) := by
  unfold State.pwCtrlWrite
  try dsimp only
  (repeat' split) <;> simp (maxDischargeDepth := 100) +contextual [hK]

@[simp] theorem State.joinResync_keeps (s : State) (e : Nat) (s0 : State) (hK : Keeps s0 s) :
    Keeps s0 (State.joinResync s e) := by
  unfold State.joinResync
  simp (maxDischargeDepth := 100) +contextual [hK]

@[simp] theorem State.epochData_keeps (s : State) (e : Nat) (a : Nat) (l : List Byte) (s0 : State) (hK : Keeps s0 s) :
    Keeps s0 (State.epochData s e a l) := by
  unfold State.epochData
  simp (maxDischargeDepth := 100) +contextual [hK]

@[simp] theorem State.applyEpoch_keeps (s : State) (e : Nat) (s0 : State) (hK : Keeps s0 s) :
    Keeps s0 (State.applyEpoch s e) := by
  unfold State.applyEpoch
  simp (maxDischargeDepth := 100) +contextual [hK]

@[simp] theorem State.epochEnd_keeps (s : State) (e : Nat) (n : Nat) (s0 : State) (hK : Keeps s0 s) :
    Keeps s0 (State.epochEnd s e n) := by
  unfold State.epochEnd
  simp (maxDischargeDepth := 100) +contextual [hK]

@[simp] theorem State.epochAck_keeps (s : State) (e : Nat) (s0 : State) (hK : Keeps s0 s) :
    Keeps s0 (State.epochAck s e) := by
  unfold State.epochAck
  simp (maxDischargeDepth := 100) +contextual [hK]

end Sys2Proof.Machine
end

