-- ==== Sys2Proof/Laws/KeepsLinks.lean ====
section
/-! SUPPORT. The ports, seal, boot, mortar, coprocessor, flits, host boundary, JTAG and Lorlink messages leave `Keeps` true. -/

set_option maxRecDepth 4000

namespace Sys2Proof.Machine

open State

/-! Ports -/

@[simp] theorem State.resend_keeps (s : State) (q : Nat) (s0 : State) (hK : Keeps s0 s) :
    Keeps s0 (State.resend s q) := by
  unfold State.resend
  simp (maxDischargeDepth := 100) +contextual [hK]

@[simp] theorem State.ringUp_keeps (s : State) (q : Nat) (s0 : State) (hK : Keeps s0 s) :
    Keeps s0 (State.ringUp s q) := by
  unfold State.ringUp
  try dsimp only
  (repeat' split) <;> simp (maxDischargeDepth := 100) +contextual [hK]

@[simp] theorem State.ringDown_keeps (s : State) (q : Nat) (s0 : State) (hK : Keeps s0 s) :
    Keeps s0 (State.ringDown s q) := by
  unfold State.ringDown
  try dsimp only
  (repeat' split) <;> simp (maxDischargeDepth := 100) +contextual [hK]

@[simp] theorem State.giveBack_keeps (s : State) (q : Nat) (vc : Nat) (n : Nat) (s0 : State) (hK : Keeps s0 s) :
    Keeps s0 (State.giveBack s q vc n) := by
  unfold State.giveBack
  simp (maxDischargeDepth := 100) +contextual [hK]

@[simp] theorem State.freeBufs_keeps (s : State) (m : Msg) (s0 : State) (hK : Keeps s0 s) :
    Keeps s0 (State.freeBufs s m) := by
  unfold State.freeBufs
  try dsimp only
  (repeat' split) <;> simp (maxDischargeDepth := 100) +contextual [hK]

@[simp] theorem State.dropOnward_keeps (s : State) (m : Msg) (s0 : State) (hK : Keeps s0 s) :
    Keeps s0 (State.dropOnward s m) := by
  unfold State.dropOnward
  try dsimp only
  (repeat' split) <;> simp (maxDischargeDepth := 100) +contextual [hK]

@[simp] theorem State.dropWaiting_keeps (s : State) (q : Nat) (s0 : State) (hK : Keeps s0 s) :
    Keeps s0 (State.dropWaiting s q) := by
  unfold State.dropWaiting
  try dsimp only
  (repeat' split) <;> simp (maxDischargeDepth := 100) +contextual [hK]

@[simp] theorem State.portTo_keeps (s : State) (q : Nat) (st : Nat) (s0 : State) (hK : Keeps s0 s) :
    Keeps s0 (State.portTo s q st) := by
  unfold State.portTo
  simp (maxDischargeDepth := 100) +contextual [hK]

@[simp] theorem State.portErr_keeps (s : State) (q : Nat) (st : Nat) (err : Nat) (s0 : State) (hK : Keeps s0 s) :
    Keeps s0 (State.portErr s q st err) := by
  unfold State.portErr
  simp (maxDischargeDepth := 100) +contextual [hK]

@[simp] theorem State.retrain_keeps (s : State) (q : Nat) (lane : Option Nat) (s0 : State) (hK : Keeps s0 s) :
    Keeps s0 (State.retrain s q lane) := by
  unfold State.retrain
  simp (maxDischargeDepth := 100) +contextual [hK]

@[simp] theorem State.ringOut_keeps (s : State) (g : Nat) (s0 : State) (hK : Keeps s0 s) :
    Keeps s0 (State.ringOut s g) := by
  unfold State.ringOut
  simp (maxDischargeDepth := 100) +contextual [hK]

@[simp] theorem State.ringJoin_keeps (s : State) (g : Nat) (s0 : State) (hK : Keeps s0 s) :
    Keeps s0 (State.ringJoin s g) := by
  unfold State.ringJoin
  simp (maxDischargeDepth := 100) +contextual [hK]

@[simp] theorem State.writeJoin_keeps (s : State) (g : Nat) (on : Bool) (s0 : State) (hK : Keeps s0 s) :
    Keeps s0 (State.writeJoin s g on) := by
  unfold State.writeJoin
  simp (maxDischargeDepth := 100) +contextual [hK]

@[simp] theorem State.enterLive_keeps (s : State) (q : Nat) (i : TrainInfo) (s0 : State) (hK : Keeps s0 s) :
    Keeps s0 (State.enterLive s q i) := by
  unfold State.enterLive
  simp (maxDischargeDepth := 100) +contextual [hK]

@[simp] theorem State.stageExit_keeps (s : State) (q : Nat) (i : TrainInfo) (s0 : State) (hK : Keeps s0 s) :
    Keeps s0 (State.stageExit s q i) := by
  unfold State.stageExit
  try dsimp only
  (repeat' split) <;> simp (maxDischargeDepth := 100) +contextual [hK]

@[simp] theorem State.setEnable_keeps (s : State) (q : Nat) (on : Bool) (s0 : State) (hK : Keeps s0 s) :
    Keeps s0 (State.setEnable s q on) := by
  unfold State.setEnable
  simp (maxDischargeDepth := 100) +contextual [hK]

/-! Capacity -/

@[simp] theorem State.setMapping_keeps (s : State) (off : Nat) (m : List Nat) (s0 : State) (hK : Keeps s0 s) :
    Keeps s0 (State.setMapping s off m) := by
  unfold State.setMapping
  simp (maxDischargeDepth := 100) +contextual [hK]

@[simp] theorem State.remap_keeps (s : State) (off : Nat) (v : Nat) (s0 : State) (hK : Keeps s0 s) :
    Keeps s0 (State.remap s off v) := by
  unfold State.remap
  simp (maxDischargeDepth := 100) +contextual [hK]

@[simp] theorem State.fenceRequest_keeps (s : State) (t : RemapReg) (v : Nat) (s0 : State) (hK : Keeps s0 s) :
    Keeps s0 (State.fenceRequest s t v) := by
  unfold State.fenceRequest
  simp (maxDischargeDepth := 100) +contextual [hK]

@[simp] theorem State.loseLine_keeps (s : State) (f : Nat) (a : Nat) (s0 : State) (hK : Keeps s0 s) :
    Keeps s0 (State.loseLine s f a) := by
  unfold State.loseLine
  try dsimp only
  (repeat' split) <;> simp (maxDischargeDepth := 100) +contextual [hK]

/-! Seal -/

@[simp] theorem State.sweepEnd_keeps (s : State) (crc : W32) (s0 : State) (hK : Keeps s0 s) :
    Keeps s0 (State.sweepEnd s crc) := by
  unfold State.sweepEnd
  simp (maxDischargeDepth := 100) +contextual [hK]

@[simp] theorem State.startCommit_keeps (s : State) (s0 : State) (hK : Keeps s0 s) :
    Keeps s0 (State.startCommit s) := by
  unfold State.startCommit
  simp (maxDischargeDepth := 100) +contextual [hK]

@[simp] theorem State.endCommit_keeps (s : State) (s0 : State) (hK : Keeps s0 s) :
    Keeps s0 (State.endCommit s) := by
  unfold State.endCommit
  try dsimp only
  (repeat' split) <;> simp (maxDischargeDepth := 100) +contextual [hK]

@[simp] theorem State.keystoneRequest_keeps (s : State) (s0 : State) (hK : Keeps s0 s) :
    Keeps s0 (State.keystoneRequest s) := by
  unfold State.keystoneRequest
  simp (maxDischargeDepth := 100) +contextual [hK]

/-! Boot -/

@[simp] theorem State.sramFence_keeps (s : State) (x : SramFail) (s0 : State) (hK : Keeps s0 s) :
    Keeps s0 (State.sramFence s x) := by
  unfold State.sramFence
  try dsimp only
  (repeat' split) <;> simp (maxDischargeDepth := 100) +contextual [hK]

@[simp] theorem State.recovery_keeps (s : State) (err : Nat) (s0 : State) (hK : Keeps s0 s) :
    Keeps s0 (State.recovery s err) := by
  unfold State.recovery
  simp (maxDischargeDepth := 100) +contextual [hK]

@[simp] theorem State.sramTest_keeps (s : State) (l : List SramFail) (s0 : State) (hK : Keeps s0 s) :
    Keeps s0 (State.sramTest s l) := by
  unfold State.sramTest
  simp (maxDischargeDepth := 100) +contextual [hK]

@[simp] theorem State.loadImage_keeps (s : State) (r : Nat) (s0 : State) (hK : Keeps s0 s) :
    Keeps s0 (State.loadImage s r) := by
  unfold State.loadImage
  simp (maxDischargeDepth := 100) +contextual [hK]

@[simp] theorem State.loadImages_keeps (s : State) (s0 : State) (hK : Keeps s0 s) :
    Keeps s0 (State.loadImages s) := by
  unfold State.loadImages
  simp (maxDischargeDepth := 100) +contextual [hK]

@[simp] theorem State.repairRemap_keeps (s : State) (p : RemapReg × W32) (s0 : State) (hK : Keeps s0 s) :
    Keeps s0 (State.repairRemap s p) := by
  unfold State.repairRemap
  try dsimp only
  (repeat' split) <;> simp (maxDischargeDepth := 100) +contextual [hK]

@[simp] theorem State.gateSpares_keeps (s : State) (s0 : State) (hK : Keeps s0 s) :
    Keeps s0 (State.gateSpares s) := by
  unfold State.gateSpares
  simp (maxDischargeDepth := 100) +contextual [hK]

@[simp] theorem State.repairAll_keeps (s : State) (env : StartEnv) (s0 : State) (hK : Keeps s0 s) :
    Keeps s0 (State.repairAll s env) := by
  unfold State.repairAll
  simp (maxDischargeDepth := 100) +contextual [hK]

@[simp] theorem State.writeKeys_keeps (s : State) (l : List (Nat × Nat)) (s0 : State) (hK : Keeps s0 s) :
    Keeps s0 (State.writeKeys s l) := by
  unfold State.writeKeys
  simp (maxDischargeDepth := 100) +contextual [hK]

@[simp] theorem State.cellarUp_keeps (s : State) (p : Nat) (x : CxlFound) (s0 : State) (hK : Keeps s0 s) :
    Keeps s0 (State.cellarUp s p x) := by
  unfold State.cellarUp
  try dsimp only
  (repeat' split) <;> simp (maxDischargeDepth := 100) +contextual [hK]

@[simp] theorem State.phyUp_keeps (s : State) (s0 : State) (hK : Keeps s0 s) :
    Keeps s0 (State.phyUp s) := by
  unfold State.phyUp
  simp (maxDischargeDepth := 100) +contextual [hK]

@[simp] theorem State.startUp_keeps (s : State) (env : StartEnv) (s0 : State) (hK : Keeps s0 s) :
    Keeps s0 (State.startUp s env) := by
  unfold State.startUp
  simp (maxDischargeDepth := 100) +contextual [hK]

@[simp] theorem State.keystoneStage_keeps (s : State) (c : Nat) (env : StartEnv) (s0 : State) (hK : Keeps s0 s) :
    Keeps s0 (State.keystoneStage s c env) := by
  unfold State.keystoneStage
  try dsimp only
  (repeat' split) <;> simp (maxDischargeDepth := 100) +contextual [hK]

@[simp] theorem State.repairStage_keeps (s : State) (c : Nat) (env : StartEnv) (s0 : State) (hK : Keeps s0 s) :
    Keeps s0 (State.repairStage s c env) := by
  unfold State.repairStage
  try dsimp only
  (repeat' split) <;> simp (maxDischargeDepth := 100) +contextual [hK]

@[simp] theorem State.romStage_keeps (s : State) (env : StartEnv) (s0 : State) (hK : Keeps s0 s) :
    Keeps s0 (State.romStage s env) := by
  unfold State.romStage
  try dsimp only
  (repeat' split) <;> simp (maxDischargeDepth := 100) +contextual [hK]

@[simp] theorem State.loadFlash_keeps (s : State) (env : StartEnv) (s0 : State) (hK : Keeps s0 s) :
    Keeps s0 (State.loadFlash s env) := by
  refine ⟨hK.queue, fun m => ⟨(hK.canon m).1, ?_⟩, hK.drawn, hK.sent⟩
  simp only [State.loadFlash, State.flashAt]
  split
  · exact Mem.wf_writeList _ _ _ rfl
  · exact (hK.canon m).2

@[simp] theorem State.coldStart_keeps (s : State) (env : StartEnv) (s0 : State) (hK : Keeps s0 s) :
    Keeps s0 (State.coldStart s env) := by
  unfold State.coldStart
  simp (maxDischargeDepth := 100) +contextual [hK]

/-! Mortar -/

@[simp] theorem State.setMerge_keeps (s : State) (k : Nat) (m : Option Merge) (s0 : State) (hK : Keeps s0 s) :
    Keeps s0 (State.setMerge s k m) := by
  unfold State.setMerge
  simp (maxDischargeDepth := 100) +contextual [hK]

@[simp] theorem State.closeMerge_keeps (s : State) (k : Nat) (s0 : State) (hK : Keeps s0 s) :
    Keeps s0 (State.closeMerge s k) := by
  unfold State.closeMerge
  simp (maxDischargeDepth := 100) +contextual [hK]

@[simp] theorem State.writeVaPages_keeps (s : State) (r : Nat) (ctx : Nat) (va : Nat) (l : List Byte) (s0 : State) (hK : Keeps s0 s) :
    Keeps s0 (State.writeVaPages s r ctx va l) := by
  unfold State.writeVaPages
  simp (maxDischargeDepth := 100) +contextual [hK]

@[simp] theorem State.mergeBias_keeps (s : State) (m : Merge) (c0 : Nat) (s0 : State) (hK : Keeps s0 s) :
    Keeps s0 (State.mergeBias s m c0).2 := by
  unfold State.mergeBias
  simp (maxDischargeDepth := 100) +contextual [hK]

@[simp] theorem State.putRow_keeps (s : State) (r : Nat) (ctx : Nat) (b : BitVec 512) (row : Nat) (slab : Nat) (enc : List Nat) (sc : List Nat)
    (s0 : State) (hK : Keeps s0 s) :
    Keeps s0 (State.putRow s r ctx b row slab enc sc) := by
  unfold State.putRow
  simp (maxDischargeDepth := 100) +contextual [hK]

@[simp] theorem State.freeRow_keeps (s : State) (r : Nat) (ctx : Nat) (b : BitVec 512) (row : Nat) (slab : Nat) (s0 : State) (hK : Keeps s0 s) :
    Keeps s0 (State.freeRow s r ctx b row slab) := by
  unfold State.freeRow
  try dsimp only
  (repeat' split) <;> simp (maxDischargeDepth := 100) +contextual [hK]

@[simp] theorem State.freeRows_keeps (s : State) (r : Nat) (ctx : Nat) (b : BitVec 512) (done : List (Nat × Nat)) (s0 : State) (hK : Keeps s0 s) :
    Keeps s0 (State.freeRows s r ctx b done) := by
  unfold State.freeRows
  try dsimp only
  (repeat' split) <;> simp (maxDischargeDepth := 100) +contextual [hK]

@[simp] theorem State.spoilOut_keeps (s : State) (r : Nat) (ctx : Nat) (b : BitVec 512) (s0 : State) (hK : Keeps s0 s) :
    Keeps s0 (State.spoilOut s r ctx b) := by
  unfold State.spoilOut
  try dsimp only
  (repeat' split) <;> simp (maxDischargeDepth := 100) +contextual [hK]

@[simp] theorem State.spoilRows_keeps (s : State) (m : Merge) (s0 : State) (hK : Keeps s0 s) :
    Keeps s0 (State.spoilRows s m) := by
  unfold State.spoilRows
  simp (maxDischargeDepth := 100) +contextual [hK]

@[simp] theorem State.writeMergeRow_keeps (s : State) (m : Merge) (t : Nat) (slab : Nat) (v : Nat → Num) (s0 : State) (hK : Keeps s0 s) :
    Keeps s0 (State.writeMergeRow s m t slab v) := by
  unfold State.writeMergeRow
  simp (maxDischargeDepth := 100) +contextual [hK]

@[simp] theorem State.writeZeroRows_keeps (s : State) (m : Merge) (s0 : State) (hK : Keeps s0 s) :
    Keeps s0 (State.writeZeroRows s m) := by
  unfold State.writeZeroRows
  simp (maxDischargeDepth := 100) +contextual [hK]

@[simp] theorem State.mergeEnd_keeps (s : State) (k : Nat) (s0 : State) (hK : Keeps s0 s) :
    Keeps s0 (State.mergeEnd s k) := by
  unfold State.mergeEnd
  try dsimp only
  (repeat' split) <;> simp (maxDischargeDepth := 100) +contextual [hK]

@[simp] theorem State.mergeFault_keeps (s : State) (k : Nat) (cause : Nat) (s0 : State) (hK : Keeps s0 s) :
    Keeps s0 (State.mergeFault s k cause) := by
  unfold State.mergeFault
  try dsimp only
  (repeat' split) <;> simp (maxDischargeDepth := 100) +contextual [hK]

@[simp] theorem State.setFloorTab_keeps (s : State) (f : Nat) (l : List MergeRec) (out : List MergeRec) (s0 : State) (hK : Keeps s0 s) :
    Keeps s0 (State.setFloorTab s f l out) := by
  unfold State.setFloorTab
  simp (maxDischargeDepth := 100) +contextual [hK]

@[simp] theorem State.setDieTab_keeps (s : State) (d : Nat) (l : List MergeRec) (out : List MergeRec) (s0 : State) (hK : Keeps s0 s) :
    Keeps s0 (State.setDieTab s d l out) := by
  unfold State.setDieTab
  simp (maxDischargeDepth := 100) +contextual [hK]

@[simp] theorem State.slotDrained_keeps (s : State) (e : Nat) (slot : Nat) (s0 : State) (hK : Keeps s0 s) :
    Keeps s0 (State.slotDrained s e slot) := by
  unfold State.slotDrained
  try dsimp only
  (repeat' split) <;> simp (maxDischargeDepth := 100) +contextual [hK]

@[simp] theorem State.ringStage_keeps (s : State) (m : Merge) (e : MergeRec) (s0 : State) (hK : Keeps s0 s) :
    Keeps s0 (State.ringStage s m e) := by
  unfold State.ringStage
  simp (maxDischargeDepth := 100) +contextual [hK]

@[simp] theorem State.areaWrite_keeps (s : State) (m : Merge) (k : MergeKey) (s0 : State) (hK : Keeps s0 s) :
    Keeps s0 (State.areaWrite s m k) := by
  unfold State.areaWrite
  try dsimp only
  (repeat' split) <;> simp (maxDischargeDepth := 100) +contextual [hK]

@[simp] theorem State.areaStage_keeps (s : State) (m : Merge) (e : MergeRec) (s0 : State) (hK : Keeps s0 s) :
    Keeps s0 (State.areaStage s m e) := by
  unfold State.areaStage
  simp (maxDischargeDepth := 100) +contextual [hK]

@[simp] theorem State.senderUndef_keeps (s : State) (ctx : Nat) (s0 : State) (hK : Keeps s0 s) :
    Keeps s0 (State.senderUndef s ctx) := by
  unfold State.senderUndef
  refine keeps_foldl _ _ _ hK fun t a ht => ?_
  (repeat' split) <;> simp (maxDischargeDepth := 100) +contextual [ht]

/-! Coproc -/

@[simp] theorem State.finishAct_keeps (s : State) (r : Pipe) (c : CoreSt) (a : HeldAct) (s0 : State) (hK : Keeps s0 s) :
    Keeps s0 (State.finishAct s r c a) := by
  unfold State.finishAct
  simp (maxDischargeDepth := 100) +contextual [hK]

@[simp] theorem State.issueFault_keeps (s : State) (r : Nat) (i : IssueRead) (s0 : State) (hK : Keeps s0 s) :
    Keeps s0 (State.issueFault s r i) := by
  unfold State.issueFault
  simp (maxDischargeDepth := 100) +contextual [hK]

@[simp] theorem State.enterIssued_keeps (s : State) (r : Nat) (i : IssueRead) (d : BitVec 2048) (s0 : State) (hK : Keeps s0 s) :
    Keeps s0 (State.enterIssued s r i d) := by
  unfold State.enterIssued
  simp (maxDischargeDepth := 100) +contextual [hK]

/-! Flits -/

@[simp] theorem State.sendFlit_keeps (s : State) (q : Nat) (vc : Nat) (cseq : Nat) (j : Nat) (pay : List Byte) (s0 : State) (hK : Keeps s0 s) :
    Keeps s0 (State.sendFlit s q vc cseq j pay) := by
  unfold State.sendFlit
  simp (maxDischargeDepth := 100) +contextual [hK]

@[simp] theorem State.sendFlits_keeps (q : Nat) (x0 : Nat) (x1 : Msg) (x2 : State) (s0 : State) (hK : Keeps s0 x2) :
    Keeps s0 (State.sendFlits q x0 x1 x2).2 := by
  induction x0 generalizing x1 x2 with
  | zero => exact hK
  | succ n ih =>
    unfold State.sendFlits
    dsimp only
    split
    · exact ih _ _ (by simp [hK])
    · exact hK

@[simp] theorem State.pumpList_keeps (q : Nat) (x0 : List Msg) (x1 : List Nat) (x2 : State) (s0 : State) (hK : Keeps s0 x2) :
    Keeps s0 (State.pumpList q x0 x1 x2).2 := by
  induction x0 generalizing x1 x2 with
  | nil => exact hK
  | cons m l ih =>
    have hc : Keeps s0 (State.sendFlits q (x2.coursed q m).ready (x2.coursed q m) x2).2 := by simp [hK]
    unfold State.pumpList
    dsimp only
    split
    · exact ih _ _ hK
    · split
      · exact ih _ _ (by simp [hc])
      · exact ih _ _ hc

@[simp] theorem State.pump_keeps (s : State) (q : Nat) (s0 : State) (hK : Keeps s0 s) :
    Keeps s0 (State.pump s q) := by
  unfold State.pump
  simp (maxDischargeDepth := 100) +contextual [hK]

@[simp] theorem State.enqueue_keeps (s : State) (q : Nat) (m : Msg) (s0 : State) (hK : Keeps s0 s) :
    Keeps s0 (State.enqueue s q m) := by
  unfold State.enqueue
  simp (maxDischargeDepth := 100) +contextual [hK]

@[simp] theorem State.msgRoute_keeps (s : State) (m : Msg) (s0 : State) (hK : Keeps s0 s) :
    Keeps s0 (State.msgRoute s m).2 := by
  unfold State.msgRoute
  try dsimp only
  (repeat' split) <;> simp (maxDischargeDepth := 100) +contextual [hK]

@[simp] theorem State.routeMsg_keeps (s : State) (m : Msg) (s0 : State) (hK : Keeps s0 s) :
    Keeps s0 (State.routeMsg s m) := by
  unfold State.routeMsg
  try dsimp only
  (repeat' split) <;> simp (maxDischargeDepth := 100) +contextual [hK]

@[simp] theorem State.pumpAll_keeps (s : State) (s0 : State) (hK : Keeps s0 s) :
    Keeps s0 (State.pumpAll s) := by
  unfold State.pumpAll
  simp (maxDischargeDepth := 100) +contextual [hK]

@[simp] theorem State.sendNak_keeps (s : State) (q : Nat) (s0 : State) (hK : Keeps s0 s) :
    Keeps s0 (State.sendNak s q) := by
  unfold State.sendNak
  simp (maxDischargeDepth := 100) +contextual [hK]

@[simp] theorem State.badFlit_keeps (s : State) (q : Nat) (s0 : State) (hK : Keeps s0 s) :
    Keeps s0 (State.badFlit s q) := by
  unfold State.badFlit
  simp (maxDischargeDepth := 100) +contextual [hK]

@[simp] theorem State.fecCount_keeps (s : State) (q : Nat) (lanes : List (Fin 18)) (s0 : State) (hK : Keeps s0 s) :
    Keeps s0 (State.fecCount s q lanes) := by
  unfold State.fecCount
  try dsimp only
  (repeat' split) <;> simp (maxDischargeDepth := 100) +contextual [hK]

@[simp] theorem State.forward_keeps (s : State) (q : Nat) (m : Msg) (s0 : State) (hK : Keeps s0 s) :
    Keeps s0 (State.forward s q m) := by
  unfold State.forward
  simp (maxDischargeDepth := 100) +contextual [hK]

@[simp] theorem State.arrive_keeps (s : State) (q : Nat) (m : Msg) (s0 : State) (hK : Keeps s0 s) :
    Keeps s0 (State.arrive s q m) := by
  unfold State.arrive
  simp (maxDischargeDepth := 100) +contextual [hK]

@[simp] theorem State.beginPart_keeps (s : State) (q : Nat) (vc : Nat) (x : Partial) (s0 : State) (hK : Keeps s0 s) :
    Keeps s0 (State.beginPart s q vc x) := by
  unfold State.beginPart
  try dsimp only
  (repeat' split) <;> simp (maxDischargeDepth := 100) +contextual [hK]

@[simp] theorem State.takeMsgs_keeps (s : State) (q : Nat) (vc : Nat) (msgs : List Msg) (part : Option Partial) (s0 : State) (hK : Keeps s0 s) :
    Keeps s0 (State.takeMsgs s q vc msgs part) := by
  unfold State.takeMsgs
  dsimp only
  split
  · simp (maxDischargeDepth := 100) +contextual [hK]
  · split <;> simp (maxDischargeDepth := 100) +contextual [hK]

@[simp] theorem State.feed_keeps (s : State) (q : Nat) (vc : Nat) (bufs : Nat) (l : List Byte) (s0 : State) (hK : Keeps s0 s) :
    Keeps s0 (State.feed s q vc bufs l) := by
  unfold State.feed
  try dsimp only
  (repeat' split) <;> simp (maxDischargeDepth := 100) +contextual [hK]

@[simp] theorem State.continuePart_keeps (s : State) (q : Nat) (vc : Nat) (x : Partial) (pay : List Byte) (s0 : State) (hK : Keeps s0 s) :
    Keeps s0 (State.continuePart s q vc x pay) := by
  unfold State.continuePart
  try dsimp only
  (repeat' split) <;> simp (maxDischargeDepth := 100) +contextual [hK]

@[simp] theorem State.endOnward_keeps (s : State) (q : Nat) (vc : Nat) (x : Partial) (s0 : State) (hK : Keeps s0 s) :
    Keeps s0 (State.endOnward s q vc x) := by
  unfold State.endOnward
  try dsimp only
  (repeat' split) <;> simp (maxDischargeDepth := 100) +contextual [hK]

@[simp] theorem State.cutShort_keeps (s : State) (q : Nat) (vc : Nat) (x : Partial) (s0 : State) (hK : Keeps s0 s) :
    Keeps s0 (State.cutShort s q vc x) := by
  unfold State.cutShort
  try dsimp only
  (repeat' split) <;> simp (maxDischargeDepth := 100) +contextual [hK]

@[simp] theorem State.takePayload_keeps (s : State) (q : Nat) (vc : Nat) (cseq : Nat) (cont : Bool) (pay : List Byte) (s0 : State) (hK : Keeps s0 s) :
    Keeps s0 (State.takePayload s q vc cseq cont pay) := by
  unfold State.takePayload
  try dsimp only
  (repeat' split) <;> simp (maxDischargeDepth := 100) +contextual [hK]

@[simp] theorem State.dataFlit_keeps (s : State) (q : Nat) (f : Flit) (s0 : State) (hK : Keeps s0 s) :
    Keeps s0 (State.dataFlit s q f) := by
  unfold State.dataFlit
  simp (maxDischargeDepth := 100) +contextual [hK]

@[simp] theorem State.takeNak_keeps (s : State) (q : Nat) (h : W64) (s0 : State) (hK : Keeps s0 s) :
    Keeps s0 (State.takeNak s q h) := by
  unfold State.takeNak
  simp (maxDischargeDepth := 100) +contextual [hK]

@[simp] theorem State.abandon_keeps (s : State) (q : Nat) (vc : Nat) (x : Partial) (s0 : State) (hK : Keeps s0 s) :
    Keeps s0 (State.abandon s q vc x) := by
  unfold State.abandon
  try dsimp only
  (repeat' split) <;> simp (maxDischargeDepth := 100) +contextual [hK]

@[simp] theorem State.endPartial_keeps (s : State) (q : Nat) (vc : Nat) (x : Partial) (s0 : State) (hK : Keeps s0 s) :
    Keeps s0 (State.endPartial s q vc x) := by
  unfold State.endPartial
  simp (maxDischargeDepth := 100) +contextual [hK]

@[simp] theorem State.takeAbort_keeps (s : State) (q : Nat) (h : W64) (s0 : State) (hK : Keeps s0 s) :
    Keeps s0 (State.takeAbort s q h) := by
  unfold State.takeAbort
  try dsimp only
  (repeat' split) <;> simp (maxDischargeDepth := 100) +contextual [hK]

@[simp] theorem State.goodFlit_keeps (s : State) (q : Nat) (f : Flit) (s0 : State) (hK : Keeps s0 s) :
    Keeps s0 (State.goodFlit s q f) := by
  unfold State.goodFlit
  try dsimp only
  (repeat' split) <;> simp (maxDischargeDepth := 100) +contextual [hK]

@[simp] theorem State.carried_keeps (s : State) (f : Flit) (s0 : State) (hK : Keeps s0 s) :
    Keeps s0 (State.carried s f).2 := by
  unfold State.carried
  try dsimp only
  (repeat' split) <;> simp (maxDischargeDepth := 100) +contextual [hK]

@[simp] theorem State.flitIn_keeps (s : State) (q : Nat) (f : Flit) (s0 : State) (hK : Keeps s0 s) :
    Keeps s0 (State.flitIn s q f) := by
  unfold State.flitIn
  try dsimp only
  (repeat' split) <;> simp (maxDischargeDepth := 100) +contextual [hK]

@[simp] theorem State.flushed_keeps (s : State) (m : Msg) (s0 : State) (hK : Keeps s0 s) :
    Keeps s0 (State.flushed s m) := by
  unfold State.flushed
  try dsimp only
  (repeat' split) <;> simp (maxDischargeDepth := 100) +contextual [hK]

/-! Host -/

@[simp] theorem State.spoilMerge_keeps (s : State) (r : Nat) (c : RoomCmd) (s0 : State) (hK : Keeps s0 s) :
    Keeps s0 (State.spoilMerge s r c) := by
  unfold State.spoilMerge
  try dsimp only
  (repeat' split) <;> simp (maxDischargeDepth := 100) +contextual [hK]

@[simp] theorem State.spoilCmd_keeps (s : State) (r : Nat) (c : RoomCmd) (s0 : State) (hK : Keeps s0 s) :
    Keeps s0 (State.spoilCmd s r c) := by
  unfold State.spoilCmd
  try dsimp only
  (repeat' split) <;> simp (maxDischargeDepth := 100) +contextual [hK]

@[simp] theorem State.grantTickets_keeps (s : State) (s0 : State) (hK : Keeps s0 s) :
    Keeps s0 (State.grantTickets s) := by
  unfold State.grantTickets
  try dsimp only
  refine keeps_foldl _ _ _ (by simp (maxDischargeDepth := 100) +contextual [hK]) ?_
  intro t a ht
  (repeat' split) <;> simp (maxDischargeDepth := 100) +contextual [ht]

@[simp] theorem State.dropTickets_keeps (s : State) (c : Nat) (s0 : State) (hK : Keeps s0 s) :
    Keeps s0 (State.dropTickets s c) := by
  unfold State.dropTickets
  simp (maxDischargeDepth := 100) +contextual [hK]

@[simp] theorem State.haltStreams_keeps (s : State) (c : Nat) (s0 : State) (hK : Keeps s0 s) :
    Keeps s0 (State.haltStreams s c) := by
  unfold State.haltStreams
  simp (maxDischargeDepth := 100) +contextual [hK]

@[simp] theorem State.endCall_keeps (s : State) (r : Nat) (c : RoomCmd) (s0 : State) (hK : Keeps s0 s) :
    Keeps s0 (State.endCall s r c) := by
  unfold State.endCall
  simp (maxDischargeDepth := 100) +contextual [hK]

@[simp] theorem State.endRoom_keeps (s : State) (r : Nat) (c : Nat) (s0 : State) (hK : Keeps s0 s) :
    Keeps s0 (State.endRoom s r c) := by
  unfold State.endRoom
  simp (maxDischargeDepth := 100) +contextual [hK]

@[simp] theorem State.freeAccs_keeps (s : State) (c : Nat) (s0 : State) (hK : Keeps s0 s) :
    Keeps s0 (State.freeAccs s c) := by
  unfold State.freeAccs
  simp (maxDischargeDepth := 100) +contextual [hK]

@[simp] theorem State.freeMerges_keeps (s : State) (c : Nat) (s0 : State) (hK : Keeps s0 s) :
    Keeps s0 (State.freeMerges s c) := by
  unfold State.freeMerges
  try dsimp only
  refine keeps_foldl _ _ _ (by simp (maxDischargeDepth := 100) +contextual [hK]) ?_
  intro t a ht
  (repeat' split) <;> simp (maxDischargeDepth := 100) +contextual [ht]

@[simp] theorem State.haltContext_keeps (s : State) (c : Nat) (s0 : State) (hK : Keeps s0 s) :
    Keeps s0 (State.haltContext s c) := by
  unfold State.haltContext
  simp (maxDischargeDepth := 100) +contextual [hK]

@[simp] theorem State.endHeld_keeps (s : State) (c : Nat) (s0 : State) (hK : Keeps s0 s) :
    Keeps s0 (State.endHeld s c) := by
  unfold State.endHeld
  try dsimp only
  (repeat' split) <;> simp (maxDischargeDepth := 100) +contextual [hK]

@[simp] theorem State.clearContext_keeps (s : State) (c : Nat) (s0 : State) (hK : Keeps s0 s) :
    Keeps s0 (State.clearContext s c) := by
  unfold State.clearContext
  simp (maxDischargeDepth := 100) +contextual [hK]

@[simp] theorem State.ctxResult_keeps (s : State) (r : Nat) (s0 : State) (hK : Keeps s0 s) :
    Keeps s0 (State.ctxResult s r) := by
  unfold State.ctxResult
  simp (maxDischargeDepth := 100) +contextual [hK]

@[simp] theorem State.startCtxOp_keeps (s : State) (c : CtxId) (op : CtxOp) (s0 : State) (hK : Keeps s0 s) :
    Keeps s0 (State.startCtxOp s c op) := by
  unfold State.startCtxOp
  simp (maxDischargeDepth := 100) +contextual [hK]

@[simp] theorem State.ctxCmd_keeps (s : State) (w : BusWr) (s0 : State) (hK : Keeps s0 s) :
    Keeps s0 (State.ctxCmd s w) := by
  unfold State.ctxCmd
  simp (maxDischargeDepth := 100) +contextual [hK]

@[simp] theorem State.finishFlr_keeps (s : State) (s0 : State) (hK : Keeps s0 s) :
    Keeps s0 (State.finishFlr s) := by
  unfold State.finishFlr
  simp (maxDischargeDepth := 100) +contextual [hK]

@[simp] theorem State.resetVfCfg_keeps (s : State) (v : Nat) (s0 : State) (hK : Keeps s0 s) :
    Keeps s0 (State.resetVfCfg s v) := by
  unfold State.resetVfCfg
  simp (maxDischargeDepth := 100) +contextual [hK]

@[simp] theorem State.resetPfCfg_keeps (s : State) (s0 : State) (hK : Keeps s0 s) :
    Keeps s0 (State.resetPfCfg s) := by
  unfold State.resetPfCfg
  simp (maxDischargeDepth := 100) +contextual [hK]

@[simp] theorem State.flr_keeps (s : State) (f : Func) (s0 : State) (hK : Keeps s0 s) :
    Keeps s0 (State.flr s f) := by
  unfold State.flr
  try dsimp only
  (repeat' split) <;> simp (maxDischargeDepth := 100) +contextual [hK]

@[simp] theorem State.linkDown_keeps (s : State) (s0 : State) (hK : Keeps s0 s) :
    Keeps s0 (State.linkDown s) := by
  unfold State.linkDown
  simp (maxDischargeDepth := 100) +contextual [hK]

@[simp] theorem State.loseBlock_keeps (s : State) (t : StreamRef) (f : InFlight) (s0 : State) (hK : Keeps s0 s) :
    Keeps s0 (State.loseBlock s t f) := by
  unfold State.loseBlock
  try dsimp only
  (repeat' split) <;> simp (maxDischargeDepth := 100) +contextual [hK]

@[simp] theorem State.loseStream_keeps (s : State) (p : Nat) (t : StreamRef) (st : Stream) (s0 : State) (hK : Keeps s0 s) :
    Keeps s0 (State.loseStream s p t st) := by
  have hf : ∀ l : List InFlight, Keeps s0 (l.foldl (fun q f => q.loseBlock t f) s) := fun l =>
    keeps_foldl _ _ _ hK fun t a ht => by simp [ht]
  unfold State.loseStream
  dsimp only
  split
  · exact hK
  · split
    · exact hf _
    · exact State.parkStream_keeps _ _ _ _ _ (hf _)

@[simp] theorem State.loseBlocks_keeps (s : State) (p : Nat) (s0 : State) (hK : Keeps s0 s) :
    Keeps s0 (State.loseBlocks s p) := by
  unfold State.loseBlocks
  try dsimp only
  refine keeps_foldl _ _ _ (by simp (maxDischargeDepth := 100) +contextual [hK]) ?_
  intro t a ht
  (repeat' split) <;> simp (maxDischargeDepth := 100) +contextual [ht]

@[simp] theorem State.loseFills_keeps (s : State) (p : Nat) (s0 : State) (hK : Keeps s0 s) :
    Keeps s0 (State.loseFills s p) := by
  unfold State.loseFills
  simp (maxDischargeDepth := 100) +contextual [hK]

@[simp] theorem State.cxlLost_keeps (s : State) (p : Nat) (s0 : State) (hK : Keeps s0 s) :
    Keeps s0 (State.cxlLost s p) := by
  unfold State.cxlLost
  simp (maxDischargeDepth := 100) +contextual [hK]

/-! Jtag -/

@[simp] theorem State.setIr_keeps (s : State) (ir : Byte) (s0 : State) (hK : Keeps s0 s) :
    Keeps s0 (State.setIr s ir) := by
  unfold State.setIr
  simp (maxDischargeDepth := 100) +contextual [hK]

/-! Lorlink -/

@[simp] theorem State.consume_keeps (s : State) (q : Nat) (m : Msg) (s0 : State) (hK : Keeps s0 s) :
    Keeps s0 (State.consume s q m) := by
  unfold State.consume
  simp (maxDischargeDepth := 100) +contextual [hK]

@[simp] theorem State.hbmRead_keeps (s : State) (a : Nat) (n : Nat) (s0 : State) (hK : Keeps s0 s) :
    Keeps s0 (State.hbmRead s a n).2 := by
  unfold State.hbmRead
  simp (maxDischargeDepth := 100) +contextual [hK]

@[simp] theorem State.hbmWrite_keeps (s : State) (a : Nat) (l : List Byte) (s0 : State) (hK : Keeps s0 s) :
    Keeps s0 (State.hbmWrite s a l) := by
  unfold State.hbmWrite
  simp (maxDischargeDepth := 100) +contextual [hK]

@[simp] theorem State.serveRead_keeps (s : State) (q : Nat) (m : Msg) (s0 : State) (hK : Keeps s0 s) :
    Keeps s0 (State.serveRead s q m) := by
  unfold State.serveRead
  simp (maxDischargeDepth := 100) +contextual [hK]

@[simp] theorem State.orphan_keeps (s : State) (q : Nat) (s0 : State) (hK : Keeps s0 s) :
    Keeps s0 (State.orphan s q) := by
  unfold State.orphan
  simp (maxDischargeDepth := 100) +contextual [hK]

@[simp] theorem State.ackWrite_keeps (s : State) (m : Msg) (blocked : Bool) (s0 : State) (hK : Keeps s0 s) :
    Keeps s0 (State.ackWrite s m blocked) := by
  unfold State.ackWrite
  simp (maxDischargeDepth := 100) +contextual [hK]

end Sys2Proof.Machine
end

