-- ==== Sys2Proof/Laws/KeepsPower.lean ====
section
/-! SUPPORT. Management, power, resets, timers and the idle tick leave `Keeps` true. -/

set_option maxRecDepth 4000

namespace Sys2Proof.Machine

open State

/-! Mgmt -/

@[simp] theorem State.mctp_keeps (s : State) (b : MBus) (cc : Nat) (data : List Byte) (s0 : State) (hK : Keeps s0 s) :
    Keeps s0 (State.mctp s b cc data) := by
  unfold State.mctp
  simp (maxDischargeDepth := 100) +contextual [hK]

@[simp] theorem State.pldm_keeps (s : State) (b : MBus) (cc : Nat) (data : List Byte) (s0 : State) (hK : Keeps s0 s) :
    Keeps s0 (State.pldm s b cc data) := by
  unfold State.pldm
  simp (maxDischargeDepth := 100) +contextual [hK]

@[simp] theorem State.onMctp_keeps (s : State) (b : MBus) (f : State → State) (s0 : State) (hK : Keeps s0 s) (hf : ∀ t, Keeps s0 t → Keeps s0 (f t)) :
    Keeps s0 (State.onMctp s b f) := by
  unfold State.onMctp
  simp (maxDischargeDepth := 100) +contextual [hK, hf]

@[simp] theorem State.onPldm_keeps (s : State) (b : MBus) (f : State → State) (s0 : State) (hK : Keeps s0 s) (hf : ∀ t, Keeps s0 t → Keeps s0 (f t)) :
    Keeps s0 (State.onPldm s b f) := by
  unfold State.onPldm
  simp (maxDischargeDepth := 100) +contextual [hK, hf]

@[simp] theorem State.onUpdate_keeps (s : State) (b : MBus) (f : State → State)
    (s0 : State) (hK : Keeps s0 s) (hf : ∀ t, Keeps s0 t → Keeps s0 (f t)) :
    Keeps s0 (State.onUpdate s b f) := by
  unfold State.onUpdate
  simp (maxDischargeDepth := 100) +contextual [hK, hf]

@[simp] theorem State.setEid_keeps (s : State) (b : MBus) (op : Nat) (eid : Byte) (s0 : State) (hK : Keeps s0 s) :
    Keeps s0 (State.setEid s b op eid) := by
  unfold State.setEid
  simp (maxDischargeDepth := 100) +contextual [hK]

@[simp] theorem State.sendEvent_keeps (s : State) (n : Nat) (k : Nat) (s0 : State) (hK : Keeps s0 s) :
    Keeps s0 (State.sendEvent s n k) := by
  unfold State.sendEvent
  simp (maxDischargeDepth := 100) +contextual [hK]

@[simp] theorem State.updTo_keeps (s : State) (u : UpdSt) (s0 : State) (hK : Keeps s0 s) :
    Keeps s0 (State.updTo s u) := by
  unfold State.updTo
  simp (maxDischargeDepth := 100) +contextual [hK]

@[simp] theorem State.onStep_keeps (s : State) (b : MBus) (from_ : List UpdSt) (f : State → State)
    (s0 : State) (hK : Keeps s0 s) (hf : ∀ t, Keeps s0 t → Keeps s0 (f t)) :
    Keeps s0 (State.onStep s b from_ f) := by
  unfold State.onStep
  simp (maxDischargeDepth := 100) +contextual [hK, hf]

/-- Writing an update keeps the flash in canonical form. -/
theorem writeUpdate_wf (m : FMap Byte) (booted base : Nat) (x : DirItem) (ver : Nat) (data : List Byte) (h : Mem.wf m = true) :
    Mem.wf (writeUpdate m booted base x ver data) = true :=
  Mem.wf_writeList _ _ _ (Mem.wf_writeList _ _ _ h)

@[simp] theorem State.updWrite_keeps (s : State) (b : MBus) (comp : Nat) (ver : Nat) (data : List Byte) (s0 : State) (hK : Keeps s0 s) :
    Keeps s0 (State.updWrite s b comp ver data) := by
  unfold State.updWrite
  split
  · simp [hK]
  · split
    · simp [hK]
    · refine State.emit_keeps _ _ _ (State.pldm_keeps _ _ _ _ _ (State.updTo_keeps _ _ _ ?_))
      exact ⟨hK.queue, fun m => ⟨(hK.canon m).1, writeUpdate_wf _ _ _ _ _ _ (hK.canon m).2⟩, hK.drawn, hK.sent⟩

@[simp] theorem State.updLong_keeps (s : State) (b : MBus) (comp : Nat) (ver : Nat) (data : List Byte) (s0 : State) (hK : Keeps s0 s) :
    Keeps s0 (State.updLong s b comp ver data) := by
  unfold State.updLong
  try dsimp only
  (repeat' split) <;> simp (maxDischargeDepth := 100) +contextual [hK]

@[simp] theorem State.stageDone_keeps (s : State) (b : MBus) (at_ : UpdSt) (nxt : UpdSt) (result : Byte) (s0 : State) (hK : Keeps s0 s) :
    Keeps s0 (State.stageDone s b at_ nxt result) := by
  unfold State.stageDone
  simp (maxDischargeDepth := 100) +contextual [hK]

/-! Power -/

@[simp] theorem State.warn_keeps (s : State) (x : Rail) (s0 : State) (hK : Keeps s0 s) :
    Keeps s0 (State.warn s x) := by
  unfold State.warn
  simp (maxDischargeDepth := 100) +contextual [hK]

@[simp] theorem State.stretch_keeps (s : State) (s0 : State) (hK : Keeps s0 s) :
    Keeps s0 (State.stretch s) := by
  unfold State.stretch
  simp (maxDischargeDepth := 100) +contextual [hK]

@[simp] theorem State.pllLost_keeps (s : State) (p : Pll) (s0 : State) (hK : Keeps s0 s) :
    Keeps s0 (State.pllLost s p) := by
  unfold State.pllLost
  try dsimp only
  (repeat' split) <;> simp (maxDischargeDepth := 100) +contextual [hK]

@[simp] theorem State.pwrDone_keeps (s : State) (s0 : State) (hK : Keeps s0 s) :
    Keeps s0 (State.pwrDone s) := by
  unfold State.pwrDone
  simp (maxDischargeDepth := 100) +contextual [hK]

@[simp] theorem State.pwrRefuse_keeps (s : State) (why : Nat) (s0 : State) (hK : Keeps s0 s) :
    Keeps s0 (State.pwrRefuse s why) := by
  unfold State.pwrRefuse
  simp (maxDischargeDepth := 100) +contextual [hK]

@[simp] theorem State.pwrStart_keeps (s : State) (target : Nat) (s0 : State) (hK : Keeps s0 s) :
    Keeps s0 (State.pwrStart s target) := by
  unfold State.pwrStart
  simp (maxDischargeDepth := 100) +contextual [hK]

@[simp] theorem State.ringsOut_keeps (s : State) (s0 : State) (hK : Keeps s0 s) :
    Keeps s0 (State.ringsOut s) := by
  unfold State.ringsOut
  simp (maxDischargeDepth := 100) +contextual [hK]

@[simp] theorem State.retainClose_keeps (s : State) (s0 : State) (hK : Keeps s0 s) :
    Keeps s0 (State.retainClose s) := by
  unfold State.retainClose
  simp (maxDischargeDepth := 100) +contextual [hK]

@[simp] theorem State.pwrTarget_keeps (s : State) (t : Nat) (s0 : State) (hK : Keeps s0 s) :
    Keeps s0 (State.pwrTarget s t) := by
  unfold State.pwrTarget
  simp (maxDischargeDepth := 100) +contextual [hK]

@[simp] theorem State.pwrCmd_keeps (s : State) (w : BusWr) (s0 : State) (hK : Keeps s0 s) :
    Keeps s0 (State.pwrCmd s w) := by
  unfold State.pwrCmd
  simp (maxDischargeDepth := 100) +contextual [hK]

@[simp] theorem State.diesOff_keeps (s : State) (s0 : State) (hK : Keeps s0 s) :
    Keeps s0 (State.diesOff s) := by
  unfold State.diesOff
  simp (maxDischargeDepth := 100) +contextual [hK]

@[simp] theorem State.wallOff_keeps (s : State) (s0 : State) (hK : Keeps s0 s) :
    Keeps s0 (State.wallOff s) := by
  unfold State.wallOff
  simp (maxDischargeDepth := 100) +contextual [hK]

@[simp] theorem State.diesOn_keeps (s : State) (l : List SramFail) (s0 : State) (hK : Keeps s0 s) :
    Keeps s0 (State.diesOn s l) := by
  unfold State.diesOn
  simp (maxDischargeDepth := 100) +contextual [hK]

@[simp] theorem State.startGate_keeps (s : State) (r : Nat) (on : Bool) (s0 : State) (hK : Keeps s0 s) :
    Keeps s0 (State.startGate s r on) := by
  unfold State.startGate
  simp (maxDischargeDepth := 100) +contextual [hK]

@[simp] theorem State.writeGates_keeps (s : State) (f : Nat) (v : Nat) (s0 : State) (hK : Keeps s0 s) :
    Keeps s0 (State.writeGates s f v) := by
  unfold State.writeGates
  simp (maxDischargeDepth := 100) +contextual [hK]

@[simp] theorem State.clearEngines_keeps (s : State) (r : Nat) (s0 : State) (hK : Keeps s0 s) :
    Keeps s0 (State.clearEngines s r) := by
  unfold State.clearEngines
  simp (maxDischargeDepth := 100) +contextual [hK]

@[simp] theorem State.powerOff_keeps (s : State) (r : Nat) (s0 : State) (hK : Keeps s0 s) :
    Keeps s0 (State.powerOff s r) := by
  unfold State.powerOff
  simp (maxDischargeDepth := 100) +contextual [hK]

/-! Reset -/

@[simp] theorem State.unbias_keeps (s : State) (s0 : State) (hK : Keeps s0 s) :
    Keeps s0 (State.unbias s) := by
  unfold State.unbias
  simp (maxDischargeDepth := 100) +contextual [hK]

@[simp] theorem State.coldEnter_keeps (s : State) (s0 : State) (hK : Keeps s0 s) :
    Keeps s0 (State.coldEnter s) := by
  unfold State.coldEnter
  simp (maxDischargeDepth := 100) +contextual [hK]

@[simp] theorem State.powerOn_keeps (s : State) (s0 : State) (hK : Keeps s0 s) :
    Keeps s0 (State.powerOn s) := by
  have hu : Keeps s0 s.unbias := by simp [hK]
  unfold State.powerOn
  exact ⟨hu.queue, fun m => ⟨FMap.wf_filter _ _ _ (hu.canon m).1, (hu.canon m).2⟩, hu.drawn, hu.sent⟩

@[simp] theorem State.resetPin_keeps (s : State) (s0 : State) (hK : Keeps s0 s) :
    Keeps s0 (State.resetPin s) := by
  unfold State.resetPin
  simp (maxDischargeDepth := 100) +contextual [hK]

@[simp] theorem State.drainOne_keeps (s : State) (p : Nat × Nat × InFlight) (s0 : State) (hK : Keeps s0 s) :
    Keeps s0 (State.drainOne s p) := by
  unfold State.drainOne
  try dsimp only
  (repeat' split) <;> simp (maxDischargeDepth := 100) +contextual [hK]

@[simp] theorem State.warmDrain_keeps (s : State) (fails : Bool) (s0 : State) (hK : Keeps s0 s) :
    Keeps s0 (State.warmDrain s fails) := by
  unfold State.warmDrain
  simp (maxDischargeDepth := 100) +contextual [hK]

@[simp] theorem State.warmClear_keeps (s : State) (s0 : State) (hK : Keeps s0 s) :
    Keeps s0 (State.warmClear s) := by
  unfold State.warmClear
  simp (maxDischargeDepth := 100) +contextual [hK]

@[simp] theorem State.warmStart_keeps (s : State) (whole : Bool) (stage : Nat) (err : Nat) (l : List SramFail) (s0 : State) (hK : Keeps s0 s) :
    Keeps s0 (State.warmStart s whole stage err l) := by
  unfold State.warmStart
  simp (maxDischargeDepth := 100) +contextual [hK]

@[simp] theorem State.warmReset_keeps (s : State) (env : TestEnv) (s0 : State) (hK : Keeps s0 s) :
    Keeps s0 (State.warmReset s env) := by
  unfold State.warmReset
  simp (maxDischargeDepth := 100) +contextual [hK]

/-! Timers -/

@[simp] theorem State.tick_keeps (s : State) (s0 : State) (hK : Keeps s0 s) :
    Keeps s0 (State.tick s) := by
  unfold State.tick
  simp (maxDischargeDepth := 100) +contextual [hK]

end Sys2Proof.Machine
end

