-- ==== Sys2Proof/Laws/State.lean ====
section
/-! SUPPORT. What the named updates of the state leave alone, and what is read back after a write. -/

namespace Sys2Proof.Machine

/-! ### Bit fields -/

theorem testBit_bitsAt (n lsb w i : Nat) : (bitsAt n lsb w).testBit i = (decide (i < w) && n.testBit (lsb + i)) := by
  simp [bitsAt, Nat.testBit_mod_two_pow, Nat.testBit_div_two_pow, Nat.add_comm]

theorem testBit_setBitsNat (n lsb w x i : Nat) : (setBitsNat n lsb w x).testBit i =
    if i < lsb then n.testBit i else if i < lsb + w then x.testBit (i - lsb) else n.testBit i := by
  have h1 : n % 2 ^ lsb < 2 ^ lsb := Nat.mod_lt _ (Nat.two_pow_pos _)
  have h2 : x % 2 ^ w < 2 ^ w := Nat.mod_lt _ (Nat.two_pow_pos _)
  unfold setBitsNat
  rw [Nat.add_comm (n % 2 ^ lsb), Nat.testBit_two_pow_mul_add _ h1, Nat.add_comm (x % 2 ^ w), Nat.testBit_two_pow_mul_add _ h2]
  by_cases a : i < lsb
  · simp [a, Nat.testBit_mod_two_pow]
  · by_cases b : i < lsb + w
    · have c : i - lsb < w := by omega
      simp [a, b, c, Nat.testBit_mod_two_pow]
    · have c : ¬ i - lsb < w := by omega
      simp only [a, b, c, if_false, Nat.testBit_div_two_pow]
      congr 1
      omega

theorem bitsAt_lt (n lsb w : Nat) : bitsAt n lsb w < 2 ^ w := Nat.mod_lt _ (Nat.two_pow_pos _)

theorem bitsAt_ext {w a b : Nat} (ha : a < 2 ^ w) (hb : b < 2 ^ w) (h : ∀ i, i < w → a.testBit i = b.testBit i) : a = b := by
  apply Nat.eq_of_testBit_eq
  intro i
  by_cases hi : i < w
  · exact h i hi
  · have hw : 2 ^ w ≤ 2 ^ i := Nat.pow_le_pow_right (by decide) (by omega)
    rw [Nat.testBit_lt_two_pow (by omega), Nat.testBit_lt_two_pow (by omega)]

/-! ### Registers -/

@[simp] theorem State.reg_setReg_same (s : State) (k : Nat) (v : W32) : (s.setReg k v).reg k = v := FMap.get_set_same _ _ _ _

theorem State.reg_setReg_ne (s : State) (k j : Nat) (v : W32) (h : j ≠ k) : (s.setReg k v).reg j = s.reg j :=
  FMap.get_set_ne _ _ _ _ _ h

theorem State.reg_setReg (s : State) (k j : Nat) (v : W32) : (s.setReg k v).reg j = if j = k then v else s.reg j :=
  FMap.get_set _ _ _ _ _

/-- A write of a field replaces its bits and no others. -/
theorem State.bit_fset (s : State) (f : Fld) (x off i : Nat) (hi : i < 32) : ((s.fset f x).reg off).getLsbD i =
    if off = f.off ∧ f.lsb ≤ i ∧ i < f.lsb + f.width then x.testBit (i - f.lsb) else (s.reg off).getLsbD i := by
  unfold State.fset
  rw [State.reg_setReg]
  by_cases h : off = f.off
  · subst h
    simp only [if_true, true_and, BitVec.getLsbD_ofNat, hi, decide_true, Bool.true_and, testBit_setBitsNat]
    by_cases a : i < f.lsb
    · rw [if_pos a, if_neg (by omega)]
      exact BitVec.testBit_toNat _
    · rw [if_neg a]
      by_cases b : i < f.lsb + f.width
      · rw [if_pos b, if_pos ⟨by omega, b⟩]
      · rw [if_neg b, if_neg (by omega)]
        exact BitVec.testBit_toNat _
  · rw [if_neg h, if_neg (fun c => h c.1)]

theorem State.reg_fset_ne (s : State) (f : Fld) (x k : Nat) (h : k ≠ f.off) : (s.fset f x).reg k = s.reg k :=
  State.reg_setReg_ne _ _ _ _ h

theorem State.testBit_fget (s : State) (f : Fld) (i : Nat) :
    (s.fget f).testBit i = (decide (i < f.width) && (s.reg f.off).getLsbD (f.lsb + i)) := by
  unfold State.fget
  rw [testBit_bitsAt, BitVec.testBit_toNat]

/-- A field of a register reads as written. -/
theorem State.fget_fset_same (s : State) (f : Fld) (x : Nat) (h : f.lsb + f.width ≤ 32) :
    (s.fset f x).fget f = x % 2 ^ f.width := by
  refine bitsAt_ext (bitsAt_lt _ _ _) (Nat.mod_lt _ (Nat.two_pow_pos _)) fun i hi => ?_
  rw [State.testBit_fget, State.bit_fset _ _ _ _ _ (by omega), if_pos ⟨rfl, by omega, by omega⟩, Nat.testBit_mod_two_pow]
  simp [hi]

/-- A field keeps its value when a field apart from it is written. -/
theorem State.fget_fset_of_apart (s : State) (f g : Fld) (x : Nat)
    (h : g.off ≠ f.off ∨ g.lsb + g.width ≤ f.lsb ∨ f.lsb + f.width ≤ g.lsb) (hg : g.lsb + g.width ≤ 32) :
    (s.fset f x).fget g = s.fget g := by
  refine bitsAt_ext (bitsAt_lt _ _ _) (bitsAt_lt _ _ _) fun i hi => ?_
  rw [State.testBit_fget, State.testBit_fget, State.bit_fset _ _ _ _ _ (by omega), if_neg]
  omega

/-- A flag keeps its value when a field apart from it is written. -/
theorem State.flag_fset_of_apart (s : State) (f g : Fld) (x : Nat)
    (h : g.off ≠ f.off ∨ g.lsb + g.width ≤ f.lsb ∨ f.lsb + f.width ≤ g.lsb) (hg : g.lsb + g.width ≤ 32) :
    (s.fset f x).flag g = s.flag g := by
  unfold State.flag
  rw [State.fget_fset_of_apart s f g x h hg]

theorem State.RegsOnly.refl (s : State) (fs : List Fld) : s.RegsOnly s fs := fun _ _ _ => rfl

/-- A write of a listed field adds nothing to what differs. -/
theorem State.RegsOnly.fset {s t : State} {fs : List Fld} (h : s.RegsOnly t fs) {f : Fld} (x : Nat) (hf : f ∈ fs) :
    s.RegsOnly (t.fset f x) fs := by
  intro off i hn
  by_cases hi : i < 32
  · rw [State.bit_fset _ _ _ _ _ hi, if_neg, h off i hn]
    intro c
    exact hn f hf ⟨c.1.symm, c.2.1, c.2.2⟩
  · rw [BitVec.getLsbD_of_ge _ _ (by omega), BitVec.getLsbD_of_ge _ _ (by omega)]

/-- A write inside a listed field adds nothing to what differs. -/
theorem State.RegsOnly.fset_in {s t : State} {fs : List Fld} (h : s.RegsOnly t fs) (f : Fld) (x : Nat) (g : Fld)
    (hg : g ∈ fs) (ho : f.off = g.off) (h1 : g.lsb ≤ f.lsb) (h2 : f.lsb + f.width ≤ g.lsb + g.width) :
    s.RegsOnly (t.fset f x) fs := by
  intro off i hn
  by_cases hi : i < 32
  · rw [State.bit_fset _ _ _ _ _ hi, if_neg, h off i hn]
    intro c
    exact hn g hg ⟨ho ▸ c.1.symm, by omega, by omega⟩
  · rw [BitVec.getLsbD_of_ge _ _ (by omega), BitVec.getLsbD_of_ge _ _ (by omega)]

theorem State.RegsOnly.mono {s t : State} {fs gs : List Fld} (h : s.RegsOnly t fs) (hg : ∀ f ∈ fs, f ∈ gs) :
    s.RegsOnly t gs := fun off i hn => h off i fun f hf => hn f (hg f hf)

theorem State.RegsOnly.trans {s t u : State} {fs : List Fld} (h : s.RegsOnly t fs) (k : t.RegsOnly u fs) : s.RegsOnly u fs :=
  fun off i hn => (k off i hn).trans (h off i hn)

/-- A register write keeps every other part of the state as it was. -/
theorem State.regs_setReg {s t : State} (h : t = { s with regs := t.regs }) (k : Nat) (v : W32) :
    t.setReg k v = { s with regs := (t.setReg k v).regs } := by
  cases s; cases t; simp_all [State.setReg]

/-- A field write keeps every other part of the state as it was. -/
theorem State.regs_fset {s t : State} (h : t = { s with regs := t.regs }) (f : Fld) (x : Nat) :
    t.fset f x = { s with regs := (t.fset f x).regs } := State.regs_setReg h _ _

/-- Only the registers themselves count for what differs. -/
theorem State.RegsOnly.congr {s t u : State} {fs : List Fld} (h : s.RegsOnly t fs) (hr : u.regs = t.regs) : s.RegsOnly u fs := by
  intro off i hn
  have : u.reg off = t.reg off := by unfold State.reg; rw [hr]
  rw [this]
  exact h off i hn

/-! ### Projections: an update leaves every other field of the state -/

@[simp] theorem State.setReg_pending (s : State) (k : Nat) (v : W32) : (s.setReg k v).pending = s.pending := rfl
@[simp] theorem State.setReg_freeCtr (s : State) (k : Nat) (v : W32) : (s.setReg k v).freeCtr = s.freeCtr := rfl
@[simp] theorem State.setReg_ts (s : State) (k : Nat) (v : W32) : (s.setReg k v).ts = s.ts := rfl
@[simp] theorem State.setReg_staged (s : State) (k : Nat) (v : W32) : (s.setReg k v).staged = s.staged := rfl
@[simp] theorem State.setReg_pwrites (s : State) (k : Nat) (v : W32) : (s.setReg k v).pwrites = s.pwrites := rfl
@[simp] theorem State.setReg_mboxBusy (s : State) (k : Nat) (v : W32) : (s.setReg k v).mboxBusy = s.mboxBusy := rfl
@[simp] theorem State.setReg_sealer (s : State) (k : Nat) (v : W32) : (s.setReg k v).sealer = s.sealer := rfl
@[simp] theorem State.setReg_latches (s : State) (k : Nat) (v : W32) : (s.setReg k v).latches = s.latches := rfl
@[simp] theorem State.setReg_ctxs (s : State) (k : Nat) (v : W32) : (s.setReg k v).ctxs = s.ctxs := rfl
@[simp] theorem State.setReg_rrLast (s : State) (k : Nat) (v : W32) : (s.setReg k v).rrLast = s.rrLast := rfl
@[simp] theorem State.setReg_rrLeft (s : State) (k : Nat) (v : W32) : (s.setReg k v).rrLeft = s.rrLeft := rfl
@[simp] theorem State.setReg_nextOrd (s : State) (k : Nat) (v : W32) : (s.setReg k v).nextOrd = s.nextOrd := rfl
@[simp] theorem State.setReg_rooms (s : State) (k : Nat) (v : W32) : (s.setReg k v).rooms = s.rooms := rfl
@[simp] theorem State.setReg_engs (s : State) (k : Nat) (v : W32) : (s.setReg k v).engs = s.engs := rfl
@[simp] theorem State.setReg_ms (s : State) (k : Nat) (v : W32) : (s.setReg k v).ms = s.ms := rfl
@[simp] theorem State.setReg_arbs (s : State) (k : Nat) (v : W32) : (s.setReg k v).arbs = s.arbs := rfl
@[simp] theorem State.setReg_mo (s : State) (k : Nat) (v : W32) : (s.setReg k v).mo = s.mo := rfl
@[simp] theorem State.setReg_link (s : State) (k : Nat) (v : W32) : (s.setReg k v).link = s.link := rfl
@[simp] theorem State.setReg_pwr (s : State) (k : Nat) (v : W32) : (s.setReg k v).pwr = s.pwr := rfl
@[simp] theorem State.setReg_boot (s : State) (k : Nat) (v : W32) : (s.setReg k v).boot = s.boot := rfl
@[simp] theorem State.setReg_hs (s : State) (k : Nat) (v : W32) : (s.setReg k v).hs = s.hs := rfl
@[simp] theorem State.setReg_mg (s : State) (k : Nat) (v : W32) : (s.setReg k v).mg = s.mg := rfl
@[simp] theorem State.setReg_jtag (s : State) (k : Nat) (v : W32) : (s.setReg k v).jtag = s.jtag := rfl
@[simp] theorem State.setReg_outbox (s : State) (k : Nat) (v : W32) : (s.setReg k v).outbox = s.outbox := rfl

@[simp] theorem State.fset_pending (s : State) (f : Fld) (x : Nat) : (s.fset f x).pending = s.pending := rfl
@[simp] theorem State.fset_freeCtr (s : State) (f : Fld) (x : Nat) : (s.fset f x).freeCtr = s.freeCtr := rfl
@[simp] theorem State.fset_ts (s : State) (f : Fld) (x : Nat) : (s.fset f x).ts = s.ts := rfl
@[simp] theorem State.fset_staged (s : State) (f : Fld) (x : Nat) : (s.fset f x).staged = s.staged := rfl
@[simp] theorem State.fset_pwrites (s : State) (f : Fld) (x : Nat) : (s.fset f x).pwrites = s.pwrites := rfl
@[simp] theorem State.fset_mboxBusy (s : State) (f : Fld) (x : Nat) : (s.fset f x).mboxBusy = s.mboxBusy := rfl
@[simp] theorem State.fset_sealer (s : State) (f : Fld) (x : Nat) : (s.fset f x).sealer = s.sealer := rfl
@[simp] theorem State.fset_latches (s : State) (f : Fld) (x : Nat) : (s.fset f x).latches = s.latches := rfl
@[simp] theorem State.fset_ctxs (s : State) (f : Fld) (x : Nat) : (s.fset f x).ctxs = s.ctxs := rfl
@[simp] theorem State.fset_rrLast (s : State) (f : Fld) (x : Nat) : (s.fset f x).rrLast = s.rrLast := rfl
@[simp] theorem State.fset_rrLeft (s : State) (f : Fld) (x : Nat) : (s.fset f x).rrLeft = s.rrLeft := rfl
@[simp] theorem State.fset_nextOrd (s : State) (f : Fld) (x : Nat) : (s.fset f x).nextOrd = s.nextOrd := rfl
@[simp] theorem State.fset_rooms (s : State) (f : Fld) (x : Nat) : (s.fset f x).rooms = s.rooms := rfl
@[simp] theorem State.fset_engs (s : State) (f : Fld) (x : Nat) : (s.fset f x).engs = s.engs := rfl
@[simp] theorem State.fset_ms (s : State) (f : Fld) (x : Nat) : (s.fset f x).ms = s.ms := rfl
@[simp] theorem State.fset_arbs (s : State) (f : Fld) (x : Nat) : (s.fset f x).arbs = s.arbs := rfl
@[simp] theorem State.fset_mo (s : State) (f : Fld) (x : Nat) : (s.fset f x).mo = s.mo := rfl
@[simp] theorem State.fset_link (s : State) (f : Fld) (x : Nat) : (s.fset f x).link = s.link := rfl
@[simp] theorem State.fset_pwr (s : State) (f : Fld) (x : Nat) : (s.fset f x).pwr = s.pwr := rfl
@[simp] theorem State.fset_boot (s : State) (f : Fld) (x : Nat) : (s.fset f x).boot = s.boot := rfl
@[simp] theorem State.fset_hs (s : State) (f : Fld) (x : Nat) : (s.fset f x).hs = s.hs := rfl
@[simp] theorem State.fset_mg (s : State) (f : Fld) (x : Nat) : (s.fset f x).mg = s.mg := rfl
@[simp] theorem State.fset_jtag (s : State) (f : Fld) (x : Nat) : (s.fset f x).jtag = s.jtag := rfl
@[simp] theorem State.fset_outbox (s : State) (f : Fld) (x : Nat) : (s.fset f x).outbox = s.outbox := rfl

@[simp] theorem State.count_pending (s : State) (f : Fld) (x : Nat) : (s.count f x).pending = s.pending := rfl
@[simp] theorem State.count_freeCtr (s : State) (f : Fld) (x : Nat) : (s.count f x).freeCtr = s.freeCtr := rfl
@[simp] theorem State.count_ts (s : State) (f : Fld) (x : Nat) : (s.count f x).ts = s.ts := rfl
@[simp] theorem State.count_staged (s : State) (f : Fld) (x : Nat) : (s.count f x).staged = s.staged := rfl
@[simp] theorem State.count_pwrites (s : State) (f : Fld) (x : Nat) : (s.count f x).pwrites = s.pwrites := rfl
@[simp] theorem State.count_mboxBusy (s : State) (f : Fld) (x : Nat) : (s.count f x).mboxBusy = s.mboxBusy := rfl
@[simp] theorem State.count_sealer (s : State) (f : Fld) (x : Nat) : (s.count f x).sealer = s.sealer := rfl
@[simp] theorem State.count_latches (s : State) (f : Fld) (x : Nat) : (s.count f x).latches = s.latches := rfl
@[simp] theorem State.count_ctxs (s : State) (f : Fld) (x : Nat) : (s.count f x).ctxs = s.ctxs := rfl
@[simp] theorem State.count_rrLast (s : State) (f : Fld) (x : Nat) : (s.count f x).rrLast = s.rrLast := rfl
@[simp] theorem State.count_rrLeft (s : State) (f : Fld) (x : Nat) : (s.count f x).rrLeft = s.rrLeft := rfl
@[simp] theorem State.count_nextOrd (s : State) (f : Fld) (x : Nat) : (s.count f x).nextOrd = s.nextOrd := rfl
@[simp] theorem State.count_rooms (s : State) (f : Fld) (x : Nat) : (s.count f x).rooms = s.rooms := rfl
@[simp] theorem State.count_engs (s : State) (f : Fld) (x : Nat) : (s.count f x).engs = s.engs := rfl
@[simp] theorem State.count_ms (s : State) (f : Fld) (x : Nat) : (s.count f x).ms = s.ms := rfl
@[simp] theorem State.count_arbs (s : State) (f : Fld) (x : Nat) : (s.count f x).arbs = s.arbs := rfl
@[simp] theorem State.count_mo (s : State) (f : Fld) (x : Nat) : (s.count f x).mo = s.mo := rfl
@[simp] theorem State.count_link (s : State) (f : Fld) (x : Nat) : (s.count f x).link = s.link := rfl
@[simp] theorem State.count_pwr (s : State) (f : Fld) (x : Nat) : (s.count f x).pwr = s.pwr := rfl
@[simp] theorem State.count_boot (s : State) (f : Fld) (x : Nat) : (s.count f x).boot = s.boot := rfl
@[simp] theorem State.count_hs (s : State) (f : Fld) (x : Nat) : (s.count f x).hs = s.hs := rfl
@[simp] theorem State.count_mg (s : State) (f : Fld) (x : Nat) : (s.count f x).mg = s.mg := rfl
@[simp] theorem State.count_jtag (s : State) (f : Fld) (x : Nat) : (s.count f x).jtag = s.jtag := rfl
@[simp] theorem State.count_outbox (s : State) (f : Fld) (x : Nat) : (s.count f x).outbox = s.outbox := rfl

@[simp] theorem State.countSat_pending (s : State) (f : Fld) (x : Nat) : (s.countSat f x).pending = s.pending := rfl
@[simp] theorem State.countSat_freeCtr (s : State) (f : Fld) (x : Nat) : (s.countSat f x).freeCtr = s.freeCtr := rfl
@[simp] theorem State.countSat_ts (s : State) (f : Fld) (x : Nat) : (s.countSat f x).ts = s.ts := rfl
@[simp] theorem State.countSat_staged (s : State) (f : Fld) (x : Nat) : (s.countSat f x).staged = s.staged := rfl
@[simp] theorem State.countSat_pwrites (s : State) (f : Fld) (x : Nat) : (s.countSat f x).pwrites = s.pwrites := rfl
@[simp] theorem State.countSat_mboxBusy (s : State) (f : Fld) (x : Nat) : (s.countSat f x).mboxBusy = s.mboxBusy := rfl
@[simp] theorem State.countSat_sealer (s : State) (f : Fld) (x : Nat) : (s.countSat f x).sealer = s.sealer := rfl
@[simp] theorem State.countSat_latches (s : State) (f : Fld) (x : Nat) : (s.countSat f x).latches = s.latches := rfl
@[simp] theorem State.countSat_ctxs (s : State) (f : Fld) (x : Nat) : (s.countSat f x).ctxs = s.ctxs := rfl
@[simp] theorem State.countSat_rrLast (s : State) (f : Fld) (x : Nat) : (s.countSat f x).rrLast = s.rrLast := rfl
@[simp] theorem State.countSat_rrLeft (s : State) (f : Fld) (x : Nat) : (s.countSat f x).rrLeft = s.rrLeft := rfl
@[simp] theorem State.countSat_nextOrd (s : State) (f : Fld) (x : Nat) : (s.countSat f x).nextOrd = s.nextOrd := rfl
@[simp] theorem State.countSat_rooms (s : State) (f : Fld) (x : Nat) : (s.countSat f x).rooms = s.rooms := rfl
@[simp] theorem State.countSat_engs (s : State) (f : Fld) (x : Nat) : (s.countSat f x).engs = s.engs := rfl
@[simp] theorem State.countSat_ms (s : State) (f : Fld) (x : Nat) : (s.countSat f x).ms = s.ms := rfl
@[simp] theorem State.countSat_arbs (s : State) (f : Fld) (x : Nat) : (s.countSat f x).arbs = s.arbs := rfl
@[simp] theorem State.countSat_mo (s : State) (f : Fld) (x : Nat) : (s.countSat f x).mo = s.mo := rfl
@[simp] theorem State.countSat_link (s : State) (f : Fld) (x : Nat) : (s.countSat f x).link = s.link := rfl
@[simp] theorem State.countSat_pwr (s : State) (f : Fld) (x : Nat) : (s.countSat f x).pwr = s.pwr := rfl
@[simp] theorem State.countSat_boot (s : State) (f : Fld) (x : Nat) : (s.countSat f x).boot = s.boot := rfl
@[simp] theorem State.countSat_hs (s : State) (f : Fld) (x : Nat) : (s.countSat f x).hs = s.hs := rfl
@[simp] theorem State.countSat_mg (s : State) (f : Fld) (x : Nat) : (s.countSat f x).mg = s.mg := rfl
@[simp] theorem State.countSat_jtag (s : State) (f : Fld) (x : Nat) : (s.countSat f x).jtag = s.jtag := rfl
@[simp] theorem State.countSat_outbox (s : State) (f : Fld) (x : Nat) : (s.countSat f x).outbox = s.outbox := rfl

@[simp] theorem State.forBits_pending (s : State) (f : Fld) (x : Nat) : (s.forBits f x).pending = s.pending := rfl
@[simp] theorem State.forBits_freeCtr (s : State) (f : Fld) (x : Nat) : (s.forBits f x).freeCtr = s.freeCtr := rfl
@[simp] theorem State.forBits_ts (s : State) (f : Fld) (x : Nat) : (s.forBits f x).ts = s.ts := rfl
@[simp] theorem State.forBits_staged (s : State) (f : Fld) (x : Nat) : (s.forBits f x).staged = s.staged := rfl
@[simp] theorem State.forBits_pwrites (s : State) (f : Fld) (x : Nat) : (s.forBits f x).pwrites = s.pwrites := rfl
@[simp] theorem State.forBits_mboxBusy (s : State) (f : Fld) (x : Nat) : (s.forBits f x).mboxBusy = s.mboxBusy := rfl
@[simp] theorem State.forBits_sealer (s : State) (f : Fld) (x : Nat) : (s.forBits f x).sealer = s.sealer := rfl
@[simp] theorem State.forBits_latches (s : State) (f : Fld) (x : Nat) : (s.forBits f x).latches = s.latches := rfl
@[simp] theorem State.forBits_ctxs (s : State) (f : Fld) (x : Nat) : (s.forBits f x).ctxs = s.ctxs := rfl
@[simp] theorem State.forBits_rrLast (s : State) (f : Fld) (x : Nat) : (s.forBits f x).rrLast = s.rrLast := rfl
@[simp] theorem State.forBits_rrLeft (s : State) (f : Fld) (x : Nat) : (s.forBits f x).rrLeft = s.rrLeft := rfl
@[simp] theorem State.forBits_nextOrd (s : State) (f : Fld) (x : Nat) : (s.forBits f x).nextOrd = s.nextOrd := rfl
@[simp] theorem State.forBits_rooms (s : State) (f : Fld) (x : Nat) : (s.forBits f x).rooms = s.rooms := rfl
@[simp] theorem State.forBits_engs (s : State) (f : Fld) (x : Nat) : (s.forBits f x).engs = s.engs := rfl
@[simp] theorem State.forBits_ms (s : State) (f : Fld) (x : Nat) : (s.forBits f x).ms = s.ms := rfl
@[simp] theorem State.forBits_arbs (s : State) (f : Fld) (x : Nat) : (s.forBits f x).arbs = s.arbs := rfl
@[simp] theorem State.forBits_mo (s : State) (f : Fld) (x : Nat) : (s.forBits f x).mo = s.mo := rfl
@[simp] theorem State.forBits_link (s : State) (f : Fld) (x : Nat) : (s.forBits f x).link = s.link := rfl
@[simp] theorem State.forBits_pwr (s : State) (f : Fld) (x : Nat) : (s.forBits f x).pwr = s.pwr := rfl
@[simp] theorem State.forBits_boot (s : State) (f : Fld) (x : Nat) : (s.forBits f x).boot = s.boot := rfl
@[simp] theorem State.forBits_hs (s : State) (f : Fld) (x : Nat) : (s.forBits f x).hs = s.hs := rfl
@[simp] theorem State.forBits_mg (s : State) (f : Fld) (x : Nat) : (s.forBits f x).mg = s.mg := rfl
@[simp] theorem State.forBits_jtag (s : State) (f : Fld) (x : Nat) : (s.forBits f x).jtag = s.jtag := rfl
@[simp] theorem State.forBits_outbox (s : State) (f : Fld) (x : Nat) : (s.forBits f x).outbox = s.outbox := rfl

@[simp] theorem State.setCtx_pending (s : State) (c : Nat) (x : Ctx) : (s.setCtx c x).pending = s.pending := rfl
@[simp] theorem State.setCtx_freeCtr (s : State) (c : Nat) (x : Ctx) : (s.setCtx c x).freeCtr = s.freeCtr := rfl
@[simp] theorem State.setCtx_ts (s : State) (c : Nat) (x : Ctx) : (s.setCtx c x).ts = s.ts := rfl
@[simp] theorem State.setCtx_regs (s : State) (c : Nat) (x : Ctx) : (s.setCtx c x).regs = s.regs := rfl
@[simp] theorem State.setCtx_staged (s : State) (c : Nat) (x : Ctx) : (s.setCtx c x).staged = s.staged := rfl
@[simp] theorem State.setCtx_pwrites (s : State) (c : Nat) (x : Ctx) : (s.setCtx c x).pwrites = s.pwrites := rfl
@[simp] theorem State.setCtx_mboxBusy (s : State) (c : Nat) (x : Ctx) : (s.setCtx c x).mboxBusy = s.mboxBusy := rfl
@[simp] theorem State.setCtx_sealer (s : State) (c : Nat) (x : Ctx) : (s.setCtx c x).sealer = s.sealer := rfl
@[simp] theorem State.setCtx_latches (s : State) (c : Nat) (x : Ctx) : (s.setCtx c x).latches = s.latches := rfl
@[simp] theorem State.setCtx_rrLast (s : State) (c : Nat) (x : Ctx) : (s.setCtx c x).rrLast = s.rrLast := rfl
@[simp] theorem State.setCtx_rrLeft (s : State) (c : Nat) (x : Ctx) : (s.setCtx c x).rrLeft = s.rrLeft := rfl
@[simp] theorem State.setCtx_nextOrd (s : State) (c : Nat) (x : Ctx) : (s.setCtx c x).nextOrd = s.nextOrd := rfl
@[simp] theorem State.setCtx_rooms (s : State) (c : Nat) (x : Ctx) : (s.setCtx c x).rooms = s.rooms := rfl
@[simp] theorem State.setCtx_engs (s : State) (c : Nat) (x : Ctx) : (s.setCtx c x).engs = s.engs := rfl
@[simp] theorem State.setCtx_ms (s : State) (c : Nat) (x : Ctx) : (s.setCtx c x).ms = s.ms := rfl
@[simp] theorem State.setCtx_arbs (s : State) (c : Nat) (x : Ctx) : (s.setCtx c x).arbs = s.arbs := rfl
@[simp] theorem State.setCtx_mo (s : State) (c : Nat) (x : Ctx) : (s.setCtx c x).mo = s.mo := rfl
@[simp] theorem State.setCtx_link (s : State) (c : Nat) (x : Ctx) : (s.setCtx c x).link = s.link := rfl
@[simp] theorem State.setCtx_pwr (s : State) (c : Nat) (x : Ctx) : (s.setCtx c x).pwr = s.pwr := rfl
@[simp] theorem State.setCtx_boot (s : State) (c : Nat) (x : Ctx) : (s.setCtx c x).boot = s.boot := rfl
@[simp] theorem State.setCtx_hs (s : State) (c : Nat) (x : Ctx) : (s.setCtx c x).hs = s.hs := rfl
@[simp] theorem State.setCtx_mg (s : State) (c : Nat) (x : Ctx) : (s.setCtx c x).mg = s.mg := rfl
@[simp] theorem State.setCtx_jtag (s : State) (c : Nat) (x : Ctx) : (s.setCtx c x).jtag = s.jtag := rfl
@[simp] theorem State.setCtx_outbox (s : State) (c : Nat) (x : Ctx) : (s.setCtx c x).outbox = s.outbox := rfl

@[simp] theorem State.setRoom_pending (s : State) (r : Nat) (x : RoomSt) : (s.setRoom r x).pending = s.pending := rfl
@[simp] theorem State.setRoom_freeCtr (s : State) (r : Nat) (x : RoomSt) : (s.setRoom r x).freeCtr = s.freeCtr := rfl
@[simp] theorem State.setRoom_ts (s : State) (r : Nat) (x : RoomSt) : (s.setRoom r x).ts = s.ts := rfl
@[simp] theorem State.setRoom_regs (s : State) (r : Nat) (x : RoomSt) : (s.setRoom r x).regs = s.regs := rfl
@[simp] theorem State.setRoom_staged (s : State) (r : Nat) (x : RoomSt) : (s.setRoom r x).staged = s.staged := rfl
@[simp] theorem State.setRoom_pwrites (s : State) (r : Nat) (x : RoomSt) : (s.setRoom r x).pwrites = s.pwrites := rfl
@[simp] theorem State.setRoom_mboxBusy (s : State) (r : Nat) (x : RoomSt) : (s.setRoom r x).mboxBusy = s.mboxBusy := rfl
@[simp] theorem State.setRoom_sealer (s : State) (r : Nat) (x : RoomSt) : (s.setRoom r x).sealer = s.sealer := rfl
@[simp] theorem State.setRoom_latches (s : State) (r : Nat) (x : RoomSt) : (s.setRoom r x).latches = s.latches := rfl
@[simp] theorem State.setRoom_ctxs (s : State) (r : Nat) (x : RoomSt) : (s.setRoom r x).ctxs = s.ctxs := rfl
@[simp] theorem State.setRoom_rrLast (s : State) (r : Nat) (x : RoomSt) : (s.setRoom r x).rrLast = s.rrLast := rfl
@[simp] theorem State.setRoom_rrLeft (s : State) (r : Nat) (x : RoomSt) : (s.setRoom r x).rrLeft = s.rrLeft := rfl
@[simp] theorem State.setRoom_nextOrd (s : State) (r : Nat) (x : RoomSt) : (s.setRoom r x).nextOrd = s.nextOrd := rfl
@[simp] theorem State.setRoom_engs (s : State) (r : Nat) (x : RoomSt) : (s.setRoom r x).engs = s.engs := rfl
@[simp] theorem State.setRoom_ms (s : State) (r : Nat) (x : RoomSt) : (s.setRoom r x).ms = s.ms := rfl
@[simp] theorem State.setRoom_arbs (s : State) (r : Nat) (x : RoomSt) : (s.setRoom r x).arbs = s.arbs := rfl
@[simp] theorem State.setRoom_mo (s : State) (r : Nat) (x : RoomSt) : (s.setRoom r x).mo = s.mo := rfl
@[simp] theorem State.setRoom_link (s : State) (r : Nat) (x : RoomSt) : (s.setRoom r x).link = s.link := rfl
@[simp] theorem State.setRoom_pwr (s : State) (r : Nat) (x : RoomSt) : (s.setRoom r x).pwr = s.pwr := rfl
@[simp] theorem State.setRoom_boot (s : State) (r : Nat) (x : RoomSt) : (s.setRoom r x).boot = s.boot := rfl
@[simp] theorem State.setRoom_hs (s : State) (r : Nat) (x : RoomSt) : (s.setRoom r x).hs = s.hs := rfl
@[simp] theorem State.setRoom_mg (s : State) (r : Nat) (x : RoomSt) : (s.setRoom r x).mg = s.mg := rfl
@[simp] theorem State.setRoom_jtag (s : State) (r : Nat) (x : RoomSt) : (s.setRoom r x).jtag = s.jtag := rfl
@[simp] theorem State.setRoom_outbox (s : State) (r : Nat) (x : RoomSt) : (s.setRoom r x).outbox = s.outbox := rfl

@[simp] theorem State.setEng_pending (s : State) (e : Nat) (x : EngSt) : (s.setEng e x).pending = s.pending := rfl
@[simp] theorem State.setEng_freeCtr (s : State) (e : Nat) (x : EngSt) : (s.setEng e x).freeCtr = s.freeCtr := rfl
@[simp] theorem State.setEng_ts (s : State) (e : Nat) (x : EngSt) : (s.setEng e x).ts = s.ts := rfl
@[simp] theorem State.setEng_regs (s : State) (e : Nat) (x : EngSt) : (s.setEng e x).regs = s.regs := rfl
@[simp] theorem State.setEng_staged (s : State) (e : Nat) (x : EngSt) : (s.setEng e x).staged = s.staged := rfl
@[simp] theorem State.setEng_pwrites (s : State) (e : Nat) (x : EngSt) : (s.setEng e x).pwrites = s.pwrites := rfl
@[simp] theorem State.setEng_mboxBusy (s : State) (e : Nat) (x : EngSt) : (s.setEng e x).mboxBusy = s.mboxBusy := rfl
@[simp] theorem State.setEng_sealer (s : State) (e : Nat) (x : EngSt) : (s.setEng e x).sealer = s.sealer := rfl
@[simp] theorem State.setEng_latches (s : State) (e : Nat) (x : EngSt) : (s.setEng e x).latches = s.latches := rfl
@[simp] theorem State.setEng_ctxs (s : State) (e : Nat) (x : EngSt) : (s.setEng e x).ctxs = s.ctxs := rfl
@[simp] theorem State.setEng_rrLast (s : State) (e : Nat) (x : EngSt) : (s.setEng e x).rrLast = s.rrLast := rfl
@[simp] theorem State.setEng_rrLeft (s : State) (e : Nat) (x : EngSt) : (s.setEng e x).rrLeft = s.rrLeft := rfl
@[simp] theorem State.setEng_nextOrd (s : State) (e : Nat) (x : EngSt) : (s.setEng e x).nextOrd = s.nextOrd := rfl
@[simp] theorem State.setEng_rooms (s : State) (e : Nat) (x : EngSt) : (s.setEng e x).rooms = s.rooms := rfl
@[simp] theorem State.setEng_ms (s : State) (e : Nat) (x : EngSt) : (s.setEng e x).ms = s.ms := rfl
@[simp] theorem State.setEng_arbs (s : State) (e : Nat) (x : EngSt) : (s.setEng e x).arbs = s.arbs := rfl
@[simp] theorem State.setEng_mo (s : State) (e : Nat) (x : EngSt) : (s.setEng e x).mo = s.mo := rfl
@[simp] theorem State.setEng_link (s : State) (e : Nat) (x : EngSt) : (s.setEng e x).link = s.link := rfl
@[simp] theorem State.setEng_pwr (s : State) (e : Nat) (x : EngSt) : (s.setEng e x).pwr = s.pwr := rfl
@[simp] theorem State.setEng_boot (s : State) (e : Nat) (x : EngSt) : (s.setEng e x).boot = s.boot := rfl
@[simp] theorem State.setEng_hs (s : State) (e : Nat) (x : EngSt) : (s.setEng e x).hs = s.hs := rfl
@[simp] theorem State.setEng_mg (s : State) (e : Nat) (x : EngSt) : (s.setEng e x).mg = s.mg := rfl
@[simp] theorem State.setEng_jtag (s : State) (e : Nat) (x : EngSt) : (s.setEng e x).jtag = s.jtag := rfl
@[simp] theorem State.setEng_outbox (s : State) (e : Nat) (x : EngSt) : (s.setEng e x).outbox = s.outbox := rfl

@[simp] theorem State.setPort_pending (s : State) (q : Nat) (x : PortSt) : (s.setPort q x).pending = s.pending := rfl
@[simp] theorem State.setPort_freeCtr (s : State) (q : Nat) (x : PortSt) : (s.setPort q x).freeCtr = s.freeCtr := rfl
@[simp] theorem State.setPort_ts (s : State) (q : Nat) (x : PortSt) : (s.setPort q x).ts = s.ts := rfl
@[simp] theorem State.setPort_regs (s : State) (q : Nat) (x : PortSt) : (s.setPort q x).regs = s.regs := rfl
@[simp] theorem State.setPort_staged (s : State) (q : Nat) (x : PortSt) : (s.setPort q x).staged = s.staged := rfl
@[simp] theorem State.setPort_pwrites (s : State) (q : Nat) (x : PortSt) : (s.setPort q x).pwrites = s.pwrites := rfl
@[simp] theorem State.setPort_mboxBusy (s : State) (q : Nat) (x : PortSt) : (s.setPort q x).mboxBusy = s.mboxBusy := rfl
@[simp] theorem State.setPort_sealer (s : State) (q : Nat) (x : PortSt) : (s.setPort q x).sealer = s.sealer := rfl
@[simp] theorem State.setPort_latches (s : State) (q : Nat) (x : PortSt) : (s.setPort q x).latches = s.latches := rfl
@[simp] theorem State.setPort_ctxs (s : State) (q : Nat) (x : PortSt) : (s.setPort q x).ctxs = s.ctxs := rfl
@[simp] theorem State.setPort_rrLast (s : State) (q : Nat) (x : PortSt) : (s.setPort q x).rrLast = s.rrLast := rfl
@[simp] theorem State.setPort_rrLeft (s : State) (q : Nat) (x : PortSt) : (s.setPort q x).rrLeft = s.rrLeft := rfl
@[simp] theorem State.setPort_nextOrd (s : State) (q : Nat) (x : PortSt) : (s.setPort q x).nextOrd = s.nextOrd := rfl
@[simp] theorem State.setPort_rooms (s : State) (q : Nat) (x : PortSt) : (s.setPort q x).rooms = s.rooms := rfl
@[simp] theorem State.setPort_engs (s : State) (q : Nat) (x : PortSt) : (s.setPort q x).engs = s.engs := rfl
@[simp] theorem State.setPort_ms (s : State) (q : Nat) (x : PortSt) : (s.setPort q x).ms = s.ms := rfl
@[simp] theorem State.setPort_arbs (s : State) (q : Nat) (x : PortSt) : (s.setPort q x).arbs = s.arbs := rfl
@[simp] theorem State.setPort_mo (s : State) (q : Nat) (x : PortSt) : (s.setPort q x).mo = s.mo := rfl
@[simp] theorem State.setPort_pwr (s : State) (q : Nat) (x : PortSt) : (s.setPort q x).pwr = s.pwr := rfl
@[simp] theorem State.setPort_boot (s : State) (q : Nat) (x : PortSt) : (s.setPort q x).boot = s.boot := rfl
@[simp] theorem State.setPort_hs (s : State) (q : Nat) (x : PortSt) : (s.setPort q x).hs = s.hs := rfl
@[simp] theorem State.setPort_mg (s : State) (q : Nat) (x : PortSt) : (s.setPort q x).mg = s.mg := rfl
@[simp] theorem State.setPort_jtag (s : State) (q : Nat) (x : PortSt) : (s.setPort q x).jtag = s.jtag := rfl
@[simp] theorem State.setPort_outbox (s : State) (q : Nat) (x : PortSt) : (s.setPort q x).outbox = s.outbox := rfl

@[simp] theorem State.setArb_pending (s : State) (a : Nat) (x : ArbSt) : (s.setArb a x).pending = s.pending := rfl
@[simp] theorem State.setArb_freeCtr (s : State) (a : Nat) (x : ArbSt) : (s.setArb a x).freeCtr = s.freeCtr := rfl
@[simp] theorem State.setArb_ts (s : State) (a : Nat) (x : ArbSt) : (s.setArb a x).ts = s.ts := rfl
@[simp] theorem State.setArb_regs (s : State) (a : Nat) (x : ArbSt) : (s.setArb a x).regs = s.regs := rfl
@[simp] theorem State.setArb_staged (s : State) (a : Nat) (x : ArbSt) : (s.setArb a x).staged = s.staged := rfl
@[simp] theorem State.setArb_pwrites (s : State) (a : Nat) (x : ArbSt) : (s.setArb a x).pwrites = s.pwrites := rfl
@[simp] theorem State.setArb_mboxBusy (s : State) (a : Nat) (x : ArbSt) : (s.setArb a x).mboxBusy = s.mboxBusy := rfl
@[simp] theorem State.setArb_sealer (s : State) (a : Nat) (x : ArbSt) : (s.setArb a x).sealer = s.sealer := rfl
@[simp] theorem State.setArb_latches (s : State) (a : Nat) (x : ArbSt) : (s.setArb a x).latches = s.latches := rfl
@[simp] theorem State.setArb_ctxs (s : State) (a : Nat) (x : ArbSt) : (s.setArb a x).ctxs = s.ctxs := rfl
@[simp] theorem State.setArb_rrLast (s : State) (a : Nat) (x : ArbSt) : (s.setArb a x).rrLast = s.rrLast := rfl
@[simp] theorem State.setArb_rrLeft (s : State) (a : Nat) (x : ArbSt) : (s.setArb a x).rrLeft = s.rrLeft := rfl
@[simp] theorem State.setArb_nextOrd (s : State) (a : Nat) (x : ArbSt) : (s.setArb a x).nextOrd = s.nextOrd := rfl
@[simp] theorem State.setArb_rooms (s : State) (a : Nat) (x : ArbSt) : (s.setArb a x).rooms = s.rooms := rfl
@[simp] theorem State.setArb_engs (s : State) (a : Nat) (x : ArbSt) : (s.setArb a x).engs = s.engs := rfl
@[simp] theorem State.setArb_ms (s : State) (a : Nat) (x : ArbSt) : (s.setArb a x).ms = s.ms := rfl
@[simp] theorem State.setArb_mo (s : State) (a : Nat) (x : ArbSt) : (s.setArb a x).mo = s.mo := rfl
@[simp] theorem State.setArb_link (s : State) (a : Nat) (x : ArbSt) : (s.setArb a x).link = s.link := rfl
@[simp] theorem State.setArb_pwr (s : State) (a : Nat) (x : ArbSt) : (s.setArb a x).pwr = s.pwr := rfl
@[simp] theorem State.setArb_boot (s : State) (a : Nat) (x : ArbSt) : (s.setArb a x).boot = s.boot := rfl
@[simp] theorem State.setArb_hs (s : State) (a : Nat) (x : ArbSt) : (s.setArb a x).hs = s.hs := rfl
@[simp] theorem State.setArb_mg (s : State) (a : Nat) (x : ArbSt) : (s.setArb a x).mg = s.mg := rfl
@[simp] theorem State.setArb_jtag (s : State) (a : Nat) (x : ArbSt) : (s.setArb a x).jtag = s.jtag := rfl
@[simp] theorem State.setArb_outbox (s : State) (a : Nat) (x : ArbSt) : (s.setArb a x).outbox = s.outbox := rfl

@[simp] theorem State.emit_pending (s : State) (o : Out) : (s.emit o).pending = s.pending := rfl
@[simp] theorem State.emit_freeCtr (s : State) (o : Out) : (s.emit o).freeCtr = s.freeCtr := rfl
@[simp] theorem State.emit_ts (s : State) (o : Out) : (s.emit o).ts = s.ts := rfl
@[simp] theorem State.emit_regs (s : State) (o : Out) : (s.emit o).regs = s.regs := rfl
@[simp] theorem State.emit_staged (s : State) (o : Out) : (s.emit o).staged = s.staged := rfl
@[simp] theorem State.emit_pwrites (s : State) (o : Out) : (s.emit o).pwrites = s.pwrites := rfl
@[simp] theorem State.emit_mboxBusy (s : State) (o : Out) : (s.emit o).mboxBusy = s.mboxBusy := rfl
@[simp] theorem State.emit_sealer (s : State) (o : Out) : (s.emit o).sealer = s.sealer := rfl
@[simp] theorem State.emit_latches (s : State) (o : Out) : (s.emit o).latches = s.latches := rfl
@[simp] theorem State.emit_ctxs (s : State) (o : Out) : (s.emit o).ctxs = s.ctxs := rfl
@[simp] theorem State.emit_rrLast (s : State) (o : Out) : (s.emit o).rrLast = s.rrLast := rfl
@[simp] theorem State.emit_rrLeft (s : State) (o : Out) : (s.emit o).rrLeft = s.rrLeft := rfl
@[simp] theorem State.emit_nextOrd (s : State) (o : Out) : (s.emit o).nextOrd = s.nextOrd := rfl
@[simp] theorem State.emit_rooms (s : State) (o : Out) : (s.emit o).rooms = s.rooms := rfl
@[simp] theorem State.emit_engs (s : State) (o : Out) : (s.emit o).engs = s.engs := rfl
@[simp] theorem State.emit_ms (s : State) (o : Out) : (s.emit o).ms = s.ms := rfl
@[simp] theorem State.emit_arbs (s : State) (o : Out) : (s.emit o).arbs = s.arbs := rfl
@[simp] theorem State.emit_mo (s : State) (o : Out) : (s.emit o).mo = s.mo := rfl
@[simp] theorem State.emit_link (s : State) (o : Out) : (s.emit o).link = s.link := rfl
@[simp] theorem State.emit_pwr (s : State) (o : Out) : (s.emit o).pwr = s.pwr := rfl
@[simp] theorem State.emit_boot (s : State) (o : Out) : (s.emit o).boot = s.boot := rfl
@[simp] theorem State.emit_hs (s : State) (o : Out) : (s.emit o).hs = s.hs := rfl
@[simp] theorem State.emit_mg (s : State) (o : Out) : (s.emit o).mg = s.mg := rfl
@[simp] theorem State.emit_jtag (s : State) (o : Out) : (s.emit o).jtag = s.jtag := rfl

@[simp] theorem State.draw_pending (s : State) : s.draw.2.pending = s.pending := rfl
@[simp] theorem State.draw_ts (s : State) : s.draw.2.ts = s.ts := rfl
@[simp] theorem State.draw_regs (s : State) : s.draw.2.regs = s.regs := rfl
@[simp] theorem State.draw_staged (s : State) : s.draw.2.staged = s.staged := rfl
@[simp] theorem State.draw_pwrites (s : State) : s.draw.2.pwrites = s.pwrites := rfl
@[simp] theorem State.draw_mboxBusy (s : State) : s.draw.2.mboxBusy = s.mboxBusy := rfl
@[simp] theorem State.draw_sealer (s : State) : s.draw.2.sealer = s.sealer := rfl
@[simp] theorem State.draw_latches (s : State) : s.draw.2.latches = s.latches := rfl
@[simp] theorem State.draw_ctxs (s : State) : s.draw.2.ctxs = s.ctxs := rfl
@[simp] theorem State.draw_rrLast (s : State) : s.draw.2.rrLast = s.rrLast := rfl
@[simp] theorem State.draw_rrLeft (s : State) : s.draw.2.rrLeft = s.rrLeft := rfl
@[simp] theorem State.draw_nextOrd (s : State) : s.draw.2.nextOrd = s.nextOrd := rfl
@[simp] theorem State.draw_rooms (s : State) : s.draw.2.rooms = s.rooms := rfl
@[simp] theorem State.draw_engs (s : State) : s.draw.2.engs = s.engs := rfl
@[simp] theorem State.draw_ms (s : State) : s.draw.2.ms = s.ms := rfl
@[simp] theorem State.draw_arbs (s : State) : s.draw.2.arbs = s.arbs := rfl
@[simp] theorem State.draw_mo (s : State) : s.draw.2.mo = s.mo := rfl
@[simp] theorem State.draw_link (s : State) : s.draw.2.link = s.link := rfl
@[simp] theorem State.draw_pwr (s : State) : s.draw.2.pwr = s.pwr := rfl
@[simp] theorem State.draw_boot (s : State) : s.draw.2.boot = s.boot := rfl
@[simp] theorem State.draw_hs (s : State) : s.draw.2.hs = s.hs := rfl
@[simp] theorem State.draw_mg (s : State) : s.draw.2.mg = s.mg := rfl
@[simp] theorem State.draw_jtag (s : State) : s.draw.2.jtag = s.jtag := rfl
@[simp] theorem State.draw_outbox (s : State) : s.draw.2.outbox = s.outbox := rfl
@[simp] theorem State.draw_ctr (s : State) : s.draw.2.freeCtr = s.freeCtr + 1 := rfl
@[simp] theorem State.draw_val (s : State) : s.draw.1 = Config.freeNat s.freeCtr := rfl

/-! ### Units: what is read after a write of the same or another unit -/

@[simp] theorem State.ctx_setCtx_same (s : State) (k : Nat) (x : Ctx) : (s.setCtx k x).ctx k = x := FMap.get_set_same _ _ _ _
theorem State.ctx_setCtx_ne (s : State) (k j : Nat) (x : Ctx) (h : j ≠ k) : (s.setCtx k x).ctx j = s.ctx j := FMap.get_set_ne _ _ _ _ _ h
@[simp] theorem State.ctx_setReg (s : State) (k : Nat) (v : W32) (j : Nat) : (s.setReg k v).ctx j = s.ctx j := rfl
@[simp] theorem State.ctx_fset (s : State) (f : Fld) (x : Nat) (j : Nat) : (s.fset f x).ctx j = s.ctx j := rfl
@[simp] theorem State.ctx_count (s : State) (f : Fld) (x : Nat) (j : Nat) : (s.count f x).ctx j = s.ctx j := rfl
@[simp] theorem State.ctx_countSat (s : State) (f : Fld) (x : Nat) (j : Nat) : (s.countSat f x).ctx j = s.ctx j := rfl
@[simp] theorem State.ctx_forBits (s : State) (f : Fld) (x : Nat) (j : Nat) : (s.forBits f x).ctx j = s.ctx j := rfl
@[simp] theorem State.ctx_setRoom (s : State) (r : Nat) (x : RoomSt) (j : Nat) : (s.setRoom r x).ctx j = s.ctx j := rfl
@[simp] theorem State.ctx_setEng (s : State) (e : Nat) (x : EngSt) (j : Nat) : (s.setEng e x).ctx j = s.ctx j := rfl
@[simp] theorem State.ctx_setPort (s : State) (q : Nat) (x : PortSt) (j : Nat) : (s.setPort q x).ctx j = s.ctx j := rfl
@[simp] theorem State.ctx_setArb (s : State) (a : Nat) (x : ArbSt) (j : Nat) : (s.setArb a x).ctx j = s.ctx j := rfl
@[simp] theorem State.ctx_emit (s : State) (o : Out) (j : Nat) : (s.emit o).ctx j = s.ctx j := rfl

@[simp] theorem State.room_setRoom_same (s : State) (k : Nat) (x : RoomSt) : (s.setRoom k x).room k = x := FMap.get_set_same _ _ _ _
theorem State.room_setRoom_ne (s : State) (k j : Nat) (x : RoomSt) (h : j ≠ k) : (s.setRoom k x).room j = s.room j := FMap.get_set_ne _ _ _ _ _ h
@[simp] theorem State.room_setReg (s : State) (k : Nat) (v : W32) (j : Nat) : (s.setReg k v).room j = s.room j := rfl
@[simp] theorem State.room_fset (s : State) (f : Fld) (x : Nat) (j : Nat) : (s.fset f x).room j = s.room j := rfl
@[simp] theorem State.room_count (s : State) (f : Fld) (x : Nat) (j : Nat) : (s.count f x).room j = s.room j := rfl
@[simp] theorem State.room_countSat (s : State) (f : Fld) (x : Nat) (j : Nat) : (s.countSat f x).room j = s.room j := rfl
@[simp] theorem State.room_forBits (s : State) (f : Fld) (x : Nat) (j : Nat) : (s.forBits f x).room j = s.room j := rfl
@[simp] theorem State.room_setCtx (s : State) (c : Nat) (x : Ctx) (j : Nat) : (s.setCtx c x).room j = s.room j := rfl
@[simp] theorem State.room_setEng (s : State) (e : Nat) (x : EngSt) (j : Nat) : (s.setEng e x).room j = s.room j := rfl
@[simp] theorem State.room_setPort (s : State) (q : Nat) (x : PortSt) (j : Nat) : (s.setPort q x).room j = s.room j := rfl
@[simp] theorem State.room_setArb (s : State) (a : Nat) (x : ArbSt) (j : Nat) : (s.setArb a x).room j = s.room j := rfl
@[simp] theorem State.room_emit (s : State) (o : Out) (j : Nat) : (s.emit o).room j = s.room j := rfl

@[simp] theorem State.eng_setEng_same (s : State) (k : Nat) (x : EngSt) : (s.setEng k x).eng k = x := FMap.get_set_same _ _ _ _
theorem State.eng_setEng_ne (s : State) (k j : Nat) (x : EngSt) (h : j ≠ k) : (s.setEng k x).eng j = s.eng j := FMap.get_set_ne _ _ _ _ _ h
@[simp] theorem State.eng_setReg (s : State) (k : Nat) (v : W32) (j : Nat) : (s.setReg k v).eng j = s.eng j := rfl
@[simp] theorem State.eng_fset (s : State) (f : Fld) (x : Nat) (j : Nat) : (s.fset f x).eng j = s.eng j := rfl
@[simp] theorem State.eng_count (s : State) (f : Fld) (x : Nat) (j : Nat) : (s.count f x).eng j = s.eng j := rfl
@[simp] theorem State.eng_countSat (s : State) (f : Fld) (x : Nat) (j : Nat) : (s.countSat f x).eng j = s.eng j := rfl
@[simp] theorem State.eng_forBits (s : State) (f : Fld) (x : Nat) (j : Nat) : (s.forBits f x).eng j = s.eng j := rfl
@[simp] theorem State.eng_setCtx (s : State) (c : Nat) (x : Ctx) (j : Nat) : (s.setCtx c x).eng j = s.eng j := rfl
@[simp] theorem State.eng_setRoom (s : State) (r : Nat) (x : RoomSt) (j : Nat) : (s.setRoom r x).eng j = s.eng j := rfl
@[simp] theorem State.eng_setPort (s : State) (q : Nat) (x : PortSt) (j : Nat) : (s.setPort q x).eng j = s.eng j := rfl
@[simp] theorem State.eng_setArb (s : State) (a : Nat) (x : ArbSt) (j : Nat) : (s.setArb a x).eng j = s.eng j := rfl
@[simp] theorem State.eng_emit (s : State) (o : Out) (j : Nat) : (s.emit o).eng j = s.eng j := rfl

@[simp] theorem State.port_setPort_same (s : State) (k : Nat) (x : PortSt) : (s.setPort k x).port k = x := FMap.get_set_same _ _ _ _
theorem State.port_setPort_ne (s : State) (k j : Nat) (x : PortSt) (h : j ≠ k) : (s.setPort k x).port j = s.port j := FMap.get_set_ne _ _ _ _ _ h
@[simp] theorem State.port_setReg (s : State) (k : Nat) (v : W32) (j : Nat) : (s.setReg k v).port j = s.port j := rfl
@[simp] theorem State.port_fset (s : State) (f : Fld) (x : Nat) (j : Nat) : (s.fset f x).port j = s.port j := rfl
@[simp] theorem State.port_count (s : State) (f : Fld) (x : Nat) (j : Nat) : (s.count f x).port j = s.port j := rfl
@[simp] theorem State.port_countSat (s : State) (f : Fld) (x : Nat) (j : Nat) : (s.countSat f x).port j = s.port j := rfl
@[simp] theorem State.port_forBits (s : State) (f : Fld) (x : Nat) (j : Nat) : (s.forBits f x).port j = s.port j := rfl
@[simp] theorem State.port_setCtx (s : State) (c : Nat) (x : Ctx) (j : Nat) : (s.setCtx c x).port j = s.port j := rfl
@[simp] theorem State.port_setRoom (s : State) (r : Nat) (x : RoomSt) (j : Nat) : (s.setRoom r x).port j = s.port j := rfl
@[simp] theorem State.port_setEng (s : State) (e : Nat) (x : EngSt) (j : Nat) : (s.setEng e x).port j = s.port j := rfl
@[simp] theorem State.port_setArb (s : State) (a : Nat) (x : ArbSt) (j : Nat) : (s.setArb a x).port j = s.port j := rfl
@[simp] theorem State.port_emit (s : State) (o : Out) (j : Nat) : (s.emit o).port j = s.port j := rfl

@[simp] theorem State.arb_setArb_same (s : State) (k : Nat) (x : ArbSt) : (s.setArb k x).arb k = x := FMap.get_set_same _ _ _ _
theorem State.arb_setArb_ne (s : State) (k j : Nat) (x : ArbSt) (h : j ≠ k) : (s.setArb k x).arb j = s.arb j := FMap.get_set_ne _ _ _ _ _ h
@[simp] theorem State.arb_setReg (s : State) (k : Nat) (v : W32) (j : Nat) : (s.setReg k v).arb j = s.arb j := rfl
@[simp] theorem State.arb_fset (s : State) (f : Fld) (x : Nat) (j : Nat) : (s.fset f x).arb j = s.arb j := rfl
@[simp] theorem State.arb_count (s : State) (f : Fld) (x : Nat) (j : Nat) : (s.count f x).arb j = s.arb j := rfl
@[simp] theorem State.arb_countSat (s : State) (f : Fld) (x : Nat) (j : Nat) : (s.countSat f x).arb j = s.arb j := rfl
@[simp] theorem State.arb_forBits (s : State) (f : Fld) (x : Nat) (j : Nat) : (s.forBits f x).arb j = s.arb j := rfl
@[simp] theorem State.arb_setCtx (s : State) (c : Nat) (x : Ctx) (j : Nat) : (s.setCtx c x).arb j = s.arb j := rfl
@[simp] theorem State.arb_setRoom (s : State) (r : Nat) (x : RoomSt) (j : Nat) : (s.setRoom r x).arb j = s.arb j := rfl
@[simp] theorem State.arb_setEng (s : State) (e : Nat) (x : EngSt) (j : Nat) : (s.setEng e x).arb j = s.arb j := rfl
@[simp] theorem State.arb_setPort (s : State) (q : Nat) (x : PortSt) (j : Nat) : (s.setPort q x).arb j = s.arb j := rfl
@[simp] theorem State.arb_emit (s : State) (o : Out) (j : Nat) : (s.emit o).arb j = s.arb j := rfl

@[simp] theorem State.reg_setCtx (s : State) (c : Nat) (x : Ctx) (j : Nat) : (s.setCtx c x).reg j = s.reg j := rfl
@[simp] theorem State.fget_setCtx (s : State) (c : Nat) (x : Ctx) (f : Fld) : (s.setCtx c x).fget f = s.fget f := rfl
@[simp] theorem State.reg_setRoom (s : State) (r : Nat) (x : RoomSt) (j : Nat) : (s.setRoom r x).reg j = s.reg j := rfl
@[simp] theorem State.fget_setRoom (s : State) (r : Nat) (x : RoomSt) (f : Fld) : (s.setRoom r x).fget f = s.fget f := rfl
@[simp] theorem State.reg_setEng (s : State) (e : Nat) (x : EngSt) (j : Nat) : (s.setEng e x).reg j = s.reg j := rfl
@[simp] theorem State.fget_setEng (s : State) (e : Nat) (x : EngSt) (f : Fld) : (s.setEng e x).fget f = s.fget f := rfl
@[simp] theorem State.reg_setPort (s : State) (q : Nat) (x : PortSt) (j : Nat) : (s.setPort q x).reg j = s.reg j := rfl
@[simp] theorem State.fget_setPort (s : State) (q : Nat) (x : PortSt) (f : Fld) : (s.setPort q x).fget f = s.fget f := rfl
@[simp] theorem State.reg_setArb (s : State) (a : Nat) (x : ArbSt) (j : Nat) : (s.setArb a x).reg j = s.reg j := rfl
@[simp] theorem State.fget_setArb (s : State) (a : Nat) (x : ArbSt) (f : Fld) : (s.setArb a x).fget f = s.fget f := rfl
@[simp] theorem State.reg_emit (s : State) (o : Out) (j : Nat) : (s.emit o).reg j = s.reg j := rfl
@[simp] theorem State.fget_emit (s : State) (o : Out) (f : Fld) : (s.emit o).fget f = s.fget f := rfl
@[simp] theorem EngSt.slot_setSlot_same (x : EngSt) (n : Nat) (t : TaskSlot) : (x.setSlot n t).slot n = t := FMap.get_set_same _ _ _ _
theorem EngSt.slot_setSlot_ne (x : EngSt) (n m : Nat) (t : TaskSlot) (h : m ≠ n) : (x.setSlot n t).slot m = x.slot m := FMap.get_set_ne _ _ _ _ _ h
@[simp] theorem EngSt.accSlot_setAcc_same (x : EngSt) (n : Nat) (t : AccSlot) : (x.setAcc n t).accSlot n = t := FMap.get_set_same _ _ _ _
theorem EngSt.accSlot_setAcc_ne (x : EngSt) (n m : Nat) (t : AccSlot) (h : m ≠ n) : (x.setAcc n t).accSlot m = x.accSlot m := FMap.get_set_ne _ _ _ _ _ h

end Sys2Proof.Machine
end

