-- ==== Sys2Proof/Laws/Regs.lean ====
section
/-! SUPPORT. What the bus-write operations do: which writes act, what they do to the lock, which registers hold no plain
field. -/

namespace Sys2Proof.Machine

/-! ### Writes that act -/

theorem State.whole_full (s : State) (w : BusWr) (f : State → State) (hr : s.running = true) (hb : w.be = 0xF#4) :
    s.whole w f = f s := by simp [State.whole, hr, hb]

theorem State.whole_partial (s : State) (w : BusWr) (f : State → State) (hr : s.running = true) (hb : w.be ≠ 0xF#4) :
    s.whole w f = s.fset F.ACCESS_ERR.PARTIAL 1 := by simp [State.whole, hr, hb]

theorem State.busWrite_reached (s : State) (off : Nat) (w : BusWr) (f : State → State) (h : s.Reached w off) :
    s.busWrite off w f = f s := by
  rw [State.busWrite, State.whole_full _ _ _ h.1 h.2.1, if_pos h.2.2]

theorem State.busWrite_partial (s : State) (off : Nat) (w : BusWr) (f : State → State) (hr : s.running = true)
    (hb : w.be ≠ 0xF#4) : s.busWrite off w f = s.fset F.ACCESS_ERR.PARTIAL 1 := State.whole_partial _ _ _ hr hb

theorem State.openWrite_reached (s : State) (off : Nat) (w : BusWr) (k : State → State) (h : s.Reached w off) :
    s.openWrite off w k = k (s.writePlain off w.val.toNat false) := State.busWrite_reached _ _ _ _ h

theorem State.openWrite_partial (s : State) (off : Nat) (w : BusWr) (k : State → State) (hr : s.running = true)
    (hb : w.be ≠ 0xF#4) : s.openWrite off w k = s.fset F.ACCESS_ERR.PARTIAL 1 := State.whole_partial _ _ _ hr hb

theorem State.keyedWrite_partial (s : State) (off : Nat) (w : BusWr) (k : Bool → State → State) (hr : s.running = true)
    (hb : w.be ≠ 0xF#4) : s.keyedWrite off w k = s.fset F.ACCESS_ERR.PARTIAL 1 := State.whole_partial _ _ _ hr hb

/-- A keyed write closes the lock, writes the plain fields and goes on (R92). -/
theorem State.keyedWrite_keyed (s : State) (off : Nat) (w : BusWr) (k : Bool → State → State) (h : s.Reached w off)
    (hk : s.holdsKey w.req = true) : s.keyedWrite off w k = k true (s.closeLock.writePlain off w.val.toNat true) := by
  rw [State.keyedWrite, State.busWrite_reached _ _ _ _ h]
  simp [State.useKey, hk]

/-- Registers outside the keystone range and the room windows take every write. -/
theorem State.reaches_pkg (s : State) (req : Req) (off : Nat) (hk : inKeystone off = false) (hw : roomOfOff off = none) :
    s.reaches req off = true := by
  simp [State.reaches, hk, inFwPort, State.windowDead, hw]

theorem State.Reached.pkg {s : State} {w : BusWr} {off : Nat} (hr : s.running = true) (hb : w.be = 0xF#4)
    (hk : inKeystone off = false) (hw : roomOfOff off = none) : s.Reached w off := ⟨hr, hb, s.reaches_pkg _ _ hk hw⟩

/-! ### Plain fields -/

/-- Every field of the register has a row of its own or is read only. -/
def noPlain (off : Nat) : Bool :=
  match RegMap.find (off % bankStride) with
  | some r => r.fields.all fun f => f.own || f.ty == .ro || f.ty == .mb
  | none => true

theorem State.writePlain_none (s : State) (off v : Nat) (keyed : Bool) (h : noPlain off = true) :
    s.writePlain off v keyed = s := by
  have hf : ∀ (l : List FieldDef), (∀ f ∈ l, (f.own || f.ty == .ro || f.ty == .mb) = true) → ∀ t : State,
      (l.filter fun f => !f.own).foldl (fun st f => st.writeField off v keyed f) t = t := by
    intro l
    induction l with
    | nil => intros; rfl
    | cons f l ih =>
      intro h t
      have h1 := h f (List.mem_cons_self ..)
      have h2 := ih (fun g hg => h g (List.mem_cons_of_mem _ hg))
      by_cases ho : f.own = true
      · simp [ho, h2]
      · simp only [List.filter_cons, ho, Bool.not_false, if_true, List.foldl_cons]
        have : t.writeField off v keyed f = t := by
          simp only [ho, Bool.false_or, Bool.or_eq_true, beq_iff_eq] at h1
          rcases h1 with h1 | h1 <;> simp [State.writeField, h1]
        rw [this, h2]
  unfold noPlain at h
  unfold State.writePlain
  cases hr : RegMap.find (off % bankStride) with
  | none => rfl
  | some r =>
    simp only [hr] at h
    exact hf _ (by simpa using h) s

/-! ### Remap and fence registers -/

theorem noPlain_remap (r : RemapReg) : noPlain (remapOff r) = true := by
  cases r with
  | floorReg f => revert f; decide
  | roomReg f => revert f; decide

theorem noPlain_fence (r : RemapReg) : noPlain (fenceOff r) = true := by
  cases r with
  | floorReg f => revert f; decide
  | roomReg f => revert f; decide

/-- Remap and fence registers lie apart from one another. -/
theorem remapOff_ne_fenceOff (r q : RemapReg) : remapOff r ≠ fenceOff q := by
  have h : (remapOff r + fenceOff q) % 8 = 4 := by
    cases r <;> cases q <;> simp only [remapOff, fenceOff, Off.FLOOR_REMAP, Off.ENGINE_REMAP, Off.ROOM_FENCE, Off.ENGINE_FENCE, roomBase] <;> omega
  intro e
  have : (fenceOff q + fenceOff q) % 8 = 0 := by
    cases q <;> simp only [fenceOff, Off.ROOM_FENCE, Off.ENGINE_FENCE, roomBase] <;> omega
  rw [e] at h
  omega

/-- They lie above the lock's registers. -/
theorem lock_lt_remapOff (r : RemapReg) : Off.LOCK_STATUS < remapOff r := by
  cases r <;> simp only [remapOff, Off.LOCK_STATUS, Off.FLOOR_REMAP, Off.ENGINE_REMAP, roomBase] <;> omega

theorem lock_lt_fenceOff (r : RemapReg) : Off.LOCK_STATUS < fenceOff r := by
  cases r <;> simp only [fenceOff, Off.LOCK_STATUS, Off.ROOM_FENCE, Off.ENGINE_FENCE, roomBase] <;> omega

end Sys2Proof.Machine
end

