-- ==== Sys2Proof/Tests/Slice0.lean ====
section
/-! SUPPORT. The model's own tests: helper states, what WellFormed refuses, single steps whose results are stated by the
manual, and for every statement with hypotheses concrete states and operands that meet them, clause by clause. -/

namespace Sys2Proof.Tests

open Sys2Proof.Machine

set_option Elab.async false

/-- The package after start-up: it runs. -/
def up : State := { State.reset with pwr := { State.reset.pwr with hold := .up } }

/-- The package runs and the management requester holds the key. -/
def keyed : State := (up.fset F.LOCK_STATUS.OPEN 1).fset F.LOCK_STATUS.OPENER 1

/-- A whole write by the management requester. -/
def wr (v : W32) : BusWr := { req := .mgmt, be := 0xF#4, val := v }

/-- A descriptor from its nonzero fields: byte offset and value. -/
def desc (l : List (Nat × Nat)) : BitVec 2048 := BitVec.ofNat 2048 ((l.map fun p => p.2 * 256 ^ p.1).foldl (· + ·) 0)

/-- A firmware command that waits in a room. -/
def cmd0 : RoomCmd :=
  { seq := 0, src := .fw, ctx := fwCtx, desc := 0, qidx := 0, ord := 0, depSat := 15, st := .waiting, eng := none, slot := 0,
    dst := none, passed := false, tDispatch := 0, regions := [], aff := 0, shape := none, badRec := false, started := false,
    noWrite := false, undef := false, home := none, prog := none, fault := none }

/-- Room 0 with these commands. -/
def inRoom (s : State) (l : List RoomCmd) : State := s.setRoom 0 { s.room 0 with cmds := l, nextSeq := 4 }

/-- The row of the register map at an offset. -/
def rowAt (off : Nat) : RegDef :=
  (RegMap.find off).getD { name := "", base := 0, dims := [], isSeal := false, fields := [] }

/-- A context that may run: queue of 16 entries at HBM address 0x10000, latches 0 to 15. -/
def ctxOn : Ctx := { Ctx.none with live := true, qlog2 := 4, qbase := 0x10000, latchLast := 15 }

/-- Context 5 is such a context, with these indices. -/
def withCtx (h t : Nat) : State := up.setCtx 5 { ctxOn with head := h, tail := t }

/-- Memory is enabled and room 0 has a service routine and routine 1, both in bank 0. -/
def ready : State :=
  (up.fset F.MEM_CTRL.EN 1).setRoom 0 { RoomSt.reset with bank0 := [(1, 0x88), (3, 0x89)] }

/-- Partition 0 gives contexts 0 to 9 every room; context 5 waits with one descriptor. -/
def queued : State :=
  (((((ready.fset (F.PART_CTX.EN 0) 1).fset (F.PART_CTX.LAST 0) 9).fset (F.PART_ROOMS.ROOM_MASK 0) 0xFFFFFF).fset
    (F.PART_ROOMS.MAX_INBOXES 0) 4)).setCtx 5 { ctxOn with tail := 1 }

/-- A LOAD of one element to engine 0, by firmware. -/
def loadCmd : RoomCmd := { cmd0 with desc := desc [(0, 3), (0x4C, 0), (0x50, 1), (0x6C, 1)] }

/-- A SYNC with tag 9, by firmware. -/
def syncCmd : RoomCmd := { cmd0 with desc := desc [(0, 1), (4, 9)] }

/-- The same LOAD, of context 5, whose signal names latch 16. -/
def latchCmd : RoomCmd :=
  { loadCmd with src := .inbox 0, ctx := 5, desc := desc [(0, 3), (0x30, 1 + 4 * 16), (0x4C, 0), (0x50, 1), (0x6C, 1)] }

/-- Firmware code at 0x2000 of room 0's bank 0. -/
def core0 : CoreSt :=
  { CoreSt.idle with g := [(1, 0x20010), (2, 7), (3, 0xFFFFFFFF), (4, 40)], pc := 0x2000, fw := true, active := true }

/-- Room 0 runs a pair with these registers. -/
def runs (c : CoreSt) : State := ready.setRoom 0 { ready.room 0 with core := c, dmem := [(0x20010, 0x81), (0x20011, 0xF2), (0x20017, 9)] }

/-- The same without a checker. -/
def alone (c : CoreSt) : State := (runs c).fset (F.CC_ROLE.CHECK 0) 3

/-- The same pair, having interrupted these routines. -/
def saved (c : CoreSt) (l : List CoreSt) : State := (runs c).setRoom 0 { (runs c).room 0 with svcSaved := l }

/-- Room 0 has an event for its service routine. -/
def pendingEv (s : State) : State := s.setRoom 0 { s.room 0 with evDone := true }

/-- A CALL that runs in room 0. -/
def callCmd : RoomCmd := { cmd0 with desc := desc [(0, 9), (4, 77), (0x40, 1), (0x42, 1), (0x48, 5)], st := .running }

/-- Engine 0, slot 2 bound to a call. -/
def bound : CallSt := { CallSt.fresh with eng := some 0, slot := 2 }

/-- The same pair, holding slot 2 of engine 0, with these commands in the room. -/
def holds (s : State) (l : List RoomCmd) : State := s.setRoom 0 { s.room 0 with svcSt := bound, cmds := l }

/-- A descriptor on its way, with this level and ticket. -/
def readT (level ticket : Nat) : IssueRead :=
  { level := level, ticket := ticket, addr := 0x20000, eng := 0, slot := 2, ctx := fwCtx, fw := true, home := none }

/-- The same pair, whose checker has these committed instructions still to follow. -/
def follows (l : List (Option HeldAct)) : State :=
  (runs core0).setRoom 0 { (runs core0).room 0 with held := l, delay := [(core0, []), ({ core0 with pc := 4 }, [])] }

/-- The fields of a coprocessor instruction. -/
def cp (sub : BitVec 4) (gc ga gb : GReg) (imm : BitVec 8) : CpWord := { sub := sub, gc := gc, ga := ga, gb := gb, imm := imm }

/-- The pair of room 0, with nothing younger in its pipeline. -/
def p0 : Pipe := { room := 0, young := [] }

/-- Device memory of the tests: a 4 × 4 INT8 tensor descriptor at 0x1000 whose data lie at 0x2000, indices (zeros) at
0x3000, and a merge control block at 0x4000. -/
def memT : FMap Byte :=
  [(0x1001, 0x20), (0x1009, 2), (0x100C, 4), (0x1010, 4), (0x2000, 0x11), (0x2021, 0x22), (0x4003, 2), (0x4008, 4), (0x400C, 1)]

/-- A tile register: base, and 1 × 1 INT8 in 64 units. -/
def tileAt (b : Nat) : Nat := b + 2 ^ 32 + 2 ^ 48 + 64 * 2 ^ 64

/-- Room 0 and engine 0 hold this dispatched firmware command. -/
def onEng (d : RoomCmd) : State :=
  { (inRoom ready [d]).setEng 0 { EngSt.reset with
      active := some d.ctx
      slots := [(0, { TaskSlot.empty with ctx := d.ctx, used := true, cmd := some 0
                                          treg := [(0, BitVec.ofNat 128 (tileAt 0)), (1, BitVec.ofNat 128 (tileAt 64)),
                                            (2, BitVec.ofNat 128 (tileAt 128))] })] }
    with ms := { MemSt.reset with mem := memT } }

/-- A dispatched firmware command on engine 0 with these descriptor fields. -/
def task (l : List (Nat × Nat)) : RoomCmd := { cmd0 with desc := desc l, st := .running, eng := some 0 }

/-- The fields of a move of the whole tensor. -/
def moveTask (op : Nat) : RoomCmd := task [(0, op), (0x40, 0x1000), (0x50, 64), (0x5C, 4), (0x60, 4), (0x6C, 1)]

/-- The fields of a GATHER or SCATTER of two rows. -/
def gatherTask (op : Nat) : RoomCmd := task [(0, op), (0x40, 0x1000), (0x48, 0x3000), (0x50, 2), (0x5C, 64), (0x6C, 1)]

/-- A 1 × n × 1 product. -/
def mmTask (n : Nat) : RoomCmd := task [(0, 2), (0x58, 0x210), (0x60, 1), (0x64, n), (0x68, 1), (0x6C, 1)]

/-- A HALO to the same engine. -/
def haloTask : RoomCmd := task [(0, 7), (0x40, tileAt 0), (0x53, 1), (0x58, 64), (0x6C, 1)]

/-- A merge over tokens 0 to 3 in one slab with two contributions to each. -/
def mcbT : BitVec 512 := BitVec.ofNat 512 (2 * 256 ^ 3 + 4 * 256 ^ 8 + 256 ^ 12)

/-- An open merge. -/
def mergeT : Merge := { cmd := ⟨0, 0⟩, ctx := fwCtx, mtag := 0, mcb := mcbT, got := 0, entries := [], written := [], bad := false }

/-- A merge record of merge 0. -/
def recT (tok : W32) (n : Nat) : MergeRec := { ctx := fwCtx, key := ⟨0, tok, 0⟩, count := n, acc := [(3, 5)], flag := [] }

/-- Mortar stages with these records, and merge 0 open. -/
def withMo (m : MortarSt) : State := { inRoom ready [task [(0, 8)]] with mo := { m with merges := [(0, some mergeT)] } }

/-- A record of slot 0 for merge 0 and token 1. -/
def recE : EngineRec := { slot := 0, ctx := fwCtx, merge := 0, token := 1, gate := 0, slab := 0, anchor := -10, v := [(0, 1)], flag := [] }

/-- Context 6 waits in slot 1 of engine 0. -/
def twoCtx (s : State) : State :=
  (s.setRoom 0 { s.room 0 with cmds := [{ moveTask 3 with seq := 1, ctx := 6, src := .inbox 0, slot := 1 }] }).setEng 0
    (EngSt.reset.setSlot 1 { TaskSlot.empty with ctx := 6, used := true, cmd := some 1 })

/-- A block of 8 bits. -/
def blk (va : Nat) : Block := { va := va, loc := 0, nbits := 8, space := 0, kind := .raw }

/-- A stream of command 0 on engine 0. -/
def strm : Stream :=
  { id := 3, cmd := 0, slot := 0, ctx := fwCtx, isWrite := false, blocks := [blk 0x10000, blk 0x10008], nextK := 4, flight := [],
    park := none, walking := false, resumed := false, retain := false, release := false, ashlar := false, err := none }

/-- Engine 0 with a stream. -/
def withStrm (st : Stream) : State :=
  let s := onEng { moveTask 3 with started := true, ctx := st.ctx }
  s.setEng 0 { s.eng 0 with streams := [st], active := some st.ctx }

/-- The stream's name. -/
def xs : StreamRef := ⟨0, 3⟩

/-- A translation in use. -/
def useT : Used := { ctx := fwCtx, va := 0x20000, vpn := 0x20, pages := 1 }

/-- A block in flight. -/
def fly (k pa : Nat) : InFlight := { k := k, blk := blk 0x20000, pa := pa, reach := .here, use := useT }

/-- A message without data. -/
def msgT : Msg :=
  { mtype := 7, ptag := 0, src := 3, dst := 0, hops := 0, stag := 9, bseq := 5, addr := 0, ctx := 0, orig := 0, aux := 0,
    data := [], vc := 5, origin := none, held := 1, old := false, sent := 0, left := 0, via := none }

/-- Port 0 has received this message. -/
def got (m : Msg) : State := up.setPort 0 { PortSt.reset with rx := [m] }

/-- A block of 32 bits in flight to package 3 under BSEQ 5. -/
def flyR : InFlight :=
  { k := 2, blk := { blk 0x20000 with nbits := 32 }, pa := 0x830000000000 * 8, reach := .remote 5, use := useT }

/-- A stream of context 5 with that block. -/
def strmFor (wr : Bool) : Stream := { strm with ctx := 5, isWrite := wr, flight := [flyR] }

/-- Port 0 has received a message, and engine 0 has that stream. -/
def gotFor (wr : Bool) (m : Msg) : State := (withStrm (strmFor wr)).setPort 0 { PortSt.reset with rx := [m] }

/-- Window 0 of the wall covers the first 2 MiB of HBM. -/
def walled (st : Nat) : State := ((up.fset F.PW_ROLE.WALL_EN 1).fset (F.PW_SIZE.SIZE 0) 1).fset F.PW_STATUS.STATE st

/-- A wall in state STALE before this state's memory. -/
def behindWall (s : State) : State := ((s.fset F.PW_ROLE.WALL_EN 1).fset (F.PW_SIZE.SIZE 0) 1).fset F.PW_STATUS.STATE 1

/-- The same, where port 4 has received a message. -/
def wallGot (m : Msg) : State := (walled 3).setPort 4 { PortSt.reset with rx := [m], wallOk := true }

/-- A data flit with sequence number 0; the first four bytes of its payload bring the CRC register to zero. -/
def flitT (crc : W32) : Flit :=
  { hdr := 1, payload := [0x52, 0x30, 0xEB, 0x3A] ++ List.replicate 252 0, crc := crc, fecLanes := [] }
/-- The CRC of `flitT`, whatever its CRC field holds. -/
def crcT : W32 := 0xFFFFFFFF

/-- Zero bytes leave a CRC register of zero at zero. -/
theorem crc_zeros (n : Nat) : (List.replicate n (0 : Byte)).foldl crcByte 0 = 0 := by
  induction n with
  | zero => rfl
  | succ n ih => rw [List.replicate_succ, List.foldl_cons, show crcByte 0 0 = 0 from by decide]; exact ih

/-- `crcT` is the CRC of `flitT`. -/
theorem flitT_crc (c : W32) : crc32c (flitBytes (flitT c)) = crcT := by
  have h : (leList (1 : W64).toNat 8 ++ [0x52, 0x30, 0xEB, 0x3A]).foldl crcByte 0xFFFFFFFF#32 = 0 := by decide +kernel
  simp only [crc32c, flitBytes, flitT]
  rw [← List.append_assoc, List.foldl_append, h, crc_zeros]; decide

/-- A CRC field that holds the CRC is right. -/
theorem flitT_ok : crc32c (flitBytes (flitT crcT)) = (flitT crcT).crc := flitT_crc _

/-- A CRC field of zero is wrong. -/
theorem flitT_bad : crc32c (flitBytes (flitT 0)) ≠ (flitT 0).crc := by rw [flitT_crc]; decide

/-- Ports 0 to 4 in a training state. -/
def ports (st : Nat) : State := (List.range 5).foldl (fun s q => s.fset (F.PORT_STATE.STATE q) st) up

/-- What port q learns of the package with number 1 on the same ring. -/
def learned : TrainInfo :=
  { pkg := 1, ring := 0, side := 1, ringSize := 4, instVal := 7, lanes := 0x3FFFF, misLanes := 1, wallEn := true, keeperEff := true,
    winCrc := 0, logSize := 0 }

/-- A request of an engine of room 1 at floor arbiter 0. -/
def reqT : ArbReq := { input := 2, src := .engine 6, beats := 2, cycle := 1, starved := false }

/-- A message of which 40 bytes of zeros have come. -/
def partT (c : Course) : Partial := { bytes := List.replicate 40 0, need := 64, flits := 1, course := c }

/-- A boot flash with one valid directory copy, which holds an empty keystone item at 0x4000; the four bytes at 64 bring its CRC
register to zero, so that the zero bytes after them leave it there. -/
def flashT : FMap Byte :=
  [(0, 0x44), (1, 0x52), (2, 0x44), (3, 0x4A), (8, 1), (16, 3), (25, 0x40), (64, 0x74), (65, 0xF4), (66, 0x7F), (67, 0x1E),
    (0xFFC, 0xFF), (0xFFD, 0xFF), (0xFFE, 0xFF), (0xFFF, 0xFF)]

/-- The bytes of `flashT` that its directory's CRC covers. -/
theorem flashT_bytes : Mem.bytes flashT 0 0xFFC = Mem.bytes flashT 0 68 ++ List.replicate 4024 0 := by
  apply List.ext_getElem
  · simp only [Mem.bytes, List.length_map, List.length_range, List.length_append, List.length_replicate]
  · intro i h1 h2
    simp only [Mem.bytes, List.length_map, List.length_range] at h1
    by_cases h : i < 68
    · rw [List.getElem_append_left (by simpa [Mem.bytes] using h)]; simp [Mem.bytes]
    · rw [List.getElem_append_right (by simp [Mem.bytes]; omega)]
      have e : ∀ k, 68 ≤ k → k < 4092 → Mem.byte flashT k = 0 := by
        intro k a b
        simp only [Mem.byte, flashT, FMap.get, zeroByte]
        repeat rw [if_neg (by omega)]
      simp only [Mem.bytes, List.getElem_map, List.getElem_range, List.getElem_replicate, Nat.zero_add]
      exact e i (by omega) h1

/-- The CRC of the directory of `flashT`. -/
theorem flashT_crc : crc32c (Mem.bytes flashT 0 0xFFC) = 0xFFFFFFFF#32 := by
  have h : (Mem.bytes flashT 0 68).foldl crcByte 0xFFFFFFFF#32 = 0 := by decide +kernel
  simp only [crc32c, flashT_bytes, List.foldl_append, h, crc_zeros]
  decide

/-- Copy 0 of `flashT` is valid. -/
theorem flashT_valid : dirValid flashT 0 = true := by
  simp only [dirValid, dirBase, Nat.zero_mul, Nat.zero_add, flashT_crc]
  decide +kernel

/-- The boot ROM uses copy 0 when only copy 0 is valid. -/
theorem dirPick_zero (m : FMap Byte) (h0 : dirValid m 0 = true) (h1 : dirValid m 1 = false) : dirPick m = some 0 := by
  simp only [dirPick, h0, h1]

/-- A copy without the magic word is not valid. -/
theorem dirValid_magic (m : FMap Byte) (c : Nat) (h : (flashLe m (dirBase c) 4 == 0x4A445244) = false) :
    dirValid m c = false := by
  simp only [dirValid, h, Bool.false_and]

/-- The boot ROM uses copy 0 of `flashT`. -/
theorem flashT_pick : dirPick flashT = some 0 :=
  dirPick_zero flashT flashT_valid (dirValid_magic flashT 1 (by decide +kernel))

/-- A running package with the host link up. -/
def linked : State := { up with hs := { HostSt.reset with linkUp := true } }

/-- A firmware update in this step. -/
def upd (u : UpdSt) : State := { up with mg := { MgmtSt.reset with upd := u }, boot := { up.boot with flash := flashT } }

/-- The boot ROM uses copy 0 of that flash. -/
theorem upd_pick : dirPick (upd .ready).boot.flash = some 0 := flashT_pick

/-- Start-up with nothing wrong outside. -/
def envT : StartEnv :=
  { flash := none, flashOk := true, fwVersion := (1, 2), repairOk := true, remaps := [], pcRemaps := [], hbmFail := 0, sramFails := [],
    routineImage := [0, 0x88], imageCrcOk := true, cxl0 := .none, cxl1 := .none, straps := 0, pinsOk := true }

/-- A power transition under way. -/
def moving (s : State) (target origin : Nat) (closed : Bool) : State :=
  { s.fset F.PWR_STATUS.BUSY 1 with pwr := { s.pwr with trans := some ⟨target, origin, closed⟩, fwHalt := target == 2 } }

/-- The state after a step; the reset state where there is none. -/
def after : Host.Outcome State Fault Refusal → State
  | .next t => t
  | .fault _ => State.reset
  | .refused _ => State.reset

/-! ### What WellFormed refuses -/

/-- R80, R143, R147, R509: an access reaches an aligned word inside BAR0, inside a doorbell page, or past a VF's pages. -/
theorem test_register_access_off_its_target_is_ill_formed :
    (Instr.registerWrite (.bar0 0x20002) (.write (wr 1))).wellFormed = false ∧
    (Instr.registerWrite (.bar0 0x10000000) (.read .host 0xF)).wellFormed = false ∧
    (Instr.registerWrite (.page (.pf 0) 0x1000) (.write (wr 1))).wellFormed = false ∧
    (Instr.registerWrite (.vfBar2 0 0x7FFC) (.write (wr 1))).wellFormed = false ∧
    (Instr.registerWrite (.bar0 0xFFFFFFC) (.write (wr 1))).wellFormed = true := by decide

/-- R455: a flit of 255 payload bytes is no flit. -/
theorem test_short_flit_is_ill_formed :
    (Instr.flitReceive 0 { hdr := 1, payload := List.replicate 255 0, crc := 0, fecLanes := [] }).wellFormed = false := by
  decide +kernel

/-- R388: a floor cache holds 64-byte beats. -/
theorem test_unaligned_beat_is_ill_formed :
    (Instr.sramUncorrectable (.floorCacheClean 0 0x20)).wellFormed = false ∧
    (Instr.sramUncorrectable (.floorCacheModified 0 0x41)).wellFormed = false := by decide

/-- R500: RING_SIZE has seven bits. -/
theorem test_large_ring_is_ill_formed :
    (Instr.trainingStageExit 0 { learned with ringSize := 128 }).wellFormed = false := by decide

/-- R375: a routine image fills one bank at most. -/
theorem test_large_image_is_ill_formed :
    (Instr.coldResetRelease { envT with routineImage := List.replicate 0x8001 0 }).wellFormed = false := by
  simp only [Instr.wellFormed, StartEnv.ok, List.length_replicate]; decide

/-- R504, R506: a BAR4 access carries at least one byte, as many as it says, and stays inside the BAR. -/
theorem test_bar4_access_of_no_span_is_ill_formed :
    (Instr.bar4Access .pf 0 none 0).wellFormed = false ∧ (Instr.bar4Access .pf 0 (some [1, 2]) 1).wellFormed = false ∧
    (Instr.bar4Access .pf 0x7FFFFFFFFF none 2).wellFormed = false ∧
    (Instr.bar4Access (.vf 0) 0x100000000 none 1).wellFormed = false := by decide

/-- R533: a firmware slot holds 4 MiB at most. -/
theorem test_large_update_is_ill_formed :
    (Instr.updatecomponent .smbus 2 0 (List.replicate 0x400001 0)).wellFormed = false := by
  simp only [Instr.wellFormed, updateOk, List.length_replicate]; decide

/-- R513: the PF has 2,048 vectors and a VF eight. -/
theorem test_vector_past_table_is_ill_formed :
    (Instr.msixIntervalEnd (.vf 0) 8).wellFormed = false ∧ (Instr.msixIntervalEnd .pf 2048).wellFormed = false := by decide

/-- R435: a burst has a beat. -/
theorem test_empty_burst_is_ill_formed : (Instr.arbRequest 0 (.engine 0) 0 0).wellFormed = false := by decide

/-- An access of an offset that is no word's goes on (log 62). -/
theorem test_ill_formed_command_goes_on : ∃ t, exec (.registerWrite (.bar0 0x20002) (.write (wr 1))) up = .next t :=
  ⟨_, rfl⟩

/-! ### Coprocessor words -/

/-- R351, R352: MAJOR 11101 with SUB 0001, GC 3, GA 1, GB 0 and IMM 0x10 is TLOAD; with SUB 0000 it is ESEL. -/
theorem test_word_of_tload :
    decodeCp p0 0b11101000100011000010000000010000 = some (.tload p0 (cp 1 3 1 0 0x10)) ∧
    decodeCp p0 0b11101000000101000010000000000000 = some (.esel p0 (cp 0 5 1 0 0)) := by decide

/-- R351, R352: SUB 0010 is TPREF, 0011 TSTORE, 0100 EISSUE. -/
theorem test_words_of_tpref_tstore_eissue :
    decodeCp p0 0b11101001000000000010001000000111 = some (.tpref p0 (cp 2 0 1 2 7)) ∧
    decodeCp p0 0b11101001100011000010000000000000 = some (.tstore p0 (cp 3 3 1 0 0)) ∧
    decodeCp p0 0b11101010000101001100000000000000 = some (.eissue p0 (cp 4 5 6 0 0)) := by decide

/-- R351, R352: SUB 0101 is EWAIT, 0110 LSIG, 0111 LWAIT, 1000 LREAD. -/
theorem test_words_of_ewait_lsig_lwait_lread :
    decodeCp p0 0b11101010100101000100000000000000 = some (.ewait p0 (cp 5 5 2 0 0)) ∧
    decodeCp p0 0b11101011000000000100010000000001 = some (.lsig p0 (cp 6 0 2 4 1)) ∧
    decodeCp p0 0b11101011100101000100010000000011 = some (.lwait p0 (cp 7 5 2 4 3)) ∧
    decodeCp p0 0b11101100000101000100000000000000 = some (.lread p0 (cp 8 5 2 0 0)) := by decide

/-- R351: a word of another MAJOR is no coprocessor instruction. -/
theorem test_other_major : decodeCp p0 0b11100000100011000010000000010000 = none := by decide

/-! ### Results that the manual states -/

/-- The check value of CRC-32C: the CRC of the ASCII digits 1 to 9. -/
theorem test_crc32c_check_value :
    crc32c [0x31, 0x32, 0x33, 0x34, 0x35, 0x36, 0x37, 0x38, 0x39] = 0xE3069283#32 := by decide +kernel

/-- The worked example after R184: 1000, 3.0 and 3 × 2⁻⁸ pack to 0x78, 0x34 and 0x02 with scale byte 0x81. -/
theorem test_course_pack_example :
    (let p := coursePack ([0x447A, 0x4040, 0x3C40] ++ List.replicate 29 0)
     (p.take 3, p.getD 32 0)) = ([0x78#8, 0x34#8, 0x02#8], 0x81#8) := by decide +kernel

/-- The same example decoded: 1024, 3.0 and 2⁻⁶. -/
theorem test_course_unpack_example :
    (courseUnpack ([0x78, 0x34, 0x02] ++ List.replicate 29 0 ++ [0x81])).take 6 =
      [0x80#8, 0x44#8, 0x40#8, 0x40#8, 0x80#8, 0x3C#8] := by decide +kernel

/-- The example after R233: the three largest of 3.0, 7.0, 3.0 and 7.0 at columns 1, 2, 5 and 9. -/
theorem test_top_k_example :
    (topK 3 [(1, .fin 3), (2, .fin 7), (5, .fin 3), (9, .fin 7)]).map (·.1) = [2, 9, 1] := by decide +kernel

/-- R91: the key opens the lock. -/
theorem test_key_opens_lock : (after (exec (.lockKeyWrite (wr 0xA53D)) up)).fget F.LOCK_STATUS.OPEN = 1 := by decide +kernel

/-- R91: another value does not. -/
theorem test_wrong_key_closes_lock : (after (exec (.lockKeyWrite (wr 0xA53E)) keyed)).fget F.LOCK_STATUS.OPEN = 0 := by
  decide +kernel

/-- R337: registers have 32 bits; 0xFFFFFFFF plus 1 is 0. -/
theorem test_iadd_wraps : ((after (exec (.iadd p0 5 3 (.imm 1)) (runs core0))).room 0).core.rd 5 = 0 := by decide +kernel

/-- R339: a 16-bit immediate is signed: 7 − (−1) is 8. -/
theorem test_isub_signed_immediate :
    ((after (exec (.isub p0 5 2 (.imm 0xFFFF)) (runs core0))).room 0).core.rd 5 = 8 := by decide +kernel

/-- R339, log 37: CMPLT compares signed, CMPLTU unsigned: −1 < 7, and 0xFFFFFFFF is not below 7. -/
theorem test_compares :
    (((after (exec (.cmplt p0 5 3 (.reg 2)) (runs core0))).room 0).core.rd 5,
      ((after (exec (.cmpltu p0 5 3 (.reg 2)) (runs core0))).room 0).core.rd 5) = (1, 0) := by decide +kernel

/-- R339, log 37: LD8 sign-extends the byte 0x81 of data memory, LD8U does not. -/
theorem test_byte_loads :
    (((after (exec (.ld8 p0 5 1 0) (runs core0))).room 0).core.rd 5,
      ((after (exec (.ld8u p0 5 1 0) (runs core0))).room 0).core.rd 5) = (0xFFFFFF81, 0x81) := by decide +kernel

/-- R337: g0 reads zero, and writes to it are ignored. -/
theorem test_register_zero : ((after (exec (.iadd p0 0 2 (.imm 1)) (runs core0))).room 0).core.rd 0 = 0 := by decide +kernel

/-- A step on an empty queue leaves it empty (log 2). -/
theorem test_idle_step_keeps_queue : (after (step up)).pending = [] := by decide +kernel

/-! ### The machine as a whole -/

/-- Concrete states and operands meet the hypotheses of `Obligations.StepRunsFrontCommand`, clause by clause. -/
theorem test_StepRunsFrontCommand_hypotheses :
    (let c : Instr := .sealSweepEnd
    let rest : List Instr := []
    let s : State := { up with pending := [.sealSweepEnd] }
    s.pending = c :: rest) :=
  by decide +kernel

/-- Concrete states and operands meet the hypotheses of `Obligations.IdleStepCountsTimestamp`, clause by clause. -/
theorem test_IdleStepCountsTimestamp_hypotheses :
    (let s : State := up
    s.pending = [] ∧ s.running = true ∧ s.hs.barWait = []) ∧
    (let s : State := State.reset
    s.pending = [] ∧ s.running = false) :=
  by decide +kernel

/-- Concrete states and operands meet the hypotheses of `Obligations.EveryStepKeepsTheMachineWhole`, clause by clause. -/
theorem test_EveryStepKeepsTheMachineWhole_hypotheses :
    (let c : Instr := .sealSweepEnd
    let rest : List Instr := [.powerOnReset]
    let s : State := { up with pending := [.sealSweepEnd, .powerOnReset] }
    let t : State := { up with pending := [.powerOnReset] }
    s.pending = c :: rest ∧ step s = .next t ∧ s.memCanon) :=
  ⟨rfl, rfl, by unfold State.memCanon; decide +kernel⟩

/-- Concrete states and operands meet the hypotheses of `Obligations.SafeStatesStepToSafeStates`, clause by clause. -/
theorem test_SafeStatesStepToSafeStates_hypotheses :
    (let s : State := { up with pending := [.extest, .powerOnReset] }
    s.Safe) :=
  by unfold State.Safe State.memCanon State.queueCarried; decide +kernel

/-- Concrete states and operands meet the hypotheses of `Obligations.CoprocessorWordsDecodeToTheirInstruction`, clause by clause. -/
theorem test_CoprocessorWordsDecodeToTheirInstruction_hypotheses :
    (let w : W32 := 0xE0000000
    w.toNat / 2 ^ 27 ≠ 0b11101) ∧
    (let w : W32 := 0xE88C2010
    w.toNat / 2 ^ 27 = 0b11101) ∧
    (let f : CpWord := cp 1 3 1 0 16
    let g : CpWord := cpFields 0xE88C2010
    encodeCp f = encodeCp g) :=
  by decide +kernel

/-! ### Registers, lock and mailbox -/

/-- Concrete states and operands meet the hypotheses of `Obligations.PartialWritesAreIgnoredAndReported`, clause by clause. -/
theorem test_PartialWritesAreIgnoredAndReported_hypotheses :
    (let c : Instr := .memCtrlEn { req := .host, be := 7, val := 1 }
    let w : BusWr := { req := .host, be := 7, val := 1 }
    let s : State := up
    busWrOf c = some w ∧ s.running = true ∧ w.be ≠ 0xF#4) :=
  by decide +kernel

/-- Concrete states and operands meet the hypotheses of `Obligations.RegisterWriteFollowsFieldTypes`, clause by clause. -/
theorem test_RegisterWriteFollowsFieldTypes_hypotheses :
    (let off : Nat := Off.PW_GRACE
    let w : BusWr := wr 0x1234
    let s : State := up
    let r : RegDef := rowAt Off.PW_GRACE
    off < 0x10000000 ∧ off % 4 = 0 ∧ RegMap.find off = some r ∧ off ≠ Off.LOCK_STATUS ∧ s.invHeld off = false ∧
      s.Reached w off ∧ ∃ f ∈ r.fields, f.own = false ∧ f.ty = .rw) ∧
    (let off : Nat := Off.PW_LOG_BASE_LO
    let w : BusWr := wr 0x200000
    let s : State := keyed
    let r : RegDef := rowAt Off.PW_LOG_BASE_LO
    off < 0x10000000 ∧ off % 4 = 0 ∧ RegMap.find off = some r ∧ off ≠ Off.LOCK_STATUS ∧ s.invHeld off = false ∧
      s.Reached w off ∧ s.holdsKey w.req = true ∧ ∃ f ∈ r.fields, f.own = false ∧ f.ty = .k ∧
      s.kFrozen (regKey w.req off) (bitsAt w.val.toNat f.lsb f.width) = false ∧
      f.isRsv (bitsAt w.val.toNat f.lsb f.width) = false) ∧
    (let off : Nat := Off.MEM_STATUS
    let w : BusWr := wr 1
    let s : State := up
    let r : RegDef := rowAt Off.MEM_STATUS
    off < 0x10000000 ∧ off % 4 = 0 ∧ RegMap.find off = some r ∧ off ≠ Off.LOCK_STATUS ∧ s.invHeld off = false ∧
      s.Reached w off ∧ ∃ f ∈ r.fields, f.own = false ∧ f.ty = .w1c) ∧
    (let off : Nat := 0x0FF0
    let q : Req := .host
    let s : State := up
    off < 0x10000000 ∧ off % 4 = 0 ∧ s.running = true ∧ off ≠ Off.TS_LO ∧ s.lastWord q off = false ∧
      RegMap.find off = none ∧ off < 0x80000) ∧
    (let g : RegTarget := .bar0 Off.PW_GRACE
    let be : BitVec 8 := 0xFF
    let val : W64 := 5
    let s : State := up
    ∃ s1, exec (.registerWrite g (.write { req := .mgmt, be := be.setWidth 4, val := val.setWidth 32 })) s = .next s1) ∧
    (let s : State := up
    s.running = true ∧ s.flag (Fld.domBusy .aon) = false) ∧
    (let p : DbPage := .pf 5
    let s : State := withCtx 3 7
    let c : Nat := 5
    s.running = true ∧ s.pageCtx p = some c) ∧
    (let p : DbPage := .vf 3 1
    let s : State := withCtx 3 7
    let off : Nat := 0xFFC
    s.running = true ∧ s.pageCtx p = none ∧ 0x10 ≤ off ∧ off < 0x1000 ∧ off % 4 = 0) ∧
    (let s : State := up
    let off : Nat := 0xFFFC
    s.running = true ∧ 0x9004 ≤ off ∧ off < 0x10000 ∧ off % 4 = 0) :=
  by unfold State.Reached; and_intros <;> first | decide +kernel | exact ⟨_, rfl⟩

/-- Concrete states and operands meet the hypotheses of `Obligations.LockKeyOpensOrClosesTheLock`, clause by clause. -/
theorem test_LockKeyOpensOrClosesTheLock_hypotheses :
    (let w : BusWr := wr 0xA53D
    let s : State := up
    s.running = true ∧ w.be = 0xF#4 ∧ w.val.toNat % 0x10000 = 0xA53D) ∧
    (let w : BusWr := wr 0xA53C
    let s : State := keyed
    s.running = true ∧ w.be = 0xF#4 ∧ w.val.toNat % 0x10000 ≠ 0xA53D) :=
  by decide +kernel

/-- Concrete states and operands meet the hypotheses of `Obligations.WritesOfKeyedRegistersUseTheLock`, clause by clause. -/
theorem test_WritesOfKeyedRegistersUseTheLock_hypotheses :
    (let off : Nat := Off.PW_LOG_BASE_LO
    let w : BusWr := wr 0x200000
    let s : State := keyed
    let r : RegDef := rowAt Off.PW_LOG_BASE_LO
    off < 0x10000000 ∧ off % 4 = 0 ∧ RegMap.find off = some r ∧ r.hasK = true ∧ s.invHeld off = false ∧
      s.Reached w off ∧ s.holdsKey w.req = true) ∧
    (let off : Nat := Off.PW_LOG_BASE_LO
    let w : BusWr := { req := .host, be := 0xF, val := 0x200000 }
    let s : State := up
    let r : RegDef := rowAt Off.PW_LOG_BASE_LO
    off < 0x10000000 ∧ off % 4 = 0 ∧ RegMap.find off = some r ∧ r.hasK = true ∧ s.invHeld off = false ∧
      s.Reached w off ∧ s.holdsKey w.req = false) :=
  by unfold State.Reached; decide +kernel

/-- Concrete states and operands meet the hypotheses of `Obligations.StagedAndPostedWritesTakeEffect`, clause by clause. -/
theorem test_StagedAndPostedWritesTakeEffect_hypotheses :
    (let s : State := { up with staged := [(Off.PWR_CAP, some 300)] }
    let x : Nat := 300
    s.staged.get (fun _ => none) Off.PWR_CAP = some x) ∧
    (let q : PortIx := 2
    let s : State := { up.fset (F.PORT_STATE.STATE 2) 7 with staged := [(Off.PORT_CTRL 2, some 1)] }
    let x : Nat := 1
    s.isLive q.val = true ∧ s.staged.get (fun _ => none) (Off.PORT_CTRL q.val) = some x) ∧
    (let q : PortIx := 2
    let s : State := { up with staged := [(Off.PORT_CTRL 2, some 1)] }
    let x : Nat := 1
    s.isLive q.val = false ∧ s.staged.get (fun _ => none) (Off.PORT_CTRL q.val) = some x) ∧
    (let d : Domain := .aon
    let s : State := { (up.fset F.RST_CAUSE.CLOCK 1).fset F.DOMAIN_BUSY.AON 1 with
      pwrites := [⟨.aon, Off.RST_CAUSE_CLR, 0x7F⟩] }
    let p : PWrite := ⟨.aon, Off.RST_CAUSE_CLR, 0x7F⟩
    s.pwrites.find? (·.dom == d) = some p ∧ p.off = Off.RST_CAUSE_CLR) :=
  by decide +kernel

/-- Concrete states and operands meet the hypotheses of `Obligations.MailboxSelectsFetchesAndReads`, clause by clause. -/
theorem test_MailboxSelectsFetchesAndReads_hypotheses :
    (let w : BusWr := wr 1
    let s : State := up
    s.running = true ∧ w.be = 0xF#4 ∧ (s.idItem (w.val.toNat % 256)).isSome = true) ∧
    (let w : BusWr := wr 0xFF
    let s : State := up
    s.running = true ∧ w.be = 0xF#4 ∧ s.idItem (w.val.toNat % 256) = none) ∧
    (let r : Req := .mgmt
    let s : State := { up.fset (F.ID_SEL.SEL.forReq .mgmt) 3 with mboxBusy := [(reqCode .mgmt, true)] }
    let l : List W32 := ((up.fset (F.ID_SEL.SEL.forReq .mgmt) 3).idItem 3).getD []
    s.mboxBusy.get (fun _ => false) (reqCode r) = true ∧ s.idItem (s.fget (F.ID_SEL.SEL.forReq r)) = some l) ∧
    (let r : Req := .mgmt
    let s : State := (up.fset (F.ID_STATUS.VALID.forReq .mgmt) 1).fset (F.ID_STATUS.WORDS.forReq .mgmt) 2
    s.running = true ∧ s.flag (F.ID_STATUS.VALID.forReq r) = true) ∧
    (let r : Req := .host
    let s : State := (up.fset (F.ID_STATUS.VALID.forReq .mgmt) 1).fset (F.ID_STATUS.WORDS.forReq .mgmt) 2
    s.running = true ∧ s.flag (F.ID_STATUS.VALID.forReq r) = false) :=
  by decide +kernel

/-! ### Remaps, fences, failures -/

/-- Concrete states and operands meet the hypotheses of `Obligations.RemapMovesFencedPositionsToTheSpare`, clause by clause. -/
theorem test_RemapMovesFencedPositionsToTheSpare_hypotheses :
    (let r : RemapReg := .floorReg 0
    let w : BusWr := wr 0x688
    let s : State := keyed
    s.Reached w (remapOff r) ∧ s.holdsKey w.req = true ∧
      s.remapOk (remapOff r) (s.remapWish (remapOff r) w.val.toNat) = true) ∧
    (let r : RemapReg := .floorReg 0
    let w : BusWr := wr 0x000
    let s : State := keyed
    s.Reached w (remapOff r) ∧ s.holdsKey w.req = true ∧
      s.remapOk (remapOff r) (s.remapWish (remapOff r) w.val.toNat) = false) :=
  by unfold State.Reached; and_intros <;> decide +kernel

/-- Concrete states and operands meet the hypotheses of `Obligations.FencesAreRequestedDrainedAndLifted`, clause by clause. -/
theorem test_FencesAreRequestedDrainedAndLifted_hypotheses :
    (let r : RemapReg := .floorReg 1
    let w : BusWr := wr 0x1F
    let s : State := keyed
    s.Reached w (fenceOff r) ∧ s.holdsKey w.req = true) ∧
    (let e : EngIx := 7
    let s : State := up.fset (F.ENGINE_FENCE.FENCE_REQ 1) 4
    s.engFenceReq e.val = true ∧ s.engFenced e.val = false ∧ s.engQuiet e.val = true) ∧
    (let r : RoomIx := 7
    let s : State := up.fset (F.ROOM_FENCE.FENCE_REQ 1) 4
    s.roomFenceReq r.val = true ∧ s.roomFenced r.val = false ∧ s.roomQuiet r.val = true) :=
  by unfold State.Reached; and_intros <;> decide +kernel

/-- Concrete states and operands meet the hypotheses of `Obligations.DetectedFailuresFenceTheirUnit`, clause by clause. -/
theorem test_DetectedFailuresFenceTheirUnit_hypotheses :
    (let s : State := up
    let d : DieIx := 1
    s.running = true ∧ s.dieUp (1 - d.val) = true) ∧
    (let s : State := up.fenceDieUnits 0
    let d : DieIx := 1
    s.running = true ∧ s.dieUp (1 - d.val) = false) ∧
    (let a : BitVec 48 := 0x40
    let s : State := up
    s.running = true ∧ a.toNat % 64 = 0) :=
  by and_intros <;> decide +kernel

/-! ### Seal and keystone -/

/-- Concrete states and operands meet the hypotheses of `Obligations.SealSweepsCommitsAndTheKeystoneWindow`, clause by clause. -/
theorem test_SealSweepsCommitsAndTheKeystoneWindow_hypotheses :
    (let s : State := up
    s.running = true ∧ s.sealer.commit = none) ∧
    (let s : State := { ((up.fset F.SEAL_CTRL.ARMED 1).fset F.SEAL_REF.REF 4) with sealer := { up.sealer with sweep := some 5 } }
    let crc : W32 := 5
    s.sealer.sweep = some crc ∧ s.flag F.SEAL_CTRL.ARMED = true ∧ s.flag F.SEAL_CTRL.HOLD = false ∧ crc ≠ s.reg Off.SEAL_REF) ∧
    (let s : State := { up with sealer := { up.sealer with sweep := some 5 } }
    let crc : W32 := 5
    s.sealer.sweep = some crc ∧
      (s.flag F.SEAL_CTRL.ARMED = false ∨ s.flag F.SEAL_CTRL.HOLD = true ∨ crc = s.reg Off.SEAL_REF)) ∧
    (let s : State := { up.fset F.SEAL_CTRL.HOLD 1 with sealer := { up.sealer with holdCount := 200 } }
    s.flag F.SEAL_CTRL.HOLD = true ∧ 200 ≤ s.sealer.holdCount) ∧
    (let w : BusWr := wr 2
    let s : State := keyed
    s.Reached w Off.SEAL_CTRL ∧ s.holdsKey w.req = true ∧ bitAt w.val.toNat 1 = true) ∧
    (let s : State := { up with sealer := { up.sealer with commit := some (7, true) } }
    let crc : W32 := 7
    let arms : Bool := true
    s.sealer.commit = some (crc, arms)) ∧
    (let w : BusWr := wr 1
    let s : State := keyed
    w.req = .mgmt ∧ s.running = true ∧ w.be = 0xF#4 ∧ s.holdsKey .mgmt = true ∧ bitAt w.val.toNat 0 = true ∧
      s.flag F.KEYSTONE_CTRL.SET = false) ∧
    (let off : Nat := 0x1000
    let w : BusWr := { req := .host, be := 15, val := 1 }
    inKeystone off = true ∧ off % 4 = 0 ∧ w.req = .host ∧ w.be = 0xF#4) ∧
    (let off : Nat := 0x1000
    let s : State := up.fset F.KEYSTONE_CTRL.SET 1
    inKeystone off = true ∧ off % 4 = 0 ∧ s.flag F.KEYSTONE_CTRL.SET = true) :=
  by unfold State.Reached; and_intros <;> decide +kernel

/-! ### Queues -/

/-- Concrete states and operands meet the hypotheses of `Obligations.QueuePagesTakeTailsAndReportDepths`, clause by clause. -/
theorem test_QueuePagesTakeTailsAndReportDepths_hypotheses :
    (let p : DbPage := .pf 5
    let w : BusWr := wr 3
    let s : State := withCtx 14 15
    let c : Nat := 5
    s.running = true ∧ w.be = 0xF#4 ∧ s.pageCtx p = some c ∧ (s.ctx c).stopped = false ∧
      w.val.toNat % 2 ^ 20 < (s.ctx c).qsize ∧
      (s.ctx c).depth + (w.val.toNat % 2 ^ 20 + (s.ctx c).qsize - (s.ctx c).tail) % (s.ctx c).qsize ≤ (s.ctx c).qsize
        - 1) ∧
    (let p : DbPage := .pf 5
    let w : BusWr := wr 15
    let s : State := withCtx 14 0
    let c : Nat := 5
    s.running = true ∧ w.be = 0xF#4 ∧ s.pageCtx p = some c ∧ (s.ctx c).stopped = false ∧
      w.val.toNat % 2 ^ 20 < (s.ctx c).qsize ∧
      (s.ctx c).qsize - 1 < (s.ctx c).depth + (w.val.toNat % 2 ^ 20 + (s.ctx c).qsize - (s.ctx c).tail) % (s.ctx
        c).qsize) ∧
    (let p : DbPage := .pf 5
    let w : BusWr := wr 3
    let s : State := up
    s.running = true ∧ w.be = 0xF#4 ∧ s.pageCtx p = none) ∧
    (let p : DbPage := .vf 0 0
    let s : State := up
    s.running = true ∧ s.pageCtx p = none) ∧
    (let p : DbPage := .pf 5
    let s : State := withCtx 2 7
    let c : Nat := 5
    s.running = true ∧ s.pageCtx p = some c ∧ ((s.ctx c).compat = false ∨ (s.ctx c).depth ≠ (s.ctx c).qsize - 1)) ∧
    (let p : DbPage := .pf 5
    let s : State := up.setCtx 5 { ctxOn with head := 2, tail := 1, compat := true }
    let c : Nat := 5
    s.running = true ∧ s.pageCtx p = some c ∧ (s.ctx c).compat = true ∧ (s.ctx c).depth = (s.ctx c).qsize - 1) ∧
    (let p : DbPage := .pf 5
    let s : State := up.setCtx 5 { ctxOn with head := 2, tail := 1, compat := true, heldReads := [.pf 5] }
    let c : Nat := 5
    let late : Bool := true
    s.pageCtx p = some c ∧ p ∈ (s.ctx c).heldReads ∧ (late = true ∨ (s.ctx c).depth ≠ (s.ctx c).qsize - 1)) :=
  by and_intros <;> decide +kernel

/-- Concrete states and operands meet the hypotheses of `Obligations.DeliveryPutsTheHeadIntoAnInbox`, clause by clause. -/
theorem test_DeliveryPutsTheHeadIntoAnInbox_hypotheses :
    (let s : State := queued
    let c : Nat := 5
    s.nextQueue = some c ∧ s.nextDelivery c = .bind 0 0) ∧
    (let s : State := queued.setRoom 0 { queued.room 0 with inboxes := [(2, { ctx := 5, bound := true })] }
    let c : Nat := 5
    s.nextQueue = some c ∧ s.nextDelivery c = .inbox 0 2) ∧
    (let s : State := queued.fset (F.PART_ROOMS.ROOM_MASK 0) 2
    let c : Nat := 5
    s.nextQueue = some c ∧ s.nextDelivery c = .fault placeInfo) :=
  by and_intros <;> decide +kernel

/-! ### Commands of a room -/

/-- Concrete states and operands meet the hypotheses of `Obligations.ReadyCommandsAreDispatched`, clause by clause. -/
theorem test_ReadyCommandsAreDispatched_hypotheses :
    (let c : CmdRef := ⟨0, 0⟩
    let s : State := inRoom ready [loadCmd]
    let d : RoomCmd := loadCmd
    let e : Nat := 0
    let n : Nat := 0
    s.cmd c = some d ∧ d.st = .waiting ∧ d.fault = none ∧ s.mayGo c.room.val d = true ∧
      (d.isTenant = true ∨ d.passed = true ∨ s.breaksAt c.room.val d = false) ∧
      usesEngine (dOpcode d.desc) = true ∧ s.engineOf c.room.val d = some e ∧ s.engFenced e = false ∧
      s.engFenceReq e = false ∧ s.boardFree c.room.val d (s.cmdRegions c.room.val d) = true ∧ s.slotsFree d e = true ∧
      s.taskSlotFor d e = some n ∧ s.latchBad d = false ∧ dShapeRt d.desc = false ∧ dAgen d.desc ≠ 2 ∧
      dTrace d.desc = false) ∧
    (let c : CmdRef := ⟨0, 0⟩
    let s : State := inRoom ready [syncCmd]
    let d : RoomCmd := syncCmd
    s.cmd c = some d ∧ d.st = .waiting ∧ d.fault = none ∧ s.mayGo c.room.val d = true ∧
      (d.isTenant = true ∨ d.passed = true ∨ s.breaksAt c.room.val d = false) ∧
      (dOpcode d.desc = 1 ∨ dOpcode d.desc = 8 ∨ dOpcode d.desc = 9) ∧ s.latchBad d = false ∧ dAgen d.desc ≠ 2 ∧
      dTrace d.desc = false) ∧
    (let c : CmdRef := ⟨0, 0⟩
    let s : State := (inRoom ready [loadCmd]).fset (F.ENGINE_FENCE.FENCE_REQ 0) 1
    let d : RoomCmd := loadCmd
    s.cmd c = some d ∧ d.st = .waiting ∧ d.fault = none ∧ s.mayGo c.room.val d = true ∧
      (d.isTenant = true ∨ d.passed = true ∨ s.breaksAt c.room.val d = false) ∧
      s.verdict c.room.val d = .wait) ∧
    (let c : CmdRef := ⟨0, 0⟩
    let s : State := (inRoom ready [loadCmd]).setEngFenced 0 true
    let d : RoomCmd := loadCmd
    let i : FaultInfo := fenceInfo causeUnitFence (physPlace 0)
    s.cmd c = some d ∧ d.st = .waiting ∧ d.fault = none ∧ s.mayGo c.room.val d = true ∧
      (d.isTenant = true ∨ d.passed = true ∨ s.breaksAt c.room.val d = false) ∧
      s.verdict c.room.val d = .fault i) ∧
    (let c : CmdRef := ⟨0, 0⟩
    let s : State := (inRoom ready [loadCmd]).fset (F.ENGINE_FENCE.FENCE_REQ 0) 1
    let d : RoomCmd := loadCmd
    let e : Nat := 0
    usesEngine (dOpcode d.desc) = true ∧ s.engineOf c.room.val d = some e ∧
      (s.boardFree c.room.val d (s.cmdRegions c.room.val d) = false ∨
        (s.engFenced e = false ∧ (s.engFenceReq e = true ∨ s.slotsFree d e = false ∨ s.taskSlotFor d e = none)))) ∧
    (let c : CmdRef := ⟨0, 0⟩
    let s : State := (inRoom ready [latchCmd]).setCtx 5 ctxOn
    let d : RoomCmd := latchCmd
    let e : Nat := 0
    usesEngine (dOpcode d.desc) = true ∧ s.engineOf c.room.val d = some e ∧
      s.boardFree c.room.val d (s.cmdRegions c.room.val d) = true ∧ s.engFenced e = false ∧ s.engFenceReq e = false ∧
      s.slotsFree d e = true ∧ (s.taskSlotFor d e).isSome = true ∧ s.latchBad d = true) ∧
    (let c : CmdRef := ⟨0, 0⟩
    let s : State := (inRoom ready [loadCmd]).setEngFenced 0 true
    let d : RoomCmd := loadCmd
    let e : Nat := 0
    usesEngine (dOpcode d.desc) = true ∧ s.engineOf c.room.val d = some e ∧
      s.boardFree c.room.val d (s.cmdRegions c.room.val d) = true ∧ s.engFenced e = true ∧ s.latchBad d = false) ∧
    (let c : CmdRef := ⟨0, 0⟩
    let s : State := ((inRoom ready [syncCmd]).fset (F.BRK_CTRL.MODE 0) 2).fset (F.BRK_TAG.TAG 0) 9
    let d : RoomCmd := syncCmd
    s.cmd c = some d ∧ d.st = .waiting ∧ d.fault = none ∧ s.mayGo c.room.val d = true ∧ d.isTenant = false ∧
      d.passed = false ∧ s.breaksAt c.room.val d = true ∧ s.verdict c.room.val d ≠ .wait) :=
  by and_intros <;> decide +kernel

/-- Concrete states and operands meet the hypotheses of `Obligations.EndedCommandsLeaveTheirRoom`, clause by clause. -/
theorem test_EndedCommandsLeaveTheirRoom_hypotheses :
    (let c : CmdRef := ⟨0, 0⟩
    let s : State := inRoom ready [{ cmd0 with st := .done }]
    let d : RoomCmd := { cmd0 with st := .done }
    s.cmd c = some d ∧ (s.room c.room.val).complete d = true) ∧
    (let c : CmdRef := ⟨0, 0⟩
    let s : State := inRoom ready [{ cmd0 with fault := some placeInfo }]
    let d : RoomCmd := { cmd0 with fault := some placeInfo }
    let i : FaultInfo := placeInfo
    s.cmd c = some d ∧ (s.room c.room.val).faultOf d = some i) ∧
    (let s : State := queued.setCtx 5 { ctxOn with faulted := true }
    let c : Nat := 5
    (s.ctx c).faulted = true) ∧
    (let c : CmdRef := ⟨0, 0⟩
    let s : State := inRoom ready [{ syncCmd with st := .running }]
    let d : RoomCmd := { syncCmd with st := .running }
    s.plainStart c 1 = some d ∧ syncLegal d.desc = true ∧ (∀ k ∈ (s.room c.room.val).cmds, ¬(k.ctx = d.ctx ∧
      k.isTenant = d.isTenant ∧ k.ord < d.ord)) ∧ (∀ g ∈ (s.ctx d.ctx).deadTags, ¬(g.2.2 = d.deadAt c.room.val ∧
      g.2.1 < d.ord))) :=
  by and_intros <;> decide +kernel

/-- Concrete states and operands meet the hypotheses of `Obligations.FirmwarePortCopiesAndBreaks`, clause by clause. -/
theorem test_FirmwarePortCopiesAndBreaks_hypotheses :
    (let r : RoomIx := 0
    let w : BusWr := wr 1
    let s : State := up
    s.Reached w (Off.FW_CTRL r.val) ∧ bitAt w.val.toNat 0 = true ∧ bitAt w.val.toNat 1 = false ∧
      (s.room r.val).fwDepth < 16 ∧ s.fwPlaceFault r.val (dPlace (s.fwDesc r.val)) = none) ∧
    (let r : RoomIx := 0
    let w : BusWr := wr 1
    let s : State := up.setRoomFenced 0 true
    let i : FaultInfo := fenceInfo causeUnitFence (s.placeIn 0 0)
    s.Reached w (Off.FW_CTRL r.val) ∧ bitAt w.val.toNat 0 = true ∧ bitAt w.val.toNat 1 = false ∧
      (s.room r.val).fwDepth < 16 ∧ s.fwPlaceFault r.val (dPlace (s.fwDesc r.val)) = some i ∧
      (∀ k ∈ (s.room r.val).cmds, k.seq ≠ (s.room r.val).nextSeq)) ∧
    (let r : RoomIx := 0
    let w : BusWr := wr 0x53
    let s : State := up
    s.Reached w (Off.FW_CTRL r.val) ∧ bitAt w.val.toNat 0 = true ∧ bitAt w.val.toNat 1 = true ∧
      (s.room r.val).fwDepth < 16 ∧ (s.ctx (bitsAt w.val.toNat 4 11)).live = false) ∧
    (let r : RoomIx := 0
    let w : BusWr := wr 1
    let s : State := inRoom up (List.replicate 16 cmd0)
    s.Reached w (Off.FW_CTRL r.val) ∧ bitAt w.val.toNat 0 = true ∧ 16 ≤ (s.room r.val).fwDepth) ∧
    (let r : RoomIx := 0
    let w : BusWr := wr 2
    let s : State := up.setRoom 0 { RoomSt.reset with brkSeen := 3, brkFired := true }
    s.Reached w (Off.BRK_CTRL r.val)) ∧
    (let r : RoomIx := 0
    let w : BusWr := wr 4
    let d : RoomCmd := { syncCmd with st := .held }
    let s : State := (inRoom ready [d]).fset (F.BRK_STATUS.HALTED 0) 1
    let d2 := { d with st := .waiting, passed := true }
    let s2 := (s.fset (F.BRK_STATUS.HALTED r.val) 0).updCmd r.val d.seq fun _ => d2
    s.Reached w (Off.BRK_CTRL r.val) ∧ bitAt w.val.toNat 2 = true ∧
      (s.room r.val).cmds.find? (fun c => c.st == .held) = some d ∧ d.fault = none ∧ s2.mayGo r.val d2 = true) ∧
    (let r : RoomIx := 0
    let w : BusWr := wr 4
    let d : RoomCmd := { syncCmd with st := .held }
    let s : State := (inRoom up [d]).fset (F.BRK_STATUS.HALTED 0) 1
    let d2 := { d with st := .waiting, passed := true }
    let s2 := (s.fset (F.BRK_STATUS.HALTED r.val) 0).updCmd r.val d.seq fun _ => d2
    s.Reached w (Off.BRK_CTRL r.val) ∧ bitAt w.val.toNat 2 = true ∧
      (s.room r.val).cmds.find? (fun c => c.st == .held) = some d ∧ (d.fault ≠ none ∨ s2.mayGo r.val d2 = false)) ∧
    (let r : RoomIx := 0
    let w : BusWr := wr 4
    let s : State := ready
    s.Reached w (Off.BRK_CTRL r.val) ∧ bitAt w.val.toNat 2 = true ∧
      (s.room r.val).cmds.find? (fun c => c.st == .held) = none) :=
  by unfold State.Reached; and_intros <;> decide +kernel

/-! ### Control cores -/

/-- Concrete states and operands meet the hypotheses of `Obligations.IntegerInstructionsWriteTheirResult`, clause by clause. -/
theorem test_IntegerInstructionsWriteTheirResult_hypotheses :
    (let r : Pipe := p0
    let s : State := runs core0
    s.Executes r.val) :=
  by unfold State.Executes; and_intros <;> decide +kernel

/-- Concrete states and operands meet the hypotheses of `Obligations.ShiftsAndBitCountsWriteTheirResult`, clause by clause. -/
theorem test_ShiftsAndBitCountsWriteTheirResult_hypotheses :
    (let r : Pipe := p0
    let b : Src2 := .imm 31
    let s : State := runs core0
    let n := ((s.room r.val).core.src2 b).toNat
    s.Executes r.val ∧ n < 32) ∧
    (let r : Pipe := p0
    let b : Src2 := .imm 32
    let s : State := runs core0
    let n := ((s.room r.val).core.src2 b).toNat
    s.Executes r.val ∧ 32 ≤ n) :=
  by unfold State.Executes; and_intros <;> decide +kernel

/-- Concrete states and operands meet the hypotheses of `Obligations.DataMemoryLoadsReadTheirBytes`, clause by clause. -/
theorem test_DataMemoryLoadsReadTheirBytes_hypotheses :
    (let r : Pipe := p0
    let ra : GReg := 1
    let off : BitVec 16 := 1
    let s : State := runs core0
    let c := (s.room r.val).core
    let a := c.memAddr ra off
    s.Executes r.val ∧ dmOk c.fw a 1 = true) ∧
    (let r : Pipe := p0
    let ra : GReg := 1
    let off : BitVec 16 := 65534
    let s : State := runs core0
    let c := (s.room r.val).core
    let a := c.memAddr ra off
    s.Executes r.val ∧ dmOk c.fw a 2 = true) ∧
    (let r : Pipe := p0
    let ra : GReg := 1
    let off : BitVec 16 := 4
    let s : State := runs core0
    let c := (s.room r.val).core
    let a := c.memAddr ra off
    s.Executes r.val ∧ dmOk c.fw a 4 = true) ∧
    (let r : Pipe := p0
    let rd : GReg := 6
    let ra : GReg := 1
    let off : BitVec 16 := 0
    let s : State := runs core0
    let c := (s.room r.val).core
    let a := c.memAddr ra off
    s.Executes r.val ∧ dmOk c.fw a 8 = true ∧ rd.val % 2 = 0) ∧
    (let r : Pipe := p0
    let ra : GReg := 3
    let off : BitVec 16 := 0
    let s : State := runs core0
    let c := (s.room r.val).core
    let a := c.memAddr ra off
    s.Executes r.val ∧ dmOk c.fw a 1 = false) ∧
    (let r : Pipe := p0
    let ra : GReg := 1
    let off : BitVec 16 := 1
    let s : State := runs core0
    let c := (s.room r.val).core
    let a := c.memAddr ra off
    s.Executes r.val ∧ dmOk c.fw a 2 = false) ∧
    (let r : Pipe := p0
    let ra : GReg := 1
    let off : BitVec 16 := 2
    let s : State := runs core0
    let c := (s.room r.val).core
    let a := c.memAddr ra off
    s.Executes r.val ∧ dmOk c.fw a 4 = false) ∧
    (let r : Pipe := p0
    let rd : GReg := 6
    let ra : GReg := 1
    let off : BitVec 16 := 4
    let s : State := runs core0
    let c := (s.room r.val).core
    let a := c.memAddr ra off
    s.Executes r.val ∧ dmOk c.fw a 8 = false ∧ rd.val % 2 = 0) ∧
    (let r : Pipe := p0
    let rd : GReg := 7
    let s : State := runs core0
    s.Executes r.val ∧ rd.val % 2 = 1) :=
  by unfold State.Executes; and_intros <;> decide +kernel

/-- Concrete states and operands meet the hypotheses of `Obligations.DataMemoryStoresWriteTheirBytes`, clause by clause. -/
theorem test_DataMemoryStoresWriteTheirBytes_hypotheses :
    (let r : Pipe := p0
    let ra : GReg := 1
    let off : BitVec 16 := 1
    let s : State := runs core0
    let c := (s.room r.val).core
    let a := c.memAddr ra off
    s.Executes r.val ∧ dmOk c.fw a 1 = true) ∧
    (let r : Pipe := p0
    let ra : GReg := 1
    let off : BitVec 16 := 65534
    let s : State := runs core0
    let c := (s.room r.val).core
    let a := c.memAddr ra off
    s.Executes r.val ∧ dmOk c.fw a 2 = true) ∧
    (let r : Pipe := p0
    let ra : GReg := 1
    let off : BitVec 16 := 4
    let s : State := runs core0
    let c := (s.room r.val).core
    let a := c.memAddr ra off
    s.Executes r.val ∧ dmOk c.fw a 4 = true) ∧
    (let r : Pipe := p0
    let rs : GReg := 6
    let ra : GReg := 1
    let off : BitVec 16 := 0
    let s : State := runs core0
    let c := (s.room r.val).core
    let a := c.memAddr ra off
    s.Executes r.val ∧ dmOk c.fw a 8 = true ∧ rs.val % 2 = 0) ∧
    (let r : Pipe := p0
    let ra : GReg := 3
    let off : BitVec 16 := 0
    let s : State := runs core0
    let c := (s.room r.val).core
    let a := c.memAddr ra off
    s.Executes r.val ∧ dmOk c.fw a 1 = false) ∧
    (let r : Pipe := p0
    let ra : GReg := 1
    let off : BitVec 16 := 1
    let s : State := runs core0
    let c := (s.room r.val).core
    let a := c.memAddr ra off
    s.Executes r.val ∧ dmOk c.fw a 2 = false) ∧
    (let r : Pipe := p0
    let ra : GReg := 1
    let off : BitVec 16 := 2
    let s : State := runs core0
    let c := (s.room r.val).core
    let a := c.memAddr ra off
    s.Executes r.val ∧ dmOk c.fw a 4 = false) ∧
    (let r : Pipe := p0
    let rs : GReg := 6
    let ra : GReg := 1
    let off : BitVec 16 := 4
    let s : State := runs core0
    let c := (s.room r.val).core
    let a := c.memAddr ra off
    s.Executes r.val ∧ dmOk c.fw a 8 = false ∧ rs.val % 2 = 0) ∧
    (let r : Pipe := p0
    let rs : GReg := 7
    let s : State := runs core0
    s.Executes r.val ∧ rs.val % 2 = 1) :=
  by unfold State.Executes; and_intros <;> decide +kernel

/-- Concrete states and operands meet the hypotheses of `Obligations.BranchesMoveTheProgramCounter`, clause by clause. -/
theorem test_BranchesMoveTheProgramCounter_hypotheses :
    (let r : Pipe := p0
    let ra : GReg := 4
    let s : State := runs core0
    let x := (s.room r.val).core.rd ra.val
    s.Executes r.val ∧ r.young = [] ∧ x.toNat % 4 = 0 ∧ x.toNat < 0x8000) ∧
    (let r : Pipe := p0
    let ra : GReg := 3
    let s : State := runs core0
    let x := (s.room r.val).core.rd ra.val
    s.Executes r.val ∧ r.young = [] ∧ (x.toNat % 4 ≠ 0 ∨ 0x8000 ≤ x.toNat)) ∧
    (let r : Pipe := { room := 0, young := [.tpref 0x10000 1] }
    let i : Instr := .jmp r 8
    let s : State := runs core0
    s.Executes r.val ∧ i ∈ [Instr.brz r.room 1 8 r.young, .brnz r.room 1 8 r.young, .breq r.room 1 2 8 r.young,
      .brne r.room 1 2 8 r.young, .brlt r.room 1 2 8 r.young, .brltu r.room 1 2 8 r.young,
      .jmp r 8, .jmpr r 1]) :=
  by unfold State.Executes; and_intros <;> decide +kernel

/-- Concrete states and operands meet the hypotheses of `Obligations.CallsNestAndReturn`, clause by clause. -/
theorem test_CallsNestAndReturn_hypotheses :
    (let r : Pipe := p0
    let rt : Fin 4096 := 1
    let s : State := runs core0
    s.Executes r.val ∧ r.young = [] ∧ (s.room r.val).core.stack.length < 16 ∧
      callable (s.room r.val).core.fw (routineEntry ((s.room r.val).bank (s.room r.val).core.bank) rt.val) = true) ∧
    (let r : Pipe := p0
    let rt : Fin 4096 := 1
    let s : State := runs { core0 with stack := List.replicate 16 8 }
    s.Executes r.val ∧ (16 ≤ (s.room r.val).core.stack.length ∨
      callable (s.room r.val).core.fw (routineEntry ((s.room r.val).bank (s.room r.val).core.bank) rt.val) = false)) ∧
    (let r : Pipe := p0
    let rt : Fin 4096 := 2
    let s : State := runs core0
    s.Executes r.val ∧ (16 ≤ (s.room r.val).core.stack.length ∨
      callable (s.room r.val).core.fw (routineEntry ((s.room r.val).bank (s.room r.val).core.bank) rt.val) = false)) ∧
    (let r : Pipe := p0
    let s : State := runs { core0 with stack := [12, 8] }
    let a : Nat := 12
    let rest : List Nat := [8]
    s.Executes r.val ∧ r.young = [] ∧ (s.room r.val).core.stack = a :: rest) ∧
    (let r : Pipe := p0
    let s1 : State := alone { core0 with call := some 0 }
    let s : State := s1.setRoom 0 { s1.room 0 with callSt := some CallSt.fresh }
    s.Executes r.val ∧ r.young = [] ∧ (s.room r.val).core.stack = [] ∧ (s.room r.val).core.call = some 0 ∧
      (s.room r.val).callSt = some CallSt.fresh ∧ s.hasChecker r.val = false) ∧
    (let r : Pipe := p0
    let s1 : State := runs { core0 with call := some 0 }
    let s : State := s1.setRoom 0 { s1.room 0 with callSt := some CallSt.fresh }
    s.Executes r.val ∧ r.young = [] ∧ (s.room r.val).core.stack = [] ∧ (s.room r.val).core.call = some 0 ∧
      (s.room r.val).callSt = some CallSt.fresh ∧ s.hasChecker r.val = true) ∧
    (let r : Pipe := p0
    let s : State := alone core0
    s.Executes r.val ∧ r.young = [] ∧ (s.room r.val).core.stack = [] ∧ (s.room r.val).core.call = none ∧
      s.hasChecker r.val = false) :=
  by unfold State.Executes; and_intros <;> decide +kernel

/-- Concrete states and operands meet the hypotheses of `Obligations.SystemInstructionsActAtTheirLevel`, clause by clause. -/
theorem test_SystemInstructionsActAtTheirLevel_hypotheses :
    (let r : Pipe := p0
    let s : State := alone core0
    let c := (s.room r.val).core
    s.Executes r.val ∧ c.fw = true ∧ s.hasChecker r.val = false) ∧
    (let r : Pipe := p0
    let s : State := runs core0
    let c := (s.room r.val).core
    s.Executes r.val ∧ c.fw = true ∧ s.hasChecker r.val = true) ∧
    (let r : Pipe := p0
    let s : State := runs { core0 with call := some 0 }
    let c := (s.room r.val).core
    s.Executes r.val ∧ c.fw = true ∧ c.call.isSome = true) ∧
    (let r : Pipe := p0
    let s : State := runs core0
    let c := (s.room r.val).core
    s.Executes r.val ∧ c.fw = true ∧ c.call = none ∧ (s.room r.val).svcSaved = []) ∧
    (let r : Pipe := p0
    let s : State := saved core0 [core0]
    let c := (s.room r.val).core
    s.Executes r.val ∧ c.fw = true ∧ c.call = none ∧ (s.room r.val).svcSaved = [core0] ∧ core0.wait = .none) ∧
    (let r : Pipe := p0
    let s : State := runs { core0 with fw := false }
    let c := (s.room r.val).core
    s.Executes r.val ∧ c.fw = false) :=
  by unfold State.Executes; and_intros <;> decide +kernel

/-- Concrete states and operands meet the hypotheses of `Obligations.CallStartsTheRoutineAtItsEntry`, clause by clause. -/
theorem test_CallStartsTheRoutineAtItsEntry_hypotheses :
    (let c : CmdRef := ⟨0, 0⟩
    let d : RoomCmd := callCmd
    let s : State := inRoom ready [d]
    let e : Nat := 0x8900
    s.plainStart c 9 = some d ∧ callLegal d.desc = true ∧ s.coresOn c.room.val = true ∧
      (s.room c.room.val).core = CoreSt.idle ∧ (s.room c.room.val).svcSaved = [] ∧
      e = routineEntry ((s.room c.room.val).bank (s.fget (F.RS_CTRL.ACTIVE c.room.val))) (dRoutine d.desc) ∧
      callable (!d.isTenant) e = true) ∧
    (let c : CmdRef := ⟨0, 0⟩
    let d : RoomCmd := { callCmd with desc := desc [(0, 9), (4, 77), (0x40, 2), (0x42, 1), (0x48, 5)] }
    let s : State := inRoom ready [d]
    let e : Nat := 0
    s.plainStart c 9 = some d ∧ callLegal d.desc = true ∧ s.coresOn c.room.val = true ∧
      (s.room c.room.val).core = CoreSt.idle ∧ (s.room c.room.val).svcSaved = [] ∧
      e = routineEntry ((s.room c.room.val).bank (s.fget (F.RS_CTRL.ACTIVE c.room.val))) (dRoutine d.desc) ∧
      callable (!d.isTenant) e = false) :=
  by and_intros <;> decide +kernel

/-- Concrete states and operands meet the hypotheses of `Obligations.ServiceEntriesAndLimitsInterruptRoutines`, clause by clause. -/
theorem test_ServiceEntriesAndLimitsInterruptRoutines_hypotheses :
    (let r : RoomIx := 0
    let s : State := pendingEv (runs { core0 with call := some 0, fw := false, wait := .haltw })
    s.mayEnter r.val = true ∧ s.flag (F.CC_ROLE.JOINING r.val) = false ∧ (s.room r.val).core.active = true) ∧
    (let r : RoomIx := 0
    let s : State := pendingEv ready
    s.mayEnter r.val = true ∧ s.flag (F.CC_ROLE.JOINING r.val) = false ∧ (s.room r.val).core.active = false) ∧
    (let r : RoomIx := 0
    let s : State := ready
    s.mayEnter r.val = false) ∧
    (let r : RoomIx := 0
    let s1 : State := (runs { core0 with call := some 0, fw := false }).fset (F.ROUTINE_LIMIT.LIMIT 0) 9
    let s : State := s1.setRoom 0 { s1.room 0 with cmds := [{ callCmd with ctx := 5, src := .inbox 0 }] }
    let q : Nat := 0
    s.coresOn r.val = true ∧ s.fget F.PWR_STATUS.STATE = 0 ∧ (s.room r.val).core.active = true ∧
      (s.room r.val).core.call = some q ∧ (s.room r.val).core.fw = false ∧ s.fget (F.ROUTINE_LIMIT.LIMIT r.val) ≠ 0) :=
  by and_intros <;> decide +kernel

/-! ### Coprocessor group -/

/-- Concrete states and operands meet the hypotheses of `Obligations.EselBindsAFreeTaskSlot`, clause by clause. -/
theorem test_EselBindsAFreeTaskSlot_hypotheses :
    (let r : Pipe := p0
    let f : CpWord := cp 0 5 0 0 0
    let s : State := alone core0
    let le := ((s.room r.val).core.rd f.ga.val).toNat % 8
    s.Executes r.val ∧ f.sub = 0 ∧ f.gb = 0 ∧ f.imm = 0 ∧ (s.room r.val).cop.eng = none ∧ s.hasChecker r.val = false ∧
      s.physEng r.val le = some 0 ∧ (s.eng 0).freeSlotOf = some 0) ∧
    (let r : Pipe := p0
    let f : CpWord := cp 0 5 2 0 0
    let s : State := alone core0
    let le := ((s.room r.val).core.rd f.ga.val).toNat % 8
    s.Executes r.val ∧ f.sub = 0 ∧ f.gb = 0 ∧ f.imm = 0 ∧ (s.room r.val).cop.eng = none ∧ s.hasChecker r.val = false ∧
      s.physEng r.val le = none) ∧
    (let r : Pipe := p0
    let f : CpWord := cp 0 5 0 0 0
    let s : State := (alone core0).setEng 0
      { EngSt.reset with slots := (List.range 4).map fun n => (n, { TaskSlot.empty with used := true }) }
    let le := ((s.room r.val).core.rd f.ga.val).toNat % 8
    s.Executes r.val ∧ f.sub = 0 ∧ f.gb = 0 ∧ f.imm = 0 ∧ (s.room r.val).cop.eng = none ∧ s.hasChecker r.val = false ∧
      s.physEng r.val le = some 0 ∧ (s.eng 0).freeSlotOf = none) ∧
    (let r : Pipe := p0
    let f : CpWord := cp 0 5 2 0 0
    let s : State := holds (alone core0) []
    let le := ((s.room r.val).core.rd f.ga.val).toNat % 8
    s.Executes r.val ∧ f.sub = 0 ∧ f.gb = 0 ∧ f.imm = 0 ∧ (s.room r.val).cop.eng = some 0 ∧ (s.room r.val).slotIdle = true ∧
      s.hasChecker r.val = false ∧ s.physEng r.val le = none) ∧
    (let r : Pipe := p0
    let f : CpWord := cp 0 5 2 0 0
    let s : State := holds (alone core0) [{ syncCmd with src := .issued 1 0, eng := some 0, slot := 2 }]
    s.Executes r.val ∧ f.sub = 0 ∧ f.gb = 0 ∧ f.imm = 0 ∧ (s.room r.val).slotIdle = false) ∧
    (let r : Pipe := p0
    let f : CpWord := cp 0 5 2 0 0
    let s : State := holds (runs core0) []
    s.Executes r.val ∧ f.sub = 0 ∧ f.gb = 0 ∧ f.imm = 0 ∧ (s.room r.val).slotIdle = true ∧ s.hasChecker r.val = true) ∧
    (let r : Pipe := p0
    let f : CpWord := cp 9 0 0 0 0
    let i : Instr := .tload r f
    let s : State := runs core0
    s.Executes r.val ∧ 9 ≤ f.sub.toNat ∧ i ∈ [Instr.esel r f, .tload r f, .tpref r f, .tstore r f, .eissue r f,
      .ewait r f, .lsig r f, .lwait r f, .lread r f]) :=
  by unfold State.Executes; and_intros <;> decide +kernel

/-- Concrete states and operands meet the hypotheses of `Obligations.TileRegistersAreLoadedAndStored`, clause by clause. -/
theorem test_TileRegistersAreLoadedAndStored_hypotheses :
    (let r : Pipe := p0
    let f : CpWord := cp 1 3 1 0 0
    let s : State := holds (alone core0) []
    let e : Nat := 0
    s.Executes r.val ∧ f.sub = 1 ∧ f.gc.val < 16 ∧ f.gb = 0 ∧ (s.room r.val).cop.eng = some e ∧
      (s.room r.val).tloads.length < 8 ∧ dmOk (s.room r.val).core.fw (tileAddr (s.room r.val).core f) 16 = true ∧
      s.hasChecker r.val = false) ∧
    (let r : RoomIx := 0
    let s : State := ready.setRoom 0 { ready.room 0 with tloads := [⟨4, 0, 2, 3, 99, some true⟩] }
    let k : TloadEnt := ⟨4, 0, 2, 3, 99, some true⟩
    (s.room r.val).tloads.find? (fun t => t.commit.isSome) = some k ∧
      (((s.eng k.eng).slot k.slot).bound = false ∨ (s.room r.val).holdsSlot k.eng k.slot = true)) ∧
    (let r : RoomIx := 0
    let s : State := ready.setRoom 0 { ready.room 0 with tloads := [⟨4, 0, 2, 3, 99, some false⟩] }
    let k : TloadEnt := ⟨4, 0, 2, 3, 99, some false⟩
    (s.room r.val).tloads.find? (fun t => t.commit.isSome) = some k ∧ ((s.eng k.eng).slot k.slot).bound = false) ∧
    (let r : Pipe := p0
    let f : CpWord := cp 3 3 1 0 0
    let s : State := (holds (runs core0) []).setEng 0
      (EngSt.reset.setSlot 2 { TaskSlot.empty with treg := [(3, 0x1234)], bound := true })
    let e : Nat := 0
    s.Executes r.val ∧ f.sub = 3 ∧ f.gc.val < 16 ∧ f.gb = 0 ∧ (s.room r.val).cop.eng = some e ∧
      (∀ k ∈ (s.room r.val).tloads, k.eng = e → k.slot = (s.room r.val).cop.slot → k.treg = f.gc.val →
        k.commit = some false) ∧
      dmOk (s.room r.val).core.fw (tileAddr (s.room r.val).core f) 16 = true) ∧
    (let r : Pipe := p0
    let f : CpWord := cp 2 0 1 2 0
    let s : State := runs { core0 with fw := true, ctx := fwCtx }
    let c := (s.room r.val).core
    let va := ((c.rd f.gb.val).toNat % 2 ^ 25 * 2 ^ 32 + (c.rd f.ga.val).toNat) / 4096 * 4096
    s.Executes r.val ∧ f.sub = 2 ∧ f.gc = 0 ∧ f.imm.toNat < 8 ∧ f.imm = 0 ∧
      s.xlate r.val c.ctx va false = (.ok va, s) ∧ s.isFar va = false) :=
  by unfold State.Executes; and_intros <;> decide +kernel

/-- Concrete states and operands meet the hypotheses of `Obligations.IssuedCommandsEnterTheRoom`, clause by clause. -/
theorem test_IssuedCommandsEnterTheRoom_hypotheses :
    (let r : Pipe := p0
    let f : CpWord := cp 4 5 6 0 0
    let s : State := holds (alone { core0 with g := [(6, 0x20000)] }) []
    let e : Nat := 0
    s.Executes r.val ∧ f.sub = 4 ∧ f.gb = 0 ∧ f.imm = 0 ∧ (s.room r.val).cop.eng = some e ∧
      dmOk (s.room r.val).core.fw ((s.room r.val).core.rd f.ga.val).toNat 256 = true ∧
      (s.room r.val).outstanding (s.room r.val).level < 16 ∧ s.hasChecker r.val = false) ∧
    (let r : Pipe := p0
    let f : CpWord := cp 4 5 6 0 0
    let s : State := holds (runs { core0 with g := [(6, 0x20000)] }) []
    let e : Nat := 0
    s.Executes r.val ∧ f.sub = 4 ∧ f.gb = 0 ∧ f.imm = 0 ∧ (s.room r.val).cop.eng = some e ∧
      dmOk (s.room r.val).core.fw ((s.room r.val).core.rd f.ga.val).toNat 256 = true ∧
      (s.room r.val).outstanding (s.room r.val).level < 16 ∧ s.hasChecker r.val = true) ∧
    (let r : RoomIx := 0
    let i : IssueRead := readT 1 1
    let s : State := ready.setRoom 0 { ready.room 0 with dmem := [(0x20000, 1)], reading := [i] }
    let rest : List IssueRead := []
    (s.room r.val).reading = i :: rest ∧ s.issueOk r.val (noEngine ((s.room r.val).issuedDesc i)) = true ∧
      (∀ k ∈ (s.room r.val).cmds, k.seq ≠ (s.room r.val).nextSeq)) ∧
    (let r : RoomIx := 0
    let i : IssueRead := readT 0 1
    let k : RoomCmd := callCmd
    let s : State := ready.setRoom 0 { ready.room 0 with dmem := [(0x20000, 9)], reading := [i], cmds := [callCmd] }
    let rest : List IssueRead := []
    (s.room r.val).reading = i :: rest ∧ s.issueOk r.val (noEngine ((s.room r.val).issuedDesc i)) = false ∧ i.level = 0 ∧
      i.ticket < 65536 ∧ (s.room r.val).cmds.find? (fun c => dOpcode c.desc == 9 && c.st == .running) = some k) ∧
    (let r : Pipe := p0
    let f : CpWord := cp 5 5 2 0 0
    let s : State := runs core0
    let x := s.room r.val
    let k := (x.core.rd f.ga.val).toNat % 65536
    s.Executes r.val ∧ f.sub = 5 ∧ f.gb = 0 ∧ f.imm = 0 ∧ x.ticketOpen x.level k = false ∧ x.cop.ended = []) ∧
    (let r : Pipe := p0
    let f : CpWord := cp 5 5 2 0 0
    let s : State := (runs core0).setRoom 0 { (runs core0).room 0 with svcSt := { bound with ended := [(7, 1)] } }
    let x := s.room r.val
    let k := (x.core.rd f.ga.val).toNat % 65536
    s.Executes r.val ∧ f.sub = 5 ∧ f.gb = 0 ∧ f.imm = 0 ∧ x.ticketOpen x.level k = false ∧ x.cop.ended = (k, 1) :: []) ∧
    (let r : Pipe := p0
    let f : CpWord := cp 5 5 2 0 0
    let s : State := (runs core0).setRoom 0 { (runs core0).room 0 with reading := [readT 1 7] }
    let x := s.room r.val
    let k := (x.core.rd f.ga.val).toNat % 65536
    s.Executes r.val ∧ f.sub = 5 ∧ f.gb = 0 ∧ f.imm = 0 ∧ x.ticketOpen x.level k = true) :=
  by unfold State.Executes; and_intros <;> decide +kernel

/-- Concrete states and operands meet the hypotheses of `Obligations.LatchesAreSetReadSignalledAndAwaited`, clause by clause. -/
theorem test_LatchesAreSetReadSignalledAndAwaited_hypotheses :
    (let w : BusWr := wr 5
    let s : State := { up with latches := [(7, 41)] }
    s.running = true ∧ w.be = 0xF#4 ∧ s.fget (F.LATCH_SEL.LATCH.forReq w.req) < 15360 ∧ s.flag F.PW_CTRL.MODE = false) ∧
    (let r : Pipe := p0
    let f : CpWord := cp 8 5 2 0 0
    let s : State := { runs core0 with latches := [(7, 41)] }
    let c := (s.room r.val).core
    let l := (c.rd f.ga.val).toNat % 2 ^ 14
    s.Executes r.val ∧ (c.fw = true ∨ s.latchIn c.ctx l = true) ∧ f.sub = 8 ∧ f.gb = 0 ∧ f.imm = 0) ∧
    (let r : Pipe := p0
    let f : CpWord := cp 7 5 2 4 2
    let s : State := { runs core0 with latches := [(7, 41)] }
    let c := (s.room r.val).core
    let l := (c.rd f.ga.val).toNat % 2 ^ 14
    let x := (c.rd f.gb.val).toNat
    s.Executes r.val ∧ (c.fw = true ∨ s.latchIn c.ctx l = true) ∧ f.sub = 7 ∧ (f.imm = 2 ∨ f.imm = 3) ∧
      latchHolds f.imm.toNat (s.latchVal l) x = true) ∧
    (let r : Pipe := p0
    let f : CpWord := cp 7 5 2 4 3
    let s : State := { runs core0 with latches := [(7, 41)] }
    let c := (s.room r.val).core
    let l := (c.rd f.ga.val).toNat % 2 ^ 14
    let x := (c.rd f.gb.val).toNat
    s.Executes r.val ∧ (c.fw = true ∨ s.latchIn c.ctx l = true) ∧ f.sub = 7 ∧ (f.imm = 2 ∨ f.imm = 3) ∧
      latchHolds f.imm.toNat (s.latchVal l) x = false) ∧
    (let r : Pipe := p0
    let f : CpWord := cp 6 0 2 4 1
    let s : State := { alone core0 with latches := [(7, 41)] }
    let c := (s.room r.val).core
    let l := (c.rd f.ga.val).toNat % 2 ^ 14
    s.Executes r.val ∧ (c.fw = true ∨ s.latchIn c.ctx l = true) ∧ f.sub = 6 ∧ f.gc = 0 ∧ (f.imm = 1 ∨ f.imm = 2) ∧
      s.hasChecker r.val = false) ∧
    (let r : Pipe := p0
    let f : CpWord := cp 6 0 2 4 2
    let s : State := { runs core0 with latches := [(7, 41)] }
    let c := (s.room r.val).core
    let l := (c.rd f.ga.val).toNat % 2 ^ 14
    s.Executes r.val ∧ (c.fw = true ∨ s.latchIn c.ctx l = true) ∧ f.sub = 6 ∧ f.gc = 0 ∧ (f.imm = 1 ∨ f.imm = 2) ∧
      s.hasChecker r.val = true) ∧
    (let r : Pipe := p0
    let f : CpWord := cp 8 5 2 0 0
    let s : State := { runs { core0 with fw := false, ctx := 6 } with latches := [(7, 41)] }
    let c := (s.room r.val).core
    let l := (c.rd f.ga.val).toNat % 2 ^ 14
    s.Executes r.val ∧ c.fw = false ∧ s.latchIn c.ctx l = false ∧ f.sub = 8 ∧ f.gb = 0 ∧ f.imm = 0) ∧
    (let r : Pipe := p0
    let f : CpWord := cp 7 5 2 0 2
    let s : State := { runs { core0 with fw := false, ctx := 6 } with latches := [(7, 41)] }
    let c := (s.room r.val).core
    let l := (c.rd f.ga.val).toNat % 2 ^ 14
    s.Executes r.val ∧ c.fw = false ∧ s.latchIn c.ctx l = false ∧ f.sub = 7 ∧ (f.imm = 2 ∨ f.imm = 3)) ∧
    (let r : Pipe := p0
    let f : CpWord := cp 6 0 2 0 0
    let s : State := { runs { core0 with fw := false, ctx := 6 } with latches := [(7, 41)] }
    let c := (s.room r.val).core
    let l := (c.rd f.ga.val).toNat % 2 ^ 14
    s.Executes r.val ∧ c.fw = false ∧ s.latchIn c.ctx l = false ∧ f.sub = 6 ∧ f.gc = 0 ∧ f.imm.toNat < 3) :=
  by unfold State.Executes; and_intros <;> decide +kernel

/-! ### Lockstep and routine store -/

/-- Concrete states and operands meet the hypotheses of `Obligations.LockstepComparesAndLosesTheChecker`, clause by clause. -/
theorem test_LockstepComparesAndLosesTheChecker_hypotheses :
    (let r : RoomIx := 0
    let a : Option HeldAct := some (.signal 1 3 4)
    let s : State := follows [a, none]
    s.coresOn r.val = true ∧ s.hasChecker r.val = true ∧ (s.room r.val).held = a :: [none] ∧
      (s.room r.val).delay = (core0, []) :: [({ core0 with pc := 4 }, [])]) ∧
    (let r : RoomIx := 0
    let a : Option HeldAct := some (.read (readT 1 0))
    let s : State := follows [a, none]
    s.coresOn r.val = true ∧ s.hasChecker r.val = true ∧ (s.room r.val).held = a :: [none] ∧
      (s.room r.val).delay = (core0, []) :: [({ core0 with pc := 4 }, [])] ∧
      (∀ op l v, a ≠ some (.signal op l v)) ∧ (∀ gc le, a ≠ some (.esel gc le))) ∧
    (let r : RoomIx := 0
    let m : CommitRec := ⟨0x2000, [], none, none⟩
    let k : CommitRec := ⟨4, [], none, none⟩
    let rails : Bool := true
    let parity : Bool := true
    let s : State := runs core0
    s.coresOn r.val = true ∧ s.hasChecker r.val = true ∧ (m ≠ k ∨ rails = false ∨ parity = false)) ∧
    (let r : RoomIx := 0
    let m : CommitRec := ⟨4, [], none, none⟩
    let k : CommitRec := ⟨4, [], none, none⟩
    let rails : Bool := false
    let parity : Bool := true
    let s : State := runs core0
    s.coresOn r.val = true ∧ s.hasChecker r.val = true ∧ (m ≠ k ∨ rails = false ∨ parity = false)) ∧
    (let r : RoomIx := 0
    let m : CommitRec := ⟨4, [], none, none⟩
    let k : CommitRec := ⟨4, [], none, none⟩
    let rails : Bool := true
    let parity : Bool := false
    let s : State := runs core0
    s.coresOn r.val = true ∧ s.hasChecker r.val = true ∧ (m ≠ k ∨ rails = false ∨ parity = false)) ∧
    (let r : RoomIx := 0
    let s : State := { ready with ts := 0x123456789 }
    s.coresOn r.val = true ∧ s.hasChecker r.val = true) :=
  by and_intros <;> first | decide +kernel | exact fun _ _ => nofun | exact fun _ _ _ => nofun

/-- Concrete states and operands meet the hypotheses of `Obligations.SparesAreSwappedInOrRefused`, clause by clause. -/
theorem test_SparesAreSwappedInOrRefused_hypotheses :
    (let r : RoomIx := 0
    let w : BusWr := wr 1
    let s : State := keyed.fset (F.CC_ROLE.UNVERIFIED 0) 1
    s.Reached w (Off.LS_CTRL r.val) ∧ s.holdsKey w.req = true ∧ bitAt w.val.toNat 0 = true ∧
      s.flag (F.CC_ROLE.UNVERIFIED r.val) = true ∧ s.fget (F.CC_ROLE.SPARE r.val) ≠ 3 ∧
      s.flag (F.CC_ROLE.JOINING r.val) = false ∧
      bitAt w.val.toNat 1 = false) ∧
    (let r : RoomIx := 0
    let w : BusWr := wr 3
    let s : State := keyed.fset (F.CC_ROLE.UNVERIFIED 0) 1
    s.Reached w (Off.LS_CTRL r.val) ∧ s.holdsKey w.req = true ∧ bitAt w.val.toNat 0 = true ∧
      s.flag (F.CC_ROLE.UNVERIFIED r.val) = true ∧ s.fget (F.CC_ROLE.SPARE r.val) ≠ 3 ∧
      s.flag (F.CC_ROLE.JOINING r.val) = false ∧
      bitAt w.val.toNat 1 = true) ∧
    (let r : RoomIx := 0
    let w : BusWr := wr 1
    let s : State := keyed
    s.Reached w (Off.LS_CTRL r.val) ∧ s.holdsKey w.req = true ∧ bitAt w.val.toNat 0 = true ∧
      (s.flag (F.CC_ROLE.UNVERIFIED r.val) = false ∨
      s.fget (F.CC_ROLE.SPARE r.val) = 3 ∨ s.flag (F.CC_ROLE.JOINING r.val) = true)) ∧
    (let r : RoomIx := 0
    let s : State := up.fset (F.CC_ROLE.JOINING 0) 1
    s.coresOn r.val = true ∧ s.flag (F.CC_ROLE.JOINING r.val) = true) ∧
    (let r : RoomIx := 0
    let s1 : State := (pendingEv ready).fset (F.CC_ROLE.JOINING 0) 1
    let s : State := s1.setRoom 0 { s1.room 0 with copied := true }
    s.coresOn r.val = true ∧ s.flag (F.CC_ROLE.JOINING r.val) = true ∧ (s.room r.val).copied = true ∧
      s.mayEnter r.val = true) :=
  by unfold State.Reached; and_intros <;> decide +kernel

/-- Concrete states and operands meet the hypotheses of `Obligations.RoutineStoreIsWrittenCheckedAndFlipped`, clause by clause. -/
theorem test_RoutineStoreIsWrittenCheckedAndFlipped_hypotheses :
    (let r : RoomIx := 0
    let word : BitVec 13 := 5
    let w : BusWr := wr 0x01020300
    let s : State := up
    s.Reached w (roomBase r.val + 0x18000 + 4 * word.toNat) ∧ s.roomOut r.val = false ∧
      (s.room r.val).checking = false ∧ s.flag (F.RS_CTRL.DRAINING r.val) = false) ∧
    (let r : RoomIx := 0
    let word : BitVec 13 := 5
    let w : BusWr := wr 0x01020300
    let s : State := up.setRoom 0 { RoomSt.reset with checking := true }
    s.Reached w (roomBase r.val + 0x18000 + 4 * word.toNat) ∧ s.roomOut r.val = false ∧
      ((s.room r.val).checking = true ∨ s.flag (F.RS_CTRL.DRAINING r.val) = true)) ∧
    (let r : RoomIx := 0
    let w : BusWr := wr 2
    let s : State := up
    s.Reached w (Off.RS_CTRL r.val) ∧ bitAt w.val.toNat 1 = true ∧ s.roomPowered r.val = true ∧
      bitAt w.val.toNat 3 = false ∧ bitAt w.val.toNat 5 = false ∧
      (s.room r.val).checking = false ∧ s.flag (F.RS_CTRL.DRAINING r.val) = false) ∧
    (let r : RoomIx := 0
    let w : BusWr := wr 2
    let s : State := up.fset (F.RS_CTRL.DRAINING 0) 1
    s.Reached w (Off.RS_CTRL r.val) ∧ bitAt w.val.toNat 1 = true ∧ s.roomPowered r.val = true ∧
      bitAt w.val.toNat 3 = false ∧ bitAt w.val.toNat 5 = false ∧
      ((s.room r.val).checking = true ∨ s.flag (F.RS_CTRL.DRAINING r.val) = true)) ∧
    (let r : RoomIx := 0
    let s : State := up.setRoom 0 { RoomSt.reset with checking := true }
    (s.room r.val).checking = true ∧ s.roomPowered r.val = true) ∧
    (let r : RoomIx := 0
    let s : State := ready.fset (F.RS_CTRL.DRAINING 0) 1
    s.flag (F.RS_CTRL.DRAINING r.val) = true ∧ s.roomPowered r.val = true ∧
      (s.room r.val).runsOn (s.inactive r.val) = false) ∧
    (let r : RoomIx := 0
    let s : State := runs core0
    s.roomPowered r.val = true) :=
  by unfold State.Reached; and_intros <;> decide +kernel

/-! ### Data moves and computation -/

/-- Concrete states and operands meet the hypotheses of `Obligations.DataMovesBecomeStreams`, clause by clause. -/
theorem test_DataMovesBecomeStreams_hypotheses :
    (let c : CmdRef := ⟨0, 0⟩
    let d : RoomCmd := { moveTask 3 with src := .inbox 0, ctx := 5 }
    let s : State := (onEng d).setCtx 5 ctxOn
    let e : Nat := 0
    let wr : Bool := false
    let r := c.room.val
    let pl := if dPlist d.desc then s.readOrPark r d.ctx (dAgenWord d.desc) (16 * dRepeat d.desc) else ((SRead.empty, none), s)
    let l := mvInsts d (leOfList pl.1.1.bytes)
    let m := pl.2.readMoves r d e l
    s.startable c (if wr then 4 else 3) = some (d, e) ∧ pl.1.2 = none ∧ m.1.wait = some 0x1000) ∧
    (let c : CmdRef := ⟨0, 0⟩
    let d : RoomCmd := { task [(0, 3), (0x40, 0x1000), (0x50, 64), (0x5C, 4), (0x60, 4), (0x6A, 1), (0x6C, 1)] with src := .issued 1 0 }
    let s : State := onEng d
    let e : Nat := 0
    let wr : Bool := false
    let r := c.room.val
    let pl := if dPlist d.desc then s.readOrPark r d.ctx (dAgenWord d.desc) (16 * dRepeat d.desc) else ((SRead.empty, none), s)
    let l := mvInsts d (leOfList pl.1.1.bytes)
    let m := pl.2.readMoves r d e l
    let legal := !d.badRec && moveWordsOk d.desc && agenOk d.desc d.aff.toNat &&
      l.all fun i => mvLegal wr d.desc (m.1.tdOf i) i d.colsOf
    s.startable c (if wr then 4 else 3) = some (d, e) ∧ pl.1.2 = none ∧ m.1.wait = none ∧ m.1.bad = false ∧ pl.1.1.bad = false ∧
      legal = false ∧ d.isIssued = true) ∧
    (let c : CmdRef := ⟨0, 0⟩
    let d : RoomCmd := task [(0, 3), (0x40, 0x1000), (0x50, 64), (0x5C, 0), (0x60, 4), (0x6C, 1)]
    let s : State := onEng d
    let e : Nat := 0
    let wr : Bool := false
    let r := c.room.val
    let pl := if dPlist d.desc then s.readOrPark r d.ctx (dAgenWord d.desc) (16 * dRepeat d.desc) else ((SRead.empty, none), s)
    let l := mvInsts d (leOfList pl.1.1.bytes)
    let m := pl.2.readMoves r d e l
    let legal := !d.badRec && moveWordsOk d.desc && agenOk d.desc d.aff.toNat &&
      l.all fun i => mvLegal wr d.desc (m.1.tdOf i) i d.colsOf
    s.startable c (if wr then 4 else 3) = some (d, e) ∧ pl.1.2 = none ∧ m.1.wait = none ∧ m.1.bad = false ∧ pl.1.1.bad = false ∧
      legal = true ∧ (d.colsOf = 0 ∨ ∀ i ∈ l, i.rows = 0)) ∧
    (let c : CmdRef := ⟨0, 0⟩
    let d : RoomCmd := moveTask 3
    let s : State := onEng d
    let e : Nat := 0
    let wr : Bool := false
    let r := c.room.val
    let pl := if dPlist d.desc then s.readOrPark r d.ctx (dAgenWord d.desc) (16 * dRepeat d.desc) else ((SRead.empty, none), s)
    let l := mvInsts d (leOfList pl.1.1.bytes)
    let m := pl.2.readMoves r d e l
    let p := m.2.mvBlocks r d e m.1 l
    let legal := !d.badRec && moveWordsOk d.desc && agenOk d.desc d.aff.toNat &&
      l.all fun i => mvLegal wr d.desc (m.1.tdOf i) i d.colsOf
    s.startable c (if wr then 4 else 3) = some (d, e) ∧ pl.1.2 = none ∧ m.1.wait = none ∧ m.1.bad = false ∧ pl.1.1.bad = false ∧
      legal = true ∧ d.colsOf ≠ 0 ∧ (∃ i ∈ l, i.rows ≠ 0) ∧ p.1 ≠ []) ∧
    (let c : CmdRef := ⟨0, 0⟩
    let d : RoomCmd := moveTask 4
    let s : State := onEng d
    let e : Nat := 0
    let wr : Bool := true
    let r := c.room.val
    let pl := if dPlist d.desc then s.readOrPark r d.ctx (dAgenWord d.desc) (16 * dRepeat d.desc) else ((SRead.empty, none), s)
    let l := mvInsts d (leOfList pl.1.1.bytes)
    let m := pl.2.readMoves r d e l
    let p := m.2.mvBlocks r d e m.1 l
    let legal := !d.badRec && moveWordsOk d.desc && agenOk d.desc d.aff.toNat &&
      l.all fun i => mvLegal wr d.desc (m.1.tdOf i) i d.colsOf
    s.startable c (if wr then 4 else 3) = some (d, e) ∧ pl.1.2 = none ∧ m.1.wait = none ∧ m.1.bad = false ∧ pl.1.1.bad = false ∧
      legal = true ∧ d.colsOf ≠ 0 ∧ (∃ i ∈ l, i.rows ≠ 0) ∧ p.1 ≠ []) ∧
    (let c : CmdRef := ⟨0, 0⟩
    let d : RoomCmd := gatherTask 5
    let s : State := onEng d
    let e : Nat := 0
    let wr : Bool := false
    let r := c.room.val
    let p := s.readOrPark r d.ctx (dTd d.desc) 64
    let td := Tensor.of (leOfList p.1.1.bytes)
    let legal := gatherOk d td && (List.range (dRepeat d.desc)).all fun n =>
      moveBaseOk (dGSpace d.desc) ((gatherRegs d n).getD 0 0) (dGSize d.desc)
    let ix := p.2.readIdx r d
    let q := allGs d td ix.1.1 (List.range (dRepeat d.desc))
    let bs := blocksOf (dGSpace d.desc) (joinPieces q.1)
    s.startable c (if wr then 6 else 5) = some (d, e) ∧ p.1.2 = none ∧ p.1.1.bad = false ∧ legal = true ∧ d.idxCount ≠ 0 ∧ ix.1.2 = none ∧ bs ≠ []) ∧
    (let c : CmdRef := ⟨0, 0⟩
    let d : RoomCmd := gatherTask 6
    let s : State := onEng d
    let e : Nat := 0
    let wr : Bool := true
    let r := c.room.val
    let p := s.readOrPark r d.ctx (dTd d.desc) 64
    let td := Tensor.of (leOfList p.1.1.bytes)
    let legal := gatherOk d td && (List.range (dRepeat d.desc)).all fun n =>
      moveBaseOk (dGSpace d.desc) ((gatherRegs d n).getD 0 0) (dGSize d.desc)
    let ix := p.2.readIdx r d
    let q := allGs d td ix.1.1 (List.range (dRepeat d.desc))
    let bs := blocksOf (dGSpace d.desc) (joinPieces q.1)
    s.startable c (if wr then 6 else 5) = some (d, e) ∧ p.1.2 = none ∧ p.1.1.bad = false ∧ legal = true ∧ d.idxCount ≠ 0 ∧ ix.1.2 = none ∧ bs ≠ []) ∧
    (let c : CmdRef := ⟨0, 0⟩
    let d : RoomCmd := task [(0, 5), (0x40, 0x1000), (0x48, 0x3000), (0x50, 0), (0x5C, 64), (0x6C, 1)]
    let s : State := onEng d
    let e : Nat := 0
    let wr : Bool := false
    let r := c.room.val
    let p := s.readOrPark r d.ctx (dTd d.desc) 64
    let td := Tensor.of (leOfList p.1.1.bytes)
    let legal := gatherOk d td && (List.range (dRepeat d.desc)).all fun n =>
      moveBaseOk (dGSpace d.desc) ((gatherRegs d n).getD 0 0) (dGSize d.desc)
    s.startable c (if wr then 6 else 5) = some (d, e) ∧ p.1.2 = none ∧ p.1.1.bad = false ∧ legal = true ∧ d.idxCount = 0) :=
  by and_intros <;> decide +kernel

/-- Concrete states and operands meet the hypotheses of `Obligations.ComputationsFinishInTheirEngine`, clause by clause. -/
theorem test_ComputationsFinishInTheirEngine_hypotheses :
    (let c : CmdRef := ⟨0, 0⟩
    let n : Option Nat := none
    let d : RoomCmd := { mmTask 1 with started := true, prog := some (MmProg.start []) }
    let s : State := onEng d
    let e : Nat := 0
    let m := s.mmOf c.room.val d e
    let p := s.mmInsts m
    let l := p.1.1
    let from' := match d.prog with
      | some k => (s, k)
      | none => (p.2, MmProg.start l)
    let q := m.runInsts (from'.2.insts.drop from'.2.inst)
      { s := from'.1, p := { from'.2 with wait := false }, pass := from'.2.done, fuel := n, halt := false, err := none }
    s.matmulGoes c = some (d, e) ∧ s.arrayFree c.room.val e d = true ∧
      d.prog = some (MmProg.start []) ∧
      (MmProg.start []).ended = false ∧ q.2 = true ∧ q.1.err = none ∧ q.1.halt = false ∧ q.1.p.bad = false ∧
      (∀ k ∈ (q.1.s.eng e).recs, m.ec.slots.contains k.slot = false)) ∧
    (let c : CmdRef := ⟨0, 0⟩
    let n : Option Nat := some 0
    let d : RoomCmd := mmTask 1
    let s : State := onEng d
    let e : Nat := 0
    let m := s.mmOf c.room.val d e
    let p := s.mmInsts m
    let l := p.1.1
    let empty := m.n == 0 || (l.all fun i => i.m == 0) || ((m.ec.cont || m.ec.hold) && (dM d.desc == 0 || dN d.desc == 0))
    let from' := match d.prog with
      | some k => (s, k)
      | none => (p.2, MmProg.start l)
    let q := m.runInsts (from'.2.insts.drop from'.2.inst)
      { s := from'.1, p := { from'.2 with wait := false }, pass := from'.2.done, fuel := n, halt := false, err := none }
    s.matmulGoes c = some (d, e) ∧ s.arrayFree c.room.val e d = true ∧
      d.prog = none ∧ p.1.2 = false ∧ m.fixedOk = true ∧ m.ep.mortar = false ∧ empty = false ∧ q.2 = true ∧
      q.1.err = none ∧ q.1.halt = true) ∧
    (let c : CmdRef := ⟨0, 0⟩
    let n : Option Nat := none
    let d : RoomCmd := { mmTask 1 with started := true, prog := some (MmProg.start []) }
    let s : State := (onEng d).setEng 0 { (onEng d).eng 0 with recs := [recE] }
    let e : Nat := 0
    let m := s.mmOf c.room.val d e
    let p := s.mmInsts m
    let l := p.1.1
    let from' := match d.prog with
      | some k => (s, k)
      | none => (p.2, MmProg.start l)
    let q := m.runInsts (from'.2.insts.drop from'.2.inst)
      { s := from'.1, p := { from'.2 with wait := false }, pass := from'.2.done, fuel := n, halt := false, err := none }
    s.matmulGoes c = some (d, e) ∧ s.arrayFree c.room.val e d = true ∧
      d.prog = some (MmProg.start []) ∧
      (MmProg.start []).ended = false ∧ q.2 = true ∧ q.1.err = none ∧ q.1.halt = false ∧ q.1.p.bad = false ∧
      (∃ k ∈ (q.1.s.eng e).recs, m.ec.slots.contains k.slot = true)) ∧
    (let c : CmdRef := ⟨0, 0⟩
    let d : RoomCmd := mmTask 0
    let s : State := onEng d
    let e : Nat := 0
    let m := s.mmOf c.room.val d e
    let p := s.mmInsts m
    let l := p.1.1
    let empty := m.n == 0 || (l.all fun i => i.m == 0) || ((m.ec.cont || m.ec.hold) && (dM d.desc == 0 || dN d.desc == 0))
    s.matmulGoes c = some (d, e) ∧ s.arrayFree c.room.val e d = true ∧
      d.prog = none ∧ p.1.2 = false ∧ m.fixedOk = true ∧ m.ep.mortar = false ∧ empty = true ∧ l.all m.basesOk = true) ∧
    (let c : CmdRef := ⟨0, 0⟩
    let d : RoomCmd := { haloTask with dst := some 0 }
    let s : State := onEng d
    let e : Nat := 0
    let e2 : Nat := 0
    let q := State.haloInsts d e e2 (List.range (dRepeat d.desc)) s
    s.startable c 7 = some (d, e) ∧ d.dst = some e2 ∧ haloOk d = true ∧ q.2 = none ∧
      engRoom e2 = c.room.val) ∧
    (let c : CmdRef := ⟨0, 0⟩
    let d : RoomCmd := { haloTask with dst := some 7 }
    let s : State := onEng d
    let e : Nat := 0
    let e2 : Nat := 7
    let q := State.haloInsts d e e2 (List.range (dRepeat d.desc)) s
    s.startable c 7 = some (d, e) ∧ d.dst = some e2 ∧ haloOk d = true ∧ q.2 = none ∧
      q.1.haloRivals d e2 = []) :=
  by refine ⟨?_, ?_, ?_, ?_, ?_, ?_⟩ <;> decide +kernel

/-! ### The mortar tree -/

/-- Concrete states and operands meet the hypotheses of `Obligations.MergeRecordsClimbTheTree`, clause by clause. -/
theorem test_MergeRecordsClimbTheTree_hypotheses :
    (let c : CmdRef := ⟨0, 0⟩
    let d : RoomCmd := task [(0, 8), (0x40, 0x4000)]
    let s : State := onEng d
    let p := s.readVa c.room.val d.ctx (dMcb d.desc) 64
    let b : BitVec 512 := BitVec.ofNat 512 (leOfList p.1.bytes)
    let m : Merge := { cmd := c, ctx := d.ctx, mtag := dTag d.desc, mcb := b, got := 0, entries := [], written := [], bad := false }
    let s1 := (p.2.updCmd c.room.val d.seq fun k => { k with started := true }).setMerge (mcbMerge b) (some m)
    s.plainStart c 8 = some d ∧ openLegal d.desc = true ∧ mcbOk b = true ∧ s1.expectedAll m ≠ 0) ∧
    (let c : CmdRef := ⟨0, 0⟩
    let d : RoomCmd := task [(0, 8), (0x40, 0x5000)]
    let s : State := { onEng d with ms := { MemSt.reset with mem := [(0x5003, 1), (0x500C, 1)] } }
    let p := s.readVa c.room.val d.ctx (dMcb d.desc) 64
    let b : BitVec 512 := BitVec.ofNat 512 (leOfList p.1.bytes)
    let m : Merge := { cmd := c, ctx := d.ctx, mtag := dTag d.desc, mcb := b, got := 0, entries := [], written := [], bad := false }
    let s1 := (p.2.updCmd c.room.val d.seq fun k => { k with started := true }).setMerge (mcbMerge b) (some m)
    s.plainStart c 8 = some d ∧ openLegal d.desc = true ∧ mcbOk b = true ∧ s1.expectedAll m = 0) ∧
    (let c : CmdRef := ⟨0, 0⟩
    let d : RoomCmd := { task [(0, 8), (0x40, 0x4001)] with src := .issued 1 0 }
    let s : State := onEng d
    let p := s.readVa c.room.val d.ctx (dMcb d.desc) 64
    let b : BitVec 512 := BitVec.ofNat 512 (leOfList p.1.bytes)
    s.plainStart c 8 = some d ∧ (openLegal d.desc = false ∨ mcbOk b = false) ∧ d.isIssued = true) ∧
    (let e : EngIx := 0
    let q : EngineRec := recE
    let rest : List EngineRec := []
    let s : State := (withMo { MortarSt.reset with floorTab := [(0, [recT 1 1])] }).setEng 0 { EngSt.reset with recs := q :: rest }
    s.running = true ∧ (s.eng e.val).recs = q :: rest ∧ s.openFor q.merge q.ctx = true ∧ (∀ k ∈ rest, k.slot ≠ q.slot)) ∧
    (let e : EngIx := 0
    let q : EngineRec := recE
    let rest : List EngineRec := [recE]
    let s : State := (up).setEng 0 { EngSt.reset with recs := q :: rest }
    s.running = true ∧ (s.eng e.val).recs = q :: rest ∧ s.openFor q.merge q.ctx = false ∧ (∃ k ∈ rest, k.slot = q.slot)) ∧
    (let d : DieIx := 0
    let s : State := withMo { MortarSt.reset with dieIn := [(0, [recT 1 1])] }
    let q : MergeRec := recT 1 1
    let rest : List MergeRec := []
    s.running = true ∧ s.mo.dieIn.get (fun _ => []) d.val = q :: rest) ∧
    (let s : State := withMo { MortarSt.reset with floorTab := [(0, [recT 1 1])] }
    s.running = true) ∧
    (let s : State := withMo { MortarSt.reset with dieTab := [(0, [recT 1 1])] }
    s.running = true) ∧
    (let r : MergeRec := recT 4 1
    let m : Merge := mergeT
    let s : State := { inRoom ready [task [(0, 8)]] with mo := { MortarSt.reset with pkgIn := [r], merges := [(0, some m)] } }
    s.running = true ∧ s.mo.pkgIn = r :: [] ∧ s.merge r.key.merge.val = some m ∧ m.ctx = r.ctx ∧
      (r.key.token.toNat < mcbLo m.mcb ∨ mcbHi m.mcb ≤ r.key.token.toNat) ∧ mcbScope m.mcb ≠ 1) ∧
    (let r : MergeRec := recT 4 1
    let m : Merge := { mergeT with mcb := mcbT ||| BitVec.ofNat 512 (2 ^ 8) }
    let s : State := { inRoom ready [task [(0, 8)]] with mo := { MortarSt.reset with pkgIn := [r], merges := [(0, some m)] } }
    s.running = true ∧ s.mo.pkgIn = r :: [] ∧ s.merge r.key.merge.val = some m ∧ m.ctx = r.ctx ∧
      (r.key.token.toNat < mcbLo m.mcb ∨ mcbHi m.mcb ≤ r.key.token.toNat) ∧ mcbScope m.mcb = 1) ∧
    (let r : MergeRec := { recT 1 1 with key := ⟨0, 1, 1⟩ }
    let m : Merge := mergeT
    let s : State := { inRoom ready [task [(0, 8)]] with mo := { MortarSt.reset with pkgIn := [r], merges := [(0, some m)] } }
    s.running = true ∧ s.mo.pkgIn = r :: [] ∧ s.merge r.key.merge.val = some m ∧ m.ctx = r.ctx ∧
      mcbLo m.mcb ≤ r.key.token.toNat ∧ r.key.token.toNat < mcbHi m.mcb ∧
      mcbSlabs m.mcb ≤ r.key.slab) ∧
    (let r : MergeRec := recT 1 2
    let m : Merge := { mergeT with entries := [recT 1 1] }
    let s : State := { inRoom ready [task [(0, 8)]] with mo := { MortarSt.reset with pkgIn := [r], merges := [(0, some m)] } }
    let s0 := { s with mo := { s.mo with pkgIn := [] } }
    let x := s0.expected m r.key.token.toNat
    let y := match m.entries.find? fun z => z.key == r.key with
      | some o => o.add r
      | none => r
    s.running = true ∧ s.mo.pkgIn = r :: [] ∧ s.merge r.key.merge.val = some m ∧ m.ctx = r.ctx ∧
      mcbLo m.mcb ≤ r.key.token.toNat ∧ r.key.token.toNat < mcbHi m.mcb ∧
      r.key.slab < mcbSlabs m.mcb ∧ x < y.count) ∧
    (let r : MergeRec := recT 1 1
    let m : Merge := mergeT
    let s : State := { inRoom ready [task [(0, 8)]] with mo := { MortarSt.reset with pkgIn := [r], merges := [(0, some m)] } }
    let s0 := { s with mo := { s.mo with pkgIn := [] } }
    let x := s0.expected m r.key.token.toNat
    let y := match m.entries.find? fun z => z.key == r.key with
      | some o => o.add r
      | none => r
    let m1 := { m with got := m.got + r.count, entries := (m.entries.filter fun z => z.key != r.key) ++ [y]
                       written := if y.count = x then m.written ++ [(r.key.token.toNat - mcbLo m.mcb, r.key.slab)] else m.written }
    let s1 := (s0.areaWrite m r.key).setMerge 0 (some m1)
    let s2 := if y.count = x then s1.writeMergeRow m1 r.key.token.toNat r.key.slab y.value else s1
    s.running = true ∧ s.mo.pkgIn = r :: [] ∧ s.merge r.key.merge.val = some m ∧ m.ctx = r.ctx ∧
      mcbLo m.mcb ≤ r.key.token.toNat ∧ r.key.token.toNat < mcbHi m.mcb ∧
      r.key.slab < mcbSlabs m.mcb ∧ y.count ≤ x ∧ m1.got ≠ s2.expectedAll m1) ∧
    (let r : MergeRec := recT 1 2
    let m : Merge := mergeT
    let s : State := { inRoom ready [task [(0, 8)]] with mo := { MortarSt.reset with pkgIn := [r], merges := [(0, some m)] } }
    let s0 := { s with mo := { s.mo with pkgIn := [] } }
    let x := s0.expected m r.key.token.toNat
    let y := match m.entries.find? fun z => z.key == r.key with
      | some o => o.add r
      | none => r
    let m1 := { m with got := m.got + r.count, entries := (m.entries.filter fun z => z.key != r.key) ++ [y]
                       written := if y.count = x then m.written ++ [(r.key.token.toNat - mcbLo m.mcb, r.key.slab)] else m.written }
    let s1 := (s0.areaWrite m r.key).setMerge 0 (some m1)
    let s2 := if y.count = x then s1.writeMergeRow m1 r.key.token.toNat r.key.slab y.value else s1
    s.running = true ∧ s.mo.pkgIn = r :: [] ∧ s.merge r.key.merge.val = some m ∧ m.ctx = r.ctx ∧
      mcbLo m.mcb ≤ r.key.token.toNat ∧ r.key.token.toNat < mcbHi m.mcb ∧
      r.key.slab < mcbSlabs m.mcb ∧ y.count = x ∧ m1.got ≠ s2.expectedAll m1) ∧
    (let r : MergeRec := recT 1 1
    let m : Merge := { mergeT with got := 7 }
    let s : State := { inRoom ready [task [(0, 8)]] with mo := { MortarSt.reset with pkgIn := [r], merges := [(0, some m)] } }
    let s0 := { s with mo := { s.mo with pkgIn := [] } }
    let x := s0.expected m r.key.token.toNat
    let y := match m.entries.find? fun z => z.key == r.key with
      | some o => o.add r
      | none => r
    let m1 := { m with got := m.got + r.count, entries := (m.entries.filter fun z => z.key != r.key) ++ [y]
                       written := if y.count = x then m.written ++ [(r.key.token.toNat - mcbLo m.mcb, r.key.slab)] else m.written }
    let s1 := (s0.areaWrite m r.key).setMerge 0 (some m1)
    let s2 := if y.count = x then s1.writeMergeRow m1 r.key.token.toNat r.key.slab y.value else s1
    s.running = true ∧ s.mo.pkgIn = r :: [] ∧ s.merge r.key.merge.val = some m ∧ m.ctx = r.ctx ∧
      mcbLo m.mcb ≤ r.key.token.toNat ∧ r.key.token.toNat < mcbHi m.mcb ∧
      r.key.slab < mcbSlabs m.mcb ∧ y.count ≤ x ∧ m1.got = s2.expectedAll m1) ∧
    (let r : MergeRec := recT 4 1
    let s : State := { up with mo := { MortarSt.reset with pkgIn := [r] } }
    s.running = true ∧ s.mo.pkgIn = r :: [] ∧ s.openFor r.key.merge.val r.ctx = false ∧
      (∀ p ∈ s.mo.merges, ∀ m, p.2 = some m → m.ctx ≠ r.ctx)) :=
  by and_intros <;> first | decide +kernel | nofun

/-! ### Streams -/

/-- Concrete states and operands meet the hypotheses of `Obligations.StreamBlocksIssueOrPark`, clause by clause. -/
theorem test_StreamBlocksIssueOrPark_hypotheses :
    (let x : StreamRef := xs
    let st : Stream := { strm with ctx := 5 }
    let s : State := withStrm st
    let c : RoomCmd := { moveTask 3 with started := true, ctx := st.ctx }
    let b : Block := blk 0x10000
    let rest : List Block := [blk 0x10008]
    s.stream x = some st ∧ s.streamCmd x st = some c ∧ st.blocks = b :: rest ∧ s.mayIssue x st = true ∧
      (∀ n, b.kind ≠ .fill n) ∧ s.cached (engRoom x.eng.val) st.ctx (b.va / 8) = false) ∧
    (let x : StreamRef := xs
    let st : Stream := strm
    let s : State := (withStrm st).putLine 0 { blk := 2, keep := none, data := [(0, [1, 2])], bad := [] }
    let c : RoomCmd := { moveTask 3 with started := true, ctx := st.ctx }
    let b : Block := blk 0x10000
    let rest : List Block := [blk 0x10008]
    let pa := vaBits (b.va / 8)
    let bit := pa * 8 + b.va % 8
    let hit := if st.isWrite then none else s.lineHit (engFloor x.eng.val) (s.foldAddr pa) (blockSpan bit b.nbits).2
    s.stream x = some st ∧ s.streamCmd x st = some c ∧ st.blocks = b :: rest ∧ s.mayIssue x st = true ∧
      (∀ n, b.kind ≠ .fill n) ∧ st.ctx = fwCtx ∧ st.resumed = false ∧ s.isFar pa = false ∧
      hit = some ([1], [])) ∧
    (let x : StreamRef := xs
    let st : Stream := strm
    let s : State := withStrm st
    let c : RoomCmd := { moveTask 3 with started := true, ctx := st.ctx }
    let b : Block := blk 0x10000
    let rest : List Block := [blk 0x10008]
    let pa := vaBits (b.va / 8)
    let bit := pa * 8 + b.va % 8
    let hit := if st.isWrite then none else s.lineHit (engFloor x.eng.val) (s.foldAddr pa) (blockSpan bit b.nbits).2
    s.stream x = some st ∧ s.streamCmd x st = some c ∧ st.blocks = b :: rest ∧ s.mayIssue x st = true ∧
      (∀ n, b.kind ≠ .fill n) ∧ st.ctx = fwCtx ∧ st.resumed = false ∧ s.isFar pa = false ∧
      hit = none ∧ (st.isWrite = true ∨ s.isCellar (s.foldAddr pa) = false)) ∧
    (let x : StreamRef := xs
    let st : Stream := { strm with isWrite := true }
    let s : State := withStrm st
    let c : RoomCmd := { moveTask 3 with started := true, ctx := st.ctx }
    let b : Block := blk 0x10000
    let rest : List Block := [blk 0x10008]
    let pa := vaBits (b.va / 8)
    let bit := pa * 8 + b.va % 8
    let hit := if st.isWrite then none else s.lineHit (engFloor x.eng.val) (s.foldAddr pa) (blockSpan bit b.nbits).2
    s.stream x = some st ∧ s.streamCmd x st = some c ∧ st.blocks = b :: rest ∧ s.mayIssue x st = true ∧
      (∀ n, b.kind ≠ .fill n) ∧ st.ctx = fwCtx ∧ st.resumed = false ∧ s.isFar pa = false ∧
      s.wallBlocks pa (blockSpan (b.va % 8) b.nbits).2 = false ∧ hit = none ∧ st.isWrite = true) ∧
    (let x : StreamRef := xs
    let st : Stream := { strm with blocks := [blk (0x100000000000 * 8), blk 0x10008] }
    let s : State := ((withStrm st).fset (F.CXL_STATUS.DEV_OK 0) 1).fset (F.CXL_SIZE.SIZE 0) 1
    let c : RoomCmd := { moveTask 3 with started := true, ctx := st.ctx }
    let b : Block := blk (0x100000000000 * 8)
    let rest : List Block := [blk 0x10008]
    let pa := vaBits (b.va / 8)
    let bit := pa * 8 + b.va % 8
    let hit := if st.isWrite then none else s.lineHit (engFloor x.eng.val) (s.foldAddr pa) (blockSpan bit b.nbits).2
    s.stream x = some st ∧ s.streamCmd x st = some c ∧ st.blocks = b :: rest ∧ s.mayIssue x st = true ∧
      (∀ n, b.kind ≠ .fill n) ∧ st.ctx = fwCtx ∧ st.resumed = false ∧ s.isFar pa = false ∧
      hit = none ∧ st.isWrite = false ∧ s.isCellar (s.foldAddr pa) = true) ∧
    (let x : StreamRef := xs
    let st : Stream := { strm with isWrite := true }
    let s : State := behindWall (withStrm st)
    let c : RoomCmd := { moveTask 3 with started := true, ctx := st.ctx }
    let b : Block := blk 0x10000
    let rest : List Block := [blk 0x10008]
    let pa := vaBits (b.va / 8)
    s.stream x = some st ∧ s.streamCmd x st = some c ∧ st.blocks = b :: rest ∧ s.mayIssue x st = true ∧
      (∀ n, b.kind ≠ .fill n) ∧ st.ctx = fwCtx ∧ st.isWrite = true ∧ s.isFar pa = false ∧
      s.wallBlocks pa (blockSpan (b.va % 8) b.nbits).2 = true ∧ rest ≠ []) ∧
    (let x : StreamRef := xs
    let st : Stream := { strm with ctx := 5, isWrite := true, blocks := [{ blk 0x20000 with kind := .fill 5 }, blk 0x10008] }
    let s : State := { (withStrm st).fset F.MEM_CTRL.LEDGER_EN 1 with
      ms := { MemSt.reset with mem := [(0xA0, 2), (0xA1, 2), (0xA2, 5), (0xA4, 1)] } }
    let c : RoomCmd := { moveTask 3 with started := true, ctx := st.ctx }
    let b : Block := { blk 0x20000 with kind := .fill 5 }
    let rest : List Block := [blk 0x10008]
    s.stream x = some st ∧ s.streamCmd x st = some c ∧ st.blocks = b :: rest ∧ s.mayIssue x st = true ∧
      b.kind = .fill 5 ∧ rest ≠ [] ∧ s.flag F.MEM_CTRL.LEDGER_EN = true ∧ ldOwner (s.ledgerMem 5) = st.ctx ∧
      ldState (s.ledgerMem 5) = 2 ∧ ldFillOk (s.ledgerMem 5) = true ∧ (∀ f ∈ s.ms.fills, f.expert ≠ 5) ∧
      s.ms.fills.length < 256) ∧
    (let x : StreamRef := xs
    let st : Stream := { strm with ctx := fwCtx, walking := true }
    let s : State := withStrm st
    let s1 : State := withStrm { st with walking := false }
    let s2 : State := s1
    let c : RoomCmd := { moveTask 3 with started := true, ctx := st.ctx }
    let b : Block := blk 0x10000
    let rest : List Block := [blk 0x10008]
    s.stream x = some st ∧ st.walking = true ∧ s1 = s.updStream x (fun y => { y with walking := false }) ∧
      s.streamCmd x st = some c ∧ st.blocks = b :: rest ∧ s1.mayIssue x { st with walking := false } = true ∧
      s1.xlate (engRoom x.eng.val) st.ctx (b.va / 8) st.isWrite = (.ok 0x2000, s2) ∧ st.isWrite = false ∧
      st.resumed = false ∧ s2.isFar 0x2000 = false ∧ s2.lineHit 0 (s2.foldAddr 0x2000) 1 = none ∧
      s2.isCellar (s2.foldAddr 0x2000) = false) ∧
    (let x : StreamRef := xs
    let st : Stream := { strm with ctx := 5, walking := true }
    let s : State := withStrm st
    let s1 : State := withStrm { st with walking := false }
    let s2 : State := (s1.xlate 0 5 0x2000 false).2
    let c : RoomCmd := { moveTask 3 with started := true, ctx := st.ctx }
    let b : Block := blk 0x10000
    let rest : List Block := [blk 0x10008]
    s.stream x = some st ∧ st.walking = true ∧ s1 = s.updStream x (fun y => { y with walking := false }) ∧
      s.streamCmd x st = some c ∧ st.blocks = b :: rest ∧ s1.mayIssue x { st with walking := false } = true ∧
      s1.xlate (engRoom x.eng.val) st.ctx (b.va / 8) st.isWrite = (.bad 1 4, s2)) :=
  by and_intros <;> first | decide +kernel | exact fun _ => nofun

/-- Concrete states and operands meet the hypotheses of `Obligations.StreamBlocksAndFillsComplete`, clause by clause. -/
theorem test_StreamBlocksAndFillsComplete_hypotheses :
    (let x : StreamRef := xs
    let k : Nat := 2
    let f : InFlight := fly 2 0x10000
    let st : Stream := { strm with flight := [f] }
    let s : State := withStrm st
    s.running = true ∧ s.stream x = some st ∧ st.flight.find? (fun g => g.k == k) = some f ∧ s.burstWhole f = true ∧
      st.blocks ≠ [] ∧ st.isWrite = false ∧ f.blk.kind ≠ .look ∧ f.blk.space ≠ 1) ∧
    (let x : StreamRef := xs
    let k : Nat := 2
    let f : InFlight := { fly 2 0x10000 with blk := { blk 0x20000 with space := 1 } }
    let st : Stream := { strm with flight := [f] }
    let s : State := withStrm st
    s.running = true ∧ s.stream x = some st ∧ st.flight.find? (fun g => g.k == k) = some f ∧ s.burstWhole f = true ∧
      st.blocks ≠ [] ∧ st.isWrite = false ∧ f.blk.kind ≠ .look ∧ f.blk.space = 1) ∧
    (let x : StreamRef := xs
    let k : Nat := 2
    let f : InFlight := { fly 2 0x10000 with reach := .floor [7] [128] }
    let st : Stream := { strm with flight := [f] }
    let s : State := withStrm st
    s.running = true ∧ s.stream x = some st ∧ st.flight.find? (fun g => g.k == k) = some f ∧ s.burstWhole f = true ∧
      st.blocks ≠ [] ∧ st.isWrite = false ∧ f.blk.kind ≠ .look ∧ (s.blockData f).1.2 ≠ []) ∧
    (let x : StreamRef := xs
    let k : Nat := 2
    let f : InFlight := fly 2 0x10000
    let st : Stream := { strm with isWrite := true, flight := [f] }
    let s : State := withStrm st
    let sp := blockSpan f.pa f.blk.nbits
    s.running = true ∧ s.stream x = some st ∧ st.flight.find? (fun g => g.k == k) = some f ∧ s.burstWhole f = true ∧
      st.blocks ≠ [] ∧ st.isWrite = true ∧ f.blk.kind ≠ .free ∧
      (∀ g ∈ st.flight, g.k < f.k → rangesMeet g.pa g.blk.nbits f.pa f.blk.nbits = false) ∧ sp.1 + sp.2 ≤ hbmEnd ∧
      s.wallBlocks sp.1 sp.2 = false ∧ s.wallFull sp.1 sp.2 = false) ∧
    (let n : BitVec 16 := 5
    let s : State := { up with ms := { MemSt.reset with mem := [(0xA0, 1)], fills := [⟨5, 1, 0⟩] } }
    let f : Fill := ⟨5, 1, 0⟩
    let size := ldSize f.entry * 4096
    let p := s.physRead (ldCellar f.entry) size
    s.ms.fills.find? (fun g => g.expert == n.toNat) = some f ∧ s.wallBlocks (ldLarder f.entry) size = false ∧
      inHbm s.ledgerBase 0x200000 = true ∧
      ((p.2.physWrite (ldLarder f.entry) p.1).copyPoison (ldCellar f.entry) (ldLarder f.entry) size).ledgerMem n.toNat
        = f.entry) :=
  by and_intros <;> decide +kernel

/-- Concrete states and operands meet the hypotheses of `Obligations.ParkedStreamsReportAndResume`, clause by clause. -/
theorem test_ParkedStreamsReportAndResume_hypotheses :
    (let k : Ticket := { num := 7, stream := xs, ctx := fwCtx, record := 0x1234, written := false }
    let s : State := { up.fset F.XF_SIZE.LOG2 4 with ms := { MemSt.reset with xfWait := [7], tickets := [k] } }
    let n : Nat := 7
    let rest : List Nat := []
    let size := 2 ^ s.fget F.XF_SIZE.LOG2
    let tail := s.fget F.XF_TAIL.TAIL
    s.running = true ∧ s.ms.xfWait = n :: rest ∧ s.ms.tickets.find? (fun u => u.num == n) = some k ∧
      (tail + 1) % size ≠ s.fget F.XF_HEAD.HEAD ∧ s.xfBase + tail * 64 + 64 ≤ hbmEnd) ∧
    (let w : BusWr := wr 7
    let k : Ticket := { num := 7, stream := xs, ctx := fwCtx, record := 0x1234, written := false }
    let st : Stream := { strm with park := some ⟨1, 4, some 7⟩ }
    let s : State := { withStrm st with ms := { MemSt.reset with tickets := [k] } }
    s.Reached w Off.XF_RESUME ∧ s.ms.tickets.find? (fun u => u.num == w.val.toNat % 1024) = some k ∧
      s.ms.noTicket = [] ∧ s.stream k.stream = some st) ∧
    (let w : BusWr := wr 7
    let s : State := up
    s.Reached w Off.XF_RESUME ∧ (∀ u ∈ s.ms.tickets, u.num ≠ w.val.toNat % 1024)) ∧
    (let p : Fin 2 := 0
    let seq : Nat := 9
    let b : Burst := { port := 0, seq := 9, strm := xs, k := 2, need := 64, got := 0 }
    let s : State := { up with ms := { MemSt.reset with bursts := [b] } }
    (∃ b ∈ s.ms.bursts, b.port = p.val ∧ b.seq = seq)) ∧
    (let p : Fin 2 := 0
    let seq : Nat := 9
    let s : State := { up with ms := { MemSt.reset with dead := [9] } }
    (∀ b ∈ s.ms.bursts, ¬(b.port = p.val ∧ b.seq = seq)) ∧ seq ∈ s.ms.dead) ∧
    (let p : Fin 2 := 0
    let seq : Nat := 9
    let b : Burst := { port := 0, seq := 9, strm := xs, k := 2, need := 64, got := 0 }
    let s : State := { withStrm { strm with ctx := 5, flight := [{ fly 2 0x80000000000 with reach := .cellar 0 9 }] } with
      ms := { MemSt.reset with bursts := [b] } }
    s.ms.bursts.find? (fun b => b.port == p.val && b.seq == seq && decide (b.got < b.need)) = some b ∧
      ((s.stream b.strm).map fun st => st.ctx) = some 5) ∧
    (let p : Fin 2 := 0
    let seq : Nat := 9
    let f : Fill := { expert := 5, entry := BitVec.ofNat 256 (0x100000000 * 2 ^ 96), seq := 9 }
    let s : State := { up with ms := { MemSt.reset with fills := [f] } }
    s.ms.bursts.find? (fun b => b.port == p.val && b.seq == seq && decide (b.got < b.need)) = none ∧
      s.ms.fills.find? (fun f => f.seq == seq && decide ((ldCellar f.entry - 0x100000000000) / 0x20000000000 = p.val)) = some f) ∧
    (let x : StreamRef := xs
    let k : Nat := 2
    let bq : Nat := 77
    let f : InFlight := { fly 2 0x400080000000 with reach := .remote 77 }
    let st : Stream := { strm with ctx := 5, flight := [f] }
    let s : State := withStrm st
    let c : RoomCmd := { moveTask 3 with started := true, ctx := 5 }
    s.stream x = some st ∧ st.flight.find? (fun g => g.k == k) = some f ∧ f.reach = .remote bq ∧ st.park = none ∧
      s.streamCmd x st = some c ∧ st.ctx ≠ fwCtx) :=
  by unfold State.Reached; and_intros <;> decide +kernel

/-- Concrete states and operands meet the hypotheses of `Obligations.InvalidationsDropTheSelectedCopies`, clause by clause. -/
theorem test_InvalidationsDropTheSelectedCopies_hypotheses :
    (let w : BusWr := wr 0x54
    let s : State := up
    s.Reached w Off.INV_CTRL ∧ s.flag F.INV_CTRL.GO = false ∧ bitAt w.val.toNat 2 = true) ∧
    (let w : BusWr := wr 4
    let s : State := up.fset F.INV_CTRL.GO 1
    s.Reached w Off.INV_CTRL ∧ s.flag F.INV_CTRL.GO = true) ∧
    (let s : State := { (up.fset F.INV_CTRL.GO 1).fset F.INV_CTRL.CTX 5 with
      ms := { MemSt.reset with roomTlb := [(0, [⟨5, 1, 1, 9, true, false⟩, ⟨6, 1, 1, 9, true, false⟩])] } }
    s.flag F.INV_CTRL.GO = true ∧ s.invQuiet = true) ∧
    (let w : BusWr := wr 1
    let s : State := up.setPort 0 { PortSt.reset with egress := [{ msgT with mtype := 2, dst := 3, vc := 0, held := 0 }] }
    s.Reached w Off.RT_CTRL ∧ bitAt w.val.toNat 0 = true) ∧
    (let s : State := { up.fset F.RT_CTRL.INV 1 with link := { LinkSt.reset with routeC := [(3, some 9)] } }
    s.running = true ∧ s.flag F.RT_CTRL.INV = true ∧ (∀ q : PortIx, ∀ m ∈ (s.port q.val).egress, m.old = false)) ∧
    (let w : BusWr := wr 0x302
    let s : State := { up with link := { LinkSt.reset with out := [{ msgT with mtype := 2, dst := 3, vc := 0, held := 0 }] } }
    let dst := bitsAt w.val.toNat 8 6
    let hit := fun (m : Msg) => m.sent == 0 && m.dst == dst
    s.Reached w Off.RT_CTRL ∧ bitAt w.val.toNat 1 = true ∧ (∀ m ∈ s.link.out, hit m = true → m.origin = none) ∧
      (∀ q : PortIx, ∀ m ∈ (s.port q.val).egress, hit m = true → m.origin = none)) :=
  by unfold State.Reached; and_intros <;> decide +kernel

/-- Concrete states and operands meet the hypotheses of `Obligations.EnginesSwitchToWaitingContexts`, clause by clause. -/
theorem test_EnginesSwitchToWaitingContexts_hypotheses :
    (let e : EngIx := 0
    let s : State := twoCtx ready
    s.anyReady e.val = true ∧ (∀ n ∈ s.runningSlots e.val, s.stalled e.val n = true)) ∧
    (let e : EngIx := 0
    let s : State := twoCtx (ready.fset (F.ENG_SCHED.QUANTUM 0 0) 5)
    s.anyReady e.val = true ∧ s.fget (F.ENG_SCHED.QUANTUM (engRoom e.val) (e.val % 5)) ≠ 0) ∧
    (let e : EngIx := 0
    let w : BusWr := wr 1
    let s : State := ready
    s.Reached w (Off.ENG_SCHED (engRoom e.val) (e.val % 5)) ∧ bitAt w.val.toNat 0 = true) ∧
    (let e : EngIx := 0
    let s : State := twoCtx ready
    s.enginesOn = true ∧ s.runningSlots e.val = [] ∧ s.incoming e.val = some 6 ∧ s.matmuls e.val = [] ∧
      s.flag F.MEM_CTRL.FLUE_SWITCH = false) ∧
    (let e : EngIx := 0
    let s : State := ready
    s.enginesOn = true ∧ s.runningSlots e.val = [] ∧ s.incoming e.val = none) :=
  by unfold State.Reached; and_intros <;> decide +kernel

/-! ### Arbiters and memory control -/

/-- Concrete states and operands meet the hypotheses of `Obligations.ArbitersGrantByPriorityAndClass`, clause by clause. -/
theorem test_ArbitersGrantByPriorityAndClass_hypotheses :
    (let x : ArbSt := ArbSt.reset
    let cls : W32 := 0x00555555
    let l : List Nat := [3, 12]
    let i : Nat := 12
    (∀ j ∈ l, j < 16) ∧ x.winner cls l = some i ∧ (12 ∈ l ∧ 12 ≤ 12)) ∧
    (let x : ArbSt := ArbSt.reset
    let cls : W32 := 0x00555555
    let l : List Nat := [3, 5]
    let i : Nat := 3
    (∀ j ∈ l, j < 16) ∧ x.winner cls l = some i ∧ i < 12 ∧ 5 ∈ l ∧ classOf cls 5 = classOf cls i) ∧
    (let l : List Nat := [3, 5]
    (∀ j ∈ l, j < 16) ∧ l ≠ []) ∧
    (let x : ArbSt := { ArbSt.reset with reqs := [{ reqT with src := .engine 8, cycle := 0 }, reqT] }
    let cycle : Nat := 9
    let i : Nat := 2
    let q : ArbReq := reqT
    let p : ArbReq := { reqT with src := .engine 8, cycle := 0 }
    x.oldest cycle i = some q ∧ p ∈ x.reqs ∧ p.input = i ∧ p.cycle < cycle) ∧
    (let a : ArbIx := 0
    let src : ArbSource := .floor 1
    let s : State := up
    s.arbInput a.val src = none) ∧
    (let a : ArbIx := 0
    let src : ArbSource := .engine 6
    let n : Fin 9 := 2
    let cycle : Nat := 9
    let s : State := up
    let x := s.arb a.val
    let parked := x.isParked && x.owner == some 2 && x.reqs.all (fun p => !decide (p.cycle < cycle))
    s.arbInput a.val src = some 2 ∧ s.running = true ∧ n.val ≠ 0 ∧ parked = false) ∧
    (let a : ArbIx := 0
    let src : ArbSource := .engine 6
    let n : Fin 9 := 2
    let cycle : Nat := 9
    let s : State := { up with arbs := [(0, { ArbSt.reset with isParked := true, owner := some 2 })] }
    let x := s.arb a.val
    let parked := x.isParked && x.owner == some 2 && x.reqs.all (fun p => !decide (p.cycle < cycle))
    s.arbInput a.val src = some 2 ∧ s.running = true ∧ n.val ≠ 0 ∧ parked = true ∧
      x.clrAt.get (fun _ => 0) 2 ≠ cycle + 1 ∧ s.starves a.val 1 = false) ∧
    (let a : ArbIx := 0
    let cycle : Nat := 9
    let q : ArbReq := reqT
    let s : State := { up with arbs := [(0, { ArbSt.reset with reqs := [reqT] })] }
    s.running = true ∧ (s.arb a.val).busyTo ≤ cycle ∧ q ∈ (s.arb a.val).withdrawn cycle [.engine 6]) ∧
    (let a : ArbIx := 0
    let cycle : Nat := 9
    let q : ArbReq := reqT
    let s : State := { up with arbs := [(0, { ArbSt.reset with reqs := [reqT] })] }
    let x := s.arb a.val
    let cls := s.classesAt a.val cycle
    let w := x.winner cls ((x.reqs.filter fun p => decide (p.cycle < cycle)).map fun p => p.input)
    let late := !q.starved && s.starves a.val (cycle + 1 - q.cycle)
    s.running = true ∧ (s.arb a.val).busyTo ≤ cycle ∧ w = some 2 ∧ x.oldest cycle 2 = some q ∧
      late = false ∧ x.clrAt.get (fun _ => 0) 2 ≠ cycle + 1) ∧
    (let a : ArbIx := 0
    let cycle : Nat := 9
    let q : ArbReq := reqT
    let s : State := { up with arbs := [(0, { ArbSt.reset with reqs := [reqT], clrAt := [(2, 10)] })] }
    let x := s.arb a.val
    let cls := s.classesAt a.val cycle
    let w := x.winner cls ((x.reqs.filter fun p => decide (p.cycle < cycle)).map fun p => p.input)
    let late := !q.starved && s.starves a.val (cycle + 1 - q.cycle)
    s.running = true ∧ (s.arb a.val).busyTo ≤ cycle ∧ w = some 2 ∧ x.oldest cycle 2 = some q ∧
      late = false ∧ x.clrAt.get (fun _ => 0) 2 = cycle + 1) ∧
    (let a : ArbIx := 0
    let cycle : Nat := 1000000
    let q : ArbReq := reqT
    let s : State := { up with arbs := [(0, { ArbSt.reset with reqs := [reqT] })] }
    let x := s.arb a.val
    let cls := s.classesAt a.val cycle
    let w := x.winner cls ((x.reqs.filter fun p => decide (p.cycle < cycle)).map fun p => p.input)
    let late := !q.starved && s.starves a.val (cycle + 1 - q.cycle)
    s.running = true ∧ (s.arb a.val).busyTo ≤ cycle ∧ w = some 2 ∧ x.oldest cycle 2 = some q ∧
      late = true ∧ bitAt (s.fget (F.ARB_STARVE_IE.STARVE_IE a.val)) 2 = false) ∧
    (let a : ArbIx := 0
    let cycle : Nat := 9
    let s : State := { up with arbs := [(0, { ArbSt.reset with owner := some 3 })] }
    let x := s.arb a.val
    let cls := s.classesAt a.val cycle
    let w := x.winner cls ((x.reqs.filter fun p => decide (p.cycle < cycle)).map fun p => p.input)
    s.running = true ∧ (s.arb a.val).busyTo ≤ cycle ∧ w = none) ∧
    (let a : ArbIx := 0
    let i : Fin 16 := 2
    let cycle : Nat := 1000000
    let q : ArbReq := reqT
    let s : State := { up with arbs := [(0, { ArbSt.reset with reqs := [q] })] }
    s.running = true ∧ q ∈ (s.arb a.val).reqs ∧ q.input = i.val ∧ q.starved = false ∧
      s.fget (F.ARB_LIMIT.LIMIT a.val) * 16 ≤ cycle - q.cycle ∧
      bitAt (s.fget (F.ARB_STARVE_IE.STARVE_IE a.val)) i.val = false) ∧
    (let a : ArbIx := 0
    let w : BusWr := wr 0x123456
    let cycle : Nat := 7
    let s : State := up
    s.Reached w (Off.ARB_CLASS a.val) ∧ (s.arb a.val).classAt < cycle) ∧
    (let a : ArbIx := 0
    let w : BusWr := wr 8
    let s : State := (up.fset (F.ARB_GRANTS.GRANTS 0 3) 5).fset (F.ARB_GRANTS.GRANTS 0 4) 6
    s.Reached w (Off.ARB_CNT_CLR a.val)) :=
  by unfold State.Reached; and_intros <;> decide +kernel

/-- Concrete states and operands meet the hypotheses of `Obligations.MemoryIsEnabledOnlyWhenItsAreasLieInHbm`, clause by clause. -/
theorem test_MemoryIsEnabledOnlyWhenItsAreasLieInHbm_hypotheses :
    (let w : BusWr := wr 7
    let s : State := keyed
    s.Reached w Off.MEM_CTRL ∧ s.holdsKey w.req = true ∧ bitAt w.val.toNat 0 = true ∧
      (after (exec (.memCtrlEn w) s)).memOk = true) ∧
    (let w : BusWr := wr 7
    let s : State := keyed.fset F.SAVE_BASE_HI.ADDR_HI 0xFFFF
    s.Reached w Off.MEM_CTRL ∧ s.holdsKey w.req = true ∧ bitAt w.val.toNat 0 = true ∧
      (after (exec (.memCtrlEn w) s)).memOk = false) ∧
    (let k : Fin 8 := 3
    let w : BusWr := wr 0x4245
    let s : State := keyed
    s.Reached w (Off.HBM_PC_REMAP k.val) ∧ s.holdsKey w.req = true ∧ s.stackTrained k.val = false ∧
      pcRemapOk w.val.toNat = true) ∧
    (let k : Fin 8 := 3
    let w : BusWr := wr 0x4141
    let s : State := keyed
    s.Reached w (Off.HBM_PC_REMAP k.val) ∧ s.holdsKey w.req = true ∧
      (s.stackTrained k.val = true ∨ pcRemapOk w.val.toNat = false)) :=
  by unfold State.Reached; and_intros <;> decide +kernel

/-! ### Lorlink -/

/-- Concrete states and operands meet the hypotheses of `Obligations.MessagesActAtTheirDestination`, clause by clause. -/
theorem test_MessagesActAtTheirDestination_hypotheses :
    (let q : PortIx := 0
    let m : Msg := { msgT with mtype := 1, vc := 0, aux := 4, addr := 0x2000 }
    let s : State := got m
    s.headMsg q.val m.vc m.mtype = some m ∧ m.mtype = 1 ∧ 1 ≤ m.aux ∧ m.aux ≤ 4096 ∧ m.addr + m.aux ≤ hbmEnd) ∧
    (let q : PortIx := 0
    let m : Msg := { msgT with mtype := 1, vc := 0, aux := 4097, addr := 0x2000 }
    let s : State := got m
    s.headMsg q.val m.vc m.mtype = some m ∧ m.mtype = 1 ∧ (m.aux = 0 ∨ 4096 < m.aux)) ∧
    (let q : PortIx := 0
    let m : Msg := { msgT with mtype := 2, vc := 1, aux := 5, data := [1, 2, 3, 4] }
    let s : State := gotFor false m
    let x := xs
    let f : InFlight := flyR
    let st : Stream := strmFor false
    s.headMsg q.val m.vc m.mtype = some m ∧ s.findRemote m.src m.aux (2 ^ 32) false = some (x, st, f) ∧ s.stream x = some st ∧
      st.blocks ≠ [] ∧ f.blk.space ≠ 1 ∧ f.blk.kind ≠ .look) ∧
    (let q : PortIx := 0
    let m : Msg := { msgT with mtype := 2, vc := 1, aux := 5, data := [1, 2, 3, 4] }
    let p : Prefetch := { pkg := 3, bseq := 5, fl := 0, blk := 9 }
    let s : State := { got m with link := { (got m).link with fetches := [p] } }
    s.headMsg q.val m.vc m.mtype = some m ∧ s.findRemote m.src m.aux (2 ^ 32) false = none ∧
      s.link.fetches.find? (fun p => p.pkg == m.src && p.bseq == m.aux) = some p) ∧
    (let q : PortIx := 0
    let m : Msg := { msgT with mtype := 2, vc := 1, aux := 5, data := [1, 2, 3, 4] }
    let s : State := got m
    s.headMsg q.val m.vc m.mtype = some m ∧ s.findRemote m.src m.aux (2 ^ 32) false = none ∧
      s.link.fetches.find? (fun p => p.pkg == m.src && p.bseq == m.aux) = none) ∧
    (let q : PortIx := 0
    let m : Msg := { msgT with mtype := 3, vc := 2, addr := 0x2000, data := [1, 2, 3] }
    let s : State := got m
    s.headMsg q.val m.vc m.mtype = some m ∧ s.wallBlocks m.addr m.plain.length = false ∧
      s.wallFull m.addr m.plain.length = false ∧ m.addr + m.plain.length ≤ hbmEnd ∧ s.wallCaptures = false) ∧
    (let q : PortIx := 0
    let m : Msg := { msgT with mtype := 3, vc := 2, addr := 0x2000, data := [1] }
    let s : State := behindWall (got m)
    s.headMsg q.val m.vc m.mtype = some m ∧ s.wallBlocks m.addr m.plain.length = true) ∧
    (let q : PortIx := 0
    let m : Msg := { msgT with mtype := 4, vc := 1, aux := 5 }
    let s : State := gotFor true m
    let x := xs
    let f : InFlight := flyR
    let st : Stream := strmFor true
    s.headMsg q.val m.vc m.mtype = some m ∧ s.findRemote m.src m.aux (2 ^ 31) true = some (x, st, f) ∧ bitAt m.aux 31 = false ∧
      s.stream x = some st ∧ st.blocks ≠ []) ∧
    (let q : PortIx := 0
    let m : Msg := { msgT with mtype := 4, vc := 1, aux := 2 ^ 31 + 5 }
    let s : State := gotFor true m
    let x := xs
    let f : InFlight := flyR
    let st : Stream := strmFor true
    s.headMsg q.val m.vc m.mtype = some m ∧ s.findRemote m.src m.aux (2 ^ 31) true = some (x, st, f) ∧ bitAt m.aux 31 = true ∧
      s.stream x = some st ∧ st.park = none ∧ s.streamCmd x st = some { moveTask 3 with started := true, ctx := 5 } ∧
      st.ctx ≠ fwCtx) ∧
    (let q : PortIx := 0
    let m : Msg := { msgT with mtype := 4, vc := 1, aux := 5 }
    let s : State := { got m with link := { (got m).link with acks := [{ pkg := 3, bseq := 5, use := useT }] } }
    s.headMsg q.val m.vc m.mtype = some m ∧ s.findRemote m.src m.aux (2 ^ 31) true = none ∧ (s.link.acks.find? fun p => p.pkg == m.src && p.bseq % 2 ^ 31 == m.aux % 2 ^ 31).isSome = true) ∧
    (let q : PortIx := 0
    let m : Msg := { msgT with mtype := 4, vc := 1, aux := 5 }
    let s : State := got m
    s.headMsg q.val m.vc m.mtype = some m ∧ s.findRemote m.src m.aux (2 ^ 31) true = none ∧
      s.link.acks.find? (fun p => p.pkg == m.src && p.bseq % 2 ^ 31 == m.aux % 2 ^ 31) = none) ∧
    (let q : PortIx := 0
    let m : Msg := { msgT with mtype := 5, addr := 0x4005, aux := 3 }
    let s : State := (got m).fset F.LATCH_IN.LAST 100
    s.headMsg q.val m.vc m.mtype = some m ∧ s.fget F.LATCH_IN.FIRST ≤ m.addr % 2 ^ 14 ∧
      m.addr % 2 ^ 14 ≤ s.fget F.LATCH_IN.LAST ∧ (bitsAt m.addr 14 2 = 1 ∨ bitsAt m.addr 14 2 = 2)) ∧
    (let q : PortIx := 0
    let m : Msg := { msgT with mtype := 5, addr := 0x4005, aux := 3 }
    let s : State := (got m).fset F.LATCH_IN.LAST 4
    s.headMsg q.val m.vc m.mtype = some m ∧ (m.addr % 2 ^ 14 < s.fget F.LATCH_IN.FIRST ∨
      s.fget F.LATCH_IN.LAST < m.addr % 2 ^ 14)) ∧
    (let q : PortIx := 0
    let m : Msg := { msgT with mtype := 6, vc := 4, data := List.replicate 64 1 }
    let s : State := got m
    s.headMsg q.val m.vc m.mtype = some m ∧ m.mtype = 6) ∧
    (let q : PortIx := 0
    let m : Msg := msgT
    let s : State := got m
    s.headMsg q.val m.vc m.mtype = some m ∧ m.mtype = 7) :=
  by and_intros <;> decide +kernel

/-- Concrete states and operands meet the hypotheses of `Obligations.EpochMessagesMirrorTheWindows`, clause by clause. -/
theorem test_EpochMessagesMirrorTheWindows_hypotheses :
    (let q : PortIx := 4
    let s : State := wallGot ({ msgT with mtype := 8, vc := 3, aux := 1, addr := 0x40, data := [1, 2] })
    let m : Msg := { msgT with mtype := 8, vc := 3, aux := 1, addr := 0x40, data := [1, 2] }
    s.headMsg q.val 3 8 = some m ∧ s.wallState = 3) ∧
    (let q : PortIx := 4
    let s : State := wallGot ({ msgT with mtype := 9, vc := 3, aux := 1, addr := 0 })
    let m : Msg := { msgT with mtype := 9, vc := 3, aux := 1, addr := 0 }
    s.headMsg q.val 3 9 = some m ∧ s.wallState = 3 ∧ logBytes (s.link.wall.epoch m.aux) = m.addr) ∧
    (let q : PortIx := 4
    let s : State := wallGot ({ msgT with mtype := 9, vc := 3, aux := 1, addr := 5 })
    let m : Msg := { msgT with mtype := 9, vc := 3, aux := 1, addr := 5 }
    s.headMsg q.val 3 9 = some m ∧ s.wallState = 3 ∧ logBytes (s.link.wall.epoch m.aux) ≠ m.addr) ∧
    (let q : PortIx := 4
    let s : State := wallGot ({ msgT with mtype := 0xA, vc := 3, aux := 1 })
    let m : Msg := { msgT with mtype := 0xA, vc := 3, aux := 1 }
    s.headMsg q.val 3 0xA = some m ∧ s.wallState = 3) :=
  by and_intros <;> decide +kernel

/-- Concrete states and operands meet the hypotheses of `Obligations.FlitsAreAcceptedInOrderOrAskedForAgain`, clause by clause. -/
theorem test_FlitsAreAcceptedInOrderOrAskedForAgain_hypotheses :
    (let m : Msg := { msgT with dst := 3 }
    let s : State := { up.setReg (Off.ROUTE 3) 1 with link := { LinkSt.reset with out := [m] } }
    let rest : List Msg := []
    s.running = true ∧ s.link.out = m :: rest ∧ m.origin = none ∧ m.vc ≠ 3 ∧
      s.noPath (s.reg (Off.ROUTE m.dst)) m.dst = false ∧ (∀ p, p < 5 → s.isLive p = false)) ∧
    (let m : Msg := { msgT with vc := 3 }
    let s : State := { up with link := { LinkSt.reset with out := [m] } }
    let rest : List Msg := []
    s.running = true ∧ s.link.out = m :: rest ∧ m.vc = 3 ∧ (∀ p, p < 5 → s.isLive p = false)) ∧
    (let q : PortIx := 0
    let f : Flit := flitT crcT
    let s : State := ports 7
    f.ok = true ∧ s.running = true ∧ s.isLive q.val = true ∧ (s.port q.val).fecLog = [] ∧ f.fecLanes = [] ∧
      crc32c (flitBytes f) = f.crc ∧ hReserved f.hdr = false ∧ hKind f.hdr = 1 ∧ hSeq f.hdr = (s.port q.val).rxSeq) ∧
    (let q : PortIx := 0
    let f : Flit := flitT 0
    let s : State := ports 7
    f.ok = true ∧ s.running = true ∧ s.isLive q.val = true ∧ (s.port q.val).fecLog = [] ∧ f.fecLanes = [] ∧
      crc32c (flitBytes f) ≠ f.crc ∧ (s.port q.val).nakWait = false) ∧
    (let q : PortIx := 0
    let f : Flit := flitT 0
    let s : State := (ports 7).setPort 0 { PortSt.reset with nakWait := true }
    f.ok = true ∧ s.running = true ∧ s.isLive q.val = true ∧ (s.port q.val).fecLog = [] ∧ f.fecLanes = [] ∧
      crc32c (flitBytes f) ≠ f.crc ∧ (s.port q.val).nakWait = true) ∧
    (let q : PortIx := 0
    let h : W64 := 2
    let s : State := (ports 7).setPort 0 { PortSt.reset with replay := [(0, flitT 0)] }
    s.running = true ∧ s.isLive q.val = true ∧ hKind h = 2 ∧ hReserved h = false ∧ hAckV h = false ∧
      (s.port q.val).nakRun = 0) ∧
    (let q : PortIx := 0
    let s : State := (ports 7).setPort 0 { PortSt.reset with nakWait := true }
    s.running = true ∧ s.isLive q.val = true ∧ (s.port q.val).nakWait = true) ∧
    (let q : PortIx := 0
    let vc : Fin 8 := 1
    let x : Partial := partT .here
    let s : State := (ports 7).setPort 0 { PortSt.reset with parts := [(1, some x)] }
    s.running = true ∧ (s.port q.val).parts.get (fun _ => none) vc.val = some x ∧ x.course = .here ∧ msgField x.bytes 0 1 ≠ 2) ∧
    (let q : PortIx := 0
    let vc : Fin 8 := 1
    let x : Partial := partT .onward
    let s : State := (ports 7).setPort 0 { PortSt.reset with parts := [(1, some x)] }
    s.running = true ∧ (s.port q.val).parts.get (fun _ => none) vc.val = some x ∧ x.course ≠ .here) ∧
    (let q : PortIx := 0
    let h : W64 := 0x23
    let x : Partial := partT .here
    let s : State := (ports 7).setPort 0 { PortSt.reset with parts := [(1, some x)] }
    s.running = true ∧ s.isLive q.val = true ∧ hKind h = 3 ∧ hReserved h = false ∧
      (s.port q.val).parts.get (fun _ => none) (hVc h) = some x ∧ msgField x.bytes 0xC 2 = hCseq h ∧ x.course = .here ∧
      msgField x.bytes 0 1 ≠ 2) :=
  by and_intros <;> first | with_reducible exact flitT_ok | with_reducible exact flitT_bad | decide +kernel

/-- Concrete states and operands meet the hypotheses of `Obligations.PortsTrainAndRingsJoin`, clause by clause. -/
theorem test_PortsTrainAndRingsJoin_hypotheses :
    (let q : PortIx := 0
    let w : BusWr := wr 2
    let s : State := ports 7
    s.Reached w (Off.PORT_CTRL q.val) ∧ bitAt w.val.toNat 1 = true ∧ s.isLive q.val = true) ∧
    (let q : PortIx := 0
    let w : BusWr := wr 0
    let s : State := ports 7
    s.Reached w (Off.PORT_CTRL q.val) ∧ bitAt w.val.toNat 0 = false) ∧
    (let q : PortIx := 4
    let w : BusWr := wr 1
    let s : State := ports 0
    s.Reached w (Off.PORT_CTRL q.val) ∧ bitAt w.val.toNat 0 = true ∧ s.portState q.val = 0 ∧
      (q = 4 ∨ s.flag (biasFld (q.val / 2)) = true)) ∧
    (let q : PortIx := 2
    let i : TrainInfo := learned
    let s : State := ports 1
    i.ok = true ∧ s.running = true ∧ s.portState q.val = 1) ∧
    (let q : PortIx := 0
    let i : TrainInfo := learned
    let s : State := (ports 2).fset F.RING_CFG.RING_SIZE 4
    i.ok = true ∧ s.running = true ∧ s.portState q.val = 2 ∧ s.bypassCheck q.val i = 0) ∧
    (let q : PortIx := 0
    let i : TrainInfo := learned
    let s : State := ports 2
    i.ok = true ∧ s.running = true ∧ s.portState q.val = 2 ∧ s.bypassCheck q.val i ≠ 0) ∧
    (let q : PortIx := 2
    let i : TrainInfo := learned
    let s : State := ports 5
    i.ok = true ∧ s.running = true ∧ s.portState q.val = 5) ∧
    (let q : PortIx := 0
    let i : TrainInfo := learned
    let s : State := ports 6
    i.ok = true ∧ s.running = true ∧ s.portState q.val = 6 ∧ q ≠ 4 ∧ (s.port q.val).wallFail = false) ∧
    (let q : PortIx := 4
    let i : TrainInfo := learned
    let s : State := ports 6
    i.ok = true ∧ s.running = true ∧ s.portState q.val = 6 ∧ q = 4 ∧ (s.port 4).wallFail = false ∧
      s.handshake i = false) ∧
    (let q : PortIx := 0
    let s : State := ports 2
    s.running = true ∧ s.portState q.val = 2) ∧
    (let q : PortIx := 0
    let s : State := ports 3
    s.running = true ∧ s.portState q.val = 3) ∧
    (let q : PortIx := 0
    let s : State := ports 4
    s.running = true ∧ (s.portState q.val = 4 ∨ s.portState q.val = 5)) ∧
    (let s : State := (ports 6).setPort 4 { PortSt.reset with wallFail := true }
    s.running = true ∧ s.portState 4 = 6 ∧ (s.port 4).wallFail = true) ∧
    (let q : PortIx := 1
    let s : State := ports 7
    s.running = true ∧ s.isLive q.val = true) ∧
    (let w : BusWr := wr 1
    let s : State := (ports 0).fset F.CLK_STATUS.LORLINK_LOCK 3
    s.Reached w Off.RING_CTRL ∧ bitAt w.val.toNat 1 = false ∧ s.fget (ringFld 1) = 0 ∧ bitAt w.val.toNat 0 = true ∧
      s.fget (ringFld 0) = 0 ∧ s.fget F.PWR_STATUS.STATE ≠ 2 ∧ bitAt (s.fget F.CLK_STATUS.LORLINK_LOCK) 0 = true ∧
      bitAt (s.fget F.CLK_STATUS.LORLINK_LOCK) 1 = true) ∧
    (let w : BusWr := wr 1
    let s : State := ports 0
    s.Reached w Off.RING_CTRL ∧ bitAt w.val.toNat 1 = false ∧ s.fget (ringFld 1) = 0 ∧ bitAt w.val.toNat 0 = true ∧
      s.fget (ringFld 0) = 0 ∧ bitAt (s.fget F.CLK_STATUS.LORLINK_LOCK) 0 = false) ∧
    (let w : BusWr := wr 0
    let s : State := ((ports 7).fset (ringFld 0) 2).fset (biasFld 0) 1
    s.Reached w Off.RING_CTRL ∧ bitAt w.val.toNat 1 = false ∧ s.fget (ringFld 1) = 0 ∧ bitAt w.val.toNat 0 = false ∧
      s.fget (ringFld 0) ≠ 0) ∧
    (let g : RingIx := 0
    let s : State := (up.fset (ringFld 0) 1).fset (F.PORT_STATE.STATE 1) 7
    s.running = true ∧ s.fget (ringFld g.val) = 1 ∧ (s.isLive (2 * g.val) = true ∨ s.isLive (2 * g.val + 1) = true)) ∧
    (let g : RingIx := 0
    let s : State := up.fset (ringFld 0) 1
    s.running = true ∧ s.fget (ringFld g.val) = 1 ∧ s.isLive (2 * g.val) = false ∧ s.isLive (2 * g.val + 1) = false) :=
  by unfold State.Reached; and_intros <;> decide +kernel

/-- Concrete states and operands meet the hypotheses of `Obligations.WallEpochsCloseAndStatesChange`, clause by clause. -/
theorem test_WallEpochsCloseAndStatesChange_hypotheses :
    (let s : State := walled 3
    s.running = true ∧ s.flag F.PW_CTRL.MODE = false ∧ s.wallState = 3) ∧
    (let w : BusWr := wr 2
    let s : State := walled 3
    s.Reached w Off.PW_CTRL ∧ bitAt w.val.toNat 1 = true ∧ s.wallState = 3) ∧
    (let w : BusWr := wr 4
    let s : State := (((walled 1).fset F.PW_ROLE.KEEPER 1).fset (F.PORT_STATE.STATE 4) 7).setPort 4
      { PortSt.reset with wallOk := true }
    s.Reached w Off.PW_CTRL ∧ bitAt w.val.toNat 2 = true ∧ s.wallState = 1 ∧ s.keeperEff = true ∧ s.portState 4 = 7 ∧
      (s.port 4).wallOk = true) ∧
    (let w : BusWr := wr 8
    let s : State := (keyed.fset F.PW_ROLE.WALL_EN 1).fset F.PW_STATUS.STATE 1
    s.Reached w Off.PW_CTRL ∧ s.holdsKey w.req = true ∧ bitAt w.val.toNat 3 = true ∧ s.wallState = 1 ∧
      s.flag F.PW_ROLE.KEEPER = false ∧
      (bitAt w.val.toNat 2 = true → s.keeperEff = false ∨ s.portState 4 ≠ 7 ∨ (s.port 4).wallOk = false)) ∧
    (let w : BusWr := wr 12
    let s : State := (keyed.fset F.PW_ROLE.WALL_EN 1).fset F.PW_STATUS.STATE 1
    s.Reached w Off.PW_CTRL ∧ s.holdsKey w.req = true ∧ bitAt w.val.toNat 3 = true ∧ s.wallState = 1 ∧
      s.flag F.PW_ROLE.KEEPER = false ∧
      (bitAt w.val.toNat 2 = true → s.keeperEff = false ∨ s.portState 4 ≠ 7 ∨ (s.port 4).wallOk = false)) ∧
    (let s : State := walled 4
    s.running = true ∧ s.wallState = 4) :=
  by unfold State.Reached; and_intros <;> decide +kernel

/-! ### Contexts and the host boundary -/

/-- Concrete states and operands meet the hypotheses of `Obligations.ContextsAreCreatedAndTornDown`, clause by clause. -/
theorem test_ContextsAreCreatedAndTornDown_hypotheses :
    (let w : BusWr := wr 0x1005
    let s : State := up.fset F.CTX_STATUS.BUSY 1
    let c := .create (wr 0x1005)
    s.Reached w Off.CTX_CMD ∧ (s.flag F.CTX_STATUS.BUSY = true ∨ s.hs.flr ≠ []) ∧
      c ∈ [Instr.create w, Instr.destroy w]) ∧
    (let w : BusWr := wr 0x1006
    let s : State := queued.fset F.BOOT_STATUS.STAGE 5
    s.Reached w Off.CTX_CMD ∧ s.flag F.CTX_STATUS.BUSY = false ∧ s.hs.flr = [] ∧ s.ready = true ∧
      bitsAt w.val.toNat 12 2 = 1) ∧
    (let w : BusWr := wr 0x2006
    let s : State := queued.fset F.BOOT_STATUS.STAGE 5
    s.Reached w Off.CTX_CMD ∧ s.flag F.CTX_STATUS.BUSY = false ∧ s.hs.flr = [] ∧ s.ready = true ∧
      bitsAt w.val.toNat 12 2 = 2 ∧ (s.ctx (w.val.toNat % 2048)).live = false) ∧
    (let w : BusWr := wr 0x2005
    let s : State := queued.fset F.BOOT_STATUS.STAGE 5
    s.Reached w Off.CTX_CMD ∧ s.flag F.CTX_STATUS.BUSY = false ∧ s.hs.flr = [] ∧ s.ready = true ∧
      bitsAt w.val.toNat 12 2 = 2 ∧ (s.ctx (w.val.toNat % 2048)).live = true) ∧
    (let c : CtxId := 6
    let s : State := { queued.fset F.BOOT_STATUS.STAGE 5 with hs := { HostSt.reset with ctxOp := some (.create 6) } }
    s.hs.ctxOp = some (.create c) ∧ s.createCheck c.val (s.ctxEntry c.val) ≠ 0) ∧
    (let c : CtxId := 6
    let s : State := { (queued.fset F.KEYSTONE_CTRL.SET 1).fset F.MEM_CTRL.EN 1 with
      hs := { HostSt.reset with ctxOp := some (.create 6) }, ms := { queued.ms with mem := Mem.writeLe [] 384 64 0x110010000500000000000000300000000000000020000000000000001000000000000000000601 } }
    s.hs.ctxOp = some (.create c) ∧ s.createCheck c.val (s.ctxEntry c.val) = 0) ∧
    (let c : CtxId := 5
    let s : State :=
      { (withStrm { strm with ctx := 5, flight := [fly 2 0x10000] }) with hs := { HostSt.reset with ctxOp := some (.destroy 5) } }
    s.hs.ctxOp = some (.destroy c) ∧ s.hs.flr = [] ∧ s.quiet c.val = false) ∧
    (let c : CtxId := 5
    let s : State :=
      { queued.setCtx 5 { ctxOn with stopped := true } with hs := { HostSt.reset with ctxOp := some (.destroy 5) } }
    s.hs.ctxOp = some (.destroy c) ∧ s.hs.flr = [] ∧ s.quiet c.val = true) ∧
    (let v : Fin 256 := 3
    let s : State :=
      { up with hs := { HostSt.reset with vfRegs := [(3 * 0x10000 + 0x8000, 5)], msixPnd := [(.vf 3, 2), (.pf, 1)] } }
    s.running = true ∧ s.hs.flr = [] ∧ s.liveOf (.vf v) = []) ∧
    (let s : State := queued
    s.running = true) ∧
    (let s : State := up
    s.running = true) ∧
    (let v : Fin 256 := 2
    let isSize : Bool := true
    let w : BusWr := wr 5
    let s : State := keyed.setCtx 5 { ctxOn with func := 3 }
    let x := if isSize then w.val.toNat % 2 ^ 12 else w.val.toNat % 2 ^ 27
    let f := if isSize then F.VF_APT_SIZE.SIZE v.val else F.VF_APT_BASE.BASE v.val
    let a := (s.fset f x).aperture v.val
    let used := s.ctxs.any fun p => p.2.live && p.2.func == v.val + 1
    s.Reached w (if isSize then Off.VF_APT_SIZE v.val else Off.VF_APT_BASE v.val) ∧ s.holdsKey w.req = true ∧
      (isSize = true → x ≤ 2048) ∧ (used = true ∨ hbmEnd < a.1 + a.2)) ∧
    (let v : Fin 256 := 2
    let isSize : Bool := true
    let w : BusWr := wr 5
    let s : State := keyed
    let x := if isSize then w.val.toNat % 2 ^ 12 else w.val.toNat % 2 ^ 27
    let f := if isSize then F.VF_APT_SIZE.SIZE v.val else F.VF_APT_BASE.BASE v.val
    let a := (s.fset f x).aperture v.val
    let used := s.ctxs.any fun p => p.2.live && p.2.func == v.val + 1
    s.Reached w (if isSize then Off.VF_APT_SIZE v.val else Off.VF_APT_BASE v.val) ∧ s.holdsKey w.req = true ∧
      (isSize = true → x ≤ 2048) ∧ used = false ∧ a.1 + a.2 ≤ hbmEnd) ∧
    (let k : Fin 3 := 1
    let w : BusWr := wr 5
    let s : State := queued
    s.Reached w (if k = 0 then Off.FLUE_BASE_LO else if k = 1 then Off.FLUE_BASE_HI else Off.FLUE_SIZE) ∧
      (s.ctxs.any fun p => p.2.live) = true) ∧
    (let k : Fin 3 := 0
    let w : BusWr := wr 0x5000
    let s : State := up
    s.Reached w (if k = 0 then Off.FLUE_BASE_LO else if k = 1 then Off.FLUE_BASE_HI else Off.FLUE_SIZE) ∧
      (s.ctxs.any fun p => p.2.live) = false ∧ (k = 2 → 8 ≤ w.val.toNat % 32 ∧ w.val.toNat % 32 ≤ 20)) :=
  by unfold State.Reached; and_intros <;> decide +kernel

/-- Concrete states and operands meet the hypotheses of `Obligations.TheHostBoundaryIsServed`, clause by clause. -/
theorem test_TheHostBoundaryIsServed_hypotheses :
    (let s : State := linked
    s.running = true ∧ s.hs.linkUp = true) ∧
    (let f : Func := .pf
    let s : State := queued
    s.running = true ∧ f = .pf ∧ (s.ctxs.any fun p => p.2.live) = true) ∧
    (let f : Func := .vf 2
    let s : State := up
    s.running = true ∧ (f = .pf → (s.ctxs.any fun p => p.2.live) = false)) ∧
    (let f : Func := .pf
    let vec : Nat := 3
    let s : State :=
      { linked.fset (F.MSIX_CTRL.MASK 3) 0 with hs := { HostSt.reset with linkUp := true, msixOn := [(.pf, 3)], msixPnd := [(.pf, 3)] } }
    vectorOk f vec = true ∧ (f, vec) ∈ s.hs.msixOn ∧ (f, vec) ∈ s.hs.msixPnd ∧ s.hs.linkUp = true ∧
      s.vecMasked f vec = false) ∧
    (let f : Func := .vf 7
    let vec : Nat := 3
    let s : State := { linked with hs := { HostSt.reset with msixOn := [(.vf 7, 3), (.pf, 3)] } }
    vectorOk f vec = true ∧ (f, vec) ∈ s.hs.msixOn ∧ (f, vec) ∉ s.hs.msixPnd) ∧
    (let p : Fin 2 := 1
    let s : State := (up.fset (F.CXL_STATUS.DEV_OK 1) 1).fset (F.CXL_STATUS.LINK_UP 1) 1
    s.running = true ∧ s.flag (F.CXL_STATUS.DEV_OK p.val) = true) ∧
    (let p : Fin 2 := 0
    let s : State := up
    s.running = true ∧ s.flag (F.CXL_STATUS.DEV_OK p.val) = false) ∧
    (let f : Func := .pf
    let addr : BitVec 39 := 0x2000
    let n : Nat := 4
    let s : State := { linked with ms := { MemSt.reset with mem := memT } }
    let p := s.barSpan { fn := f, off := addr.toNat, wdata := none, n := n }
    bar4Ok f addr none n = true ∧ s.barOn f = true ∧ s.hs.barWait = [] ∧ s.anyPoison p.1 p.2 = false) ∧
    (let f : Func := .pf
    let addr : BitVec 39 := 0x2000
    let l : List Byte := [1, 2]
    let s : State := { walled 1 with hs := { HostSt.reset with linkUp := true } }
    let p := s.barSpan { fn := f, off := addr.toNat, wdata := some l, n := l.length }
    bar4Ok f addr (some l) l.length = true ∧ s.barOn f = true ∧ s.hs.barWait = [] ∧ p.2 ≠ 0 ∧
      s.wallBlocks p.1 p.2 = true) ∧
    (let f : Func := .pf
    let addr : BitVec 39 := 0x2000
    let l : List Byte := [1, 2]
    let s : State := linked
    let p := s.barSpan { fn := f, off := addr.toNat, wdata := some l, n := l.length }
    bar4Ok f addr (some l) l.length = true ∧ s.barOn f = true ∧ s.hs.barWait = [] ∧ p.2 ≠ 0 ∧
      s.wallBlocks p.1 p.2 = false ∧ s.wallCaptures = false) :=
  by and_intros <;> decide +kernel

/-! ### Management and test access -/

/-- Concrete states and operands meet the hypotheses of `Obligations.ManagementCommandsAreAnswered`, clause by clause. -/
theorem test_ManagementCommandsAreAnswered_hypotheses :
    (let c : Instr := .getpldmtypes .pcieVdm
    let b : MBus := .pcieVdm
    let s : State := up
    mgBusOf c = some b ∧ c.wellFormed = true ∧ s.mgHears b = false) ∧
    (let b : MBus := .smbus
    let s : State := up
    let op := (0 : BitVec 2)
    let eid := (9 : Byte)
    s.mgHears b = true ∧ op.toNat < 2 ∧ idOk eid = true) ∧
    (let b : MBus := .smbus
    let s : State := up
    let op := (1 : BitVec 2)
    let eid := (0xFF : Byte)
    s.mgHears b = true ∧ op.toNat < 2 ∧ idOk eid = false) ∧
    (let b : MBus := .smbus
    let s : State := up
    let ty := (0 : Byte)
    s.mgHears b = true ∧ (ty = 0xFF ∨ ty = 0 ∨ ty = 1)) ∧
    (let b : MBus := .smbus
    let s : State := up
    let ty := (0 : BitVec 7)
    let cmd := (9 : Byte)
    s.mgHears b = true ∧ ty = 0 ∧ mctpKnown cmd = false) ∧
    (let b : MBus := .smbus
    let s : State := up
    let ty := (1 : BitVec 7)
    s.mgHears b = true ∧ ty ≠ 0) ∧
    (let b : MBus := .smbus
    let s : State := up
    let ty := (5 : BitVec 6)
    let cmd := (0xEE : Byte)
    s.mgHears b = true ∧ (s.inRecovery = false ∨ ty = 5) ∧ pldmKnown ty.toNat cmd.toNat = false) ∧
    (let b : MBus := .smbus
    let s : State := up
    let tid := (9 : Byte)
    s.mgHears b = true ∧ s.inRecovery = false ∧ idOk tid = true) ∧
    (let b : MBus := .smbus
    let s : State := up
    let ty := (0 : Byte)
    s.mgHears b = true ∧ s.inRecovery = false ∧ (ty = 0 ∨ ty = 2 ∨ ty = 5)) ∧
    (let b : MBus := .smbus
    let s : State := up
    let en := (3 : Byte)
    s.mgHears b = true ∧ s.inRecovery = false ∧ (en = 0 ∨ en = 1 ∨ en = 3)) ∧
    (let b : MBus := .smbus
    let s : State := up
    let sensor := (17 : BitVec 16)
    s.mgHears b = true ∧ s.inRecovery = false ∧ isNumeric sensor.toNat = true) ∧
    (let b : MBus := .smbus
    let s : State := up
    let sensor := (32 : BitVec 16)
    s.mgHears b = true ∧ s.inRecovery = false ∧ isStateSensor sensor.toNat = true) ∧
    (let b : MBus := .smbus
    let s : State := up
    let sensor := (5 : BitVec 16)
    let op := (2 : Byte)
    s.mgHears b = true ∧ s.inRecovery = false ∧ isNumeric sensor.toNat = true ∧ op.toNat ≤ 2) ∧
    (let b : MBus := .smbus
    let s : State := up
    let h := (0 : W32)
    let n := 1
    s.mgHears b = true ∧ s.inRecovery = false ∧ sensorIds[pdrIndex h.toNat]? = some n) ∧
    (let sensor : BitVec 16 := 32
    let s : State := up.fset F.BOOT_STATUS.STAGE 5
    s.running = true ∧ isStateSensor sensor.toNat = true ∧
      s.mg.lastSent.get (fun _ => 0) sensor.toNat ≠ s.stateOf sensor.toNat) ∧
    (let sensor : BitVec 16 := 32
    let s : State := { up with mg := { MgmtSt.reset with merging := [32] } }
    sensor.toNat ∈ s.mg.merging) ∧
    (let b : MBus := .smbus
    let s : State := upd .idle
    let n := (2 : BitVec 16)
    s.mgHears b = true ∧ s.mg.upd = .idle ∧ n ≠ 0) ∧
    (let b : MBus := .smbus
    let s : State := upd .ready
    s.mgHears b = true ∧ s.mg.upd ≠ .idle) ∧
    (let b : MBus := .smbus
    let s : State := upd .learn
    let comp := (1 : BitVec 16)
    s.mgHears b = true ∧ (s.mg.upd = .learn ∨ s.mg.upd = .ready) ∧ compOk comp.toNat = true) ∧
    (let b : MBus := .smbus
    let s : State := upd .ready
    let comp := (2 : BitVec 16)
    let data := [1, 2]
    let c := 0
    let x := { at_ := 0x10, ty := 3, act := false, off := 0x4000, size := 0, crc := 0, ver := 0 : DirItem }
    s.mgHears b = true ∧ s.mg.upd = .ready ∧ updateOk data = true ∧ compOk comp.toNat = true ∧
      dirPick s.boot.flash = some c ∧ s.updItem c comp.toNat = some x) ∧
    (let b : MBus := .smbus
    let s : State := upd .download
    s.mgHears b = true ∧ s.mg.upd = .download) ∧
    (let b : MBus := .smbus
    let s : State := upd .verify
    s.mgHears b = true ∧ s.mg.upd = .verify) ∧
    (let b : MBus := .smbus
    let s : State := upd .apply
    s.mgHears b = true ∧ s.mg.upd = .apply) ∧
    (let b : MBus := .smbus
    let s : State := upd .verify
    s.mgHears b = true ∧ (s.mg.upd = .download ∨ s.mg.upd = .verify ∨ s.mg.upd = .apply)) :=
  by and_intros <;> first | with_reducible exact upd_pick | decide +kernel

/-- Concrete states and operands meet the hypotheses of `Obligations.TestAccessStaysInTheTap`, clause by clause. -/
theorem test_TestAccessStaysInTheTap_hypotheses :
    (let ir : Byte := 9
    5 ≤ ir.toNat) ∧
    (let s : State := { up with pwr := { up.pwr with resetN := false } }
    s.pwr.resetN = false) ∧
    (let s : State := { up with jtag := ⟨4, 0⟩ }
    s.pwr.resetN = true ∧ (s.jtag.ir = 0 ∨ s.jtag.ir = 4)) ∧
    (let s : State := { up with jtag := ⟨3, 0⟩ }
    s.pwr.resetN = true ∧ s.jtag.ir = 3) ∧
    (let s : State := up
    s.pwr.resetN = true ∧ s.jtag.ir ≠ 0 ∧ s.jtag.ir ≠ 3 ∧ s.jtag.ir ≠ 4) :=
  by and_intros <;> decide +kernel

/-! ### Clocks, supplies, resets and power -/

/-- Concrete states and operands meet the hypotheses of `Obligations.ClocksSuppliesAndResetsAct`, clause by clause. -/
theorem test_ClocksSuppliesAndResetsAct_hypotheses :
    (let s : State := { up with ts := 0x123456789A }
    s.running = true) ∧
    (let s : State := up
    let c := .supplyWarning .vddCore
    s.running = true ∧ c ∈ [Instr.vddCoreWarning, Instr.supplyWarning .vddCore]) ∧
    (let s : State := up
    let x := .vddIo
    s.running = true ∧ x ≠ Rail.vddCore) ∧
    (let s : State := up
    s.running = true ∧ 1 ≤ s.fget F.THERM_STATUS.RATE_CAP ∧ s.fget F.THERM_STATUS.RATE_CAP ≤ 16 ∧
      1 ≤ s.fget F.THERM_STATUS.RATE_THERM ∧ s.fget F.THERM_STATUS.RATE_THERM ≤ 16) ∧
    (let s : State := ports 7
    let q : PortIx := 2
    s.running = true ∧ s.isLive q.val = true) ∧
    (let s : State := linked
    s.running = true) ∧
    (let s : State := up.fset (F.CXL_STATUS.DEV_OK 1) 1
    s.running = true) ∧
    (let x := .vddIo
    x ≠ Rail.vaux) ∧
    (let s : State := { queued with pwr := { up.pwr with resetN := false } }
    s.pwr.resetN = false ∧ s.pwr.hold ≠ .trip) ∧
    (let s : State := { up with pwr := { up.pwr with resetN := false } }
    s.pwr.resetN = false) ∧
    (let s : State := up
    s.pwr.resetN = true) ∧
    (let env : StartEnv := envT
    let s : State := up
    env.ok = true ∧ (s.pwr.hold ≠ .cold ∨ env.pinsOk = false)) ∧
    (let env : StartEnv := envT
    let s : State := State.reset
    env.ok = true ∧ s.pwr.hold = .cold ∧ env.pinsOk = true) ∧
    (let w : BusWr := wr 1
    let env : TestEnv := { sramFails := [], drainFails := false }
    let s : State := { keyed with ts := 77 }
    s.Reached w Off.RST_CTRL ∧ s.holdsKey w.req = true ∧ bitAt w.val.toNat 0 = true ∧ env.sramFails = []) :=
  by unfold State.Reached; and_intros <;> decide +kernel

/-- Concrete states and operands meet the hypotheses of `Obligations.PowerStatesAndRoomGatesFollowTheirCommands`, clause by clause. -/
theorem test_PowerStatesAndRoomGatesFollowTheirCommands_hypotheses :
    (let w : BusWr := wr 3
    let s : State := keyed
    let c := .retain (wr 3)
    let g := w.val.toNat % 4
    s.Reached w Off.PWR_CMD ∧ s.holdsKey w.req = true ∧ c ∈ [Instr.active w, Instr.idle w, Instr.retain w] ∧ g = 3) ∧
    (let w : BusWr := wr 1
    let s : State := keyed.fset F.PWR_STATUS.BUSY 1
    let c := .idle (wr 1)
    let g := w.val.toNat % 4
    s.Reached w Off.PWR_CMD ∧ s.holdsKey w.req = true ∧ c ∈ [Instr.active w, Instr.idle w, Instr.retain w] ∧ g ≠ 3 ∧
      s.flag F.PWR_STATUS.BUSY = true) ∧
    (let w : BusWr := wr 1
    let s : State := keyed
    let c := .idle (wr 1)
    let g := w.val.toNat % 4
    s.Reached w Off.PWR_CMD ∧ s.holdsKey w.req = true ∧ c ∈ [Instr.active w, Instr.idle w, Instr.retain w] ∧ g ≠ 3 ∧
      s.flag F.PWR_STATUS.BUSY = false) ∧
    (let s : State := moving up 1 0 false
    s.inTrans 1 0 = true) ∧
    (let s : State := moving (up.fset F.PWR_STATUS.STATE 1) 0 1 false
    s.inTrans 0 1 = true) ∧
    (let s : State := moving { up with ms := { MemSt.reset with fills := [⟨5, 0, 0⟩] } } 2 0 false
    s.retainDrains = true ∧ s.drained = false) ∧
    (let s : State := moving up 2 0 true
    let x : PwrTrans := ⟨2, 0, true⟩
    s.pwr.trans = some x ∧ x.target = 2 ∧ x.closed = true) ∧
    (let s : State := moving ((up.fset (ringFld 0) 2).fset (ringFld 1) 1) 2 0 false
    let x : PwrTrans := ⟨2, 0, false⟩
    s.pwr.trans = some x ∧ x.target = 2 ∧ x.closed = false ∧ s.drained = true) ∧
    (let s : State := moving { up with ms := { MemSt.reset with fills := [⟨5, 0, 0⟩] } } 2 0 false
    let x : PwrTrans := ⟨2, 0, false⟩
    s.pwr.trans = some x ∧ x.target = 2 ∧ x.closed = false ∧ s.drained = false) ∧
    (let env : TestEnv := { sramFails := [], drainFails := false }
    let s : State := moving (up.fset F.PWR_STATUS.STATE 2) 0 2 false
    s.inTrans 0 2 = true ∧ env.sramFails = []) ∧
    (let f : FloorIx := 1
    let w : BusWr := wr 0x1F
    let s : State := up
    s.Reached w (Off.ROOM_PWR f.val) ∧ s.gateChanges f.val w.val.toNat = []) ∧
    (let f : FloorIx := 1
    let w : BusWr := wr 0x10001
    let s : State := up.setRoom 5 { RoomSt.reset with gating := some true }
    let r := 5
    let on := true
    s.Reached w (Off.ROOM_PWR f.val) ∧ s.gateChanges f.val w.val.toNat = [(r, on)] ∧ s.gateRefused r = true) ∧
    (let f : FloorIx := 1
    let w : BusWr := wr 0x10001
    let s : State := up
    let r := 5
    let on := true
    s.Reached w (Off.ROOM_PWR f.val) ∧ s.gateChanges f.val w.val.toNat = [(r, on)] ∧ s.gateRefused r = false) ∧
    (let r : RoomIx := 5
    let s : State := up.setRoom 5 { RoomSt.reset with gating := some true, outOfSvc := [2] }
    s.running = true ∧ (s.room r.val).gating = some true) ∧
    (let r : RoomIx := 5
    let s : State := up.setRoom 5 { RoomSt.reset with gating := some false, outOfSvc := [2] }
    s.running = true ∧ (s.room r.val).gating = some false) :=
  by unfold State.Reached; and_intros <;> decide +kernel

/-- Concrete states and operands meet the hypotheses of `Obligations.OnlyControlCommandsChangeControl`, clause by clause. -/
theorem test_OnlyControlCommandsChangeControl_hypotheses :
    (let c : Instr := .memCtrlEn (wr 1)
    let s : State := State.reset
    let t : State := State.reset
    controlCmd c = false ∧ exec c s = .next t) :=
  ⟨rfl, rfl⟩

end Sys2Proof.Tests
end

section
/-! Every command goes on from every state, to a state that keeps what `State.Keeps` names: the queue, canonical memories,
the free values drawn and the messages sent. One lemma for each command whose meaning branches or runs under a shared
operation; `exec_goesOn` puts them together along the dispatch. -/

namespace Sys2Proof.Machine

open State

/-! ### Going on -/

/-- The outcome `o` is a next state, and that state keeps what `State.Keeps` names of `s`. -/
def State.GoesOn (s : State) (o : Host.Outcome State Fault Refusal) : Prop := ∃ t, o = .next t ∧ s.Keeps t

@[simp] theorem State.goesOn_next (s t : State) : s.GoesOn (.next t) ↔ s.Keeps t := by
  simp [State.GoesOn]

/-- What goes on to `t` keeps the machine whole in `t`. -/
theorem State.GoesOn.keeps {s t : State} {o : Host.Outcome State Fault Refusal} (h : s.GoesOn o) (ho : o = .next t) :
    s.Keeps t := (goesOn_next s t).1 (ho ▸ h)

@[simp] theorem State.keeps_self (s : State) : s.Keeps s := Keeps.refl s

/-! ### Updates that `Keeps` does not see -/

/-- `Keeps` reads the queue, the free counter, the outbox, and memory and flash, and nothing else: an update of
anything else is an equivalence, which `simp` follows through chains of any length. -/
theorem State.keeps_congr {s0 t u : State} (hq : u.pending = t.pending) (hm : u.ms = t.ms) (hb : u.boot = t.boot)
    (hf : u.freeCtr = t.freeCtr) (ho : u.outbox = t.outbox) : s0.Keeps u ↔ s0.Keeps t := by
  have hc : u.memCanon ↔ t.memCanon := by simp [State.memCanon, hm, hb]
  exact ⟨fun h => ⟨hq ▸ h.queue, fun m => hc.1 (h.canon m), hf ▸ h.drawn, ho ▸ h.sent⟩,
    fun h => ⟨hq.trans h.queue, fun m => hc.2 (h.canon m), hf ▸ h.drawn, ho ▸ h.sent⟩⟩

@[simp] theorem State.keeps_setReg (s0 s : State) (k : Nat) (v : W32) : s0.Keeps (s.setReg k v) ↔ s0.Keeps s :=
  keeps_congr rfl rfl rfl rfl rfl

@[simp] theorem State.keeps_fset (s0 s : State) (f : Fld) (x : Nat) : s0.Keeps (s.fset f x) ↔ s0.Keeps s :=
  keeps_congr rfl rfl rfl rfl rfl

@[simp] theorem State.keeps_count (s0 s : State) (f : Fld) (n : Nat) : s0.Keeps (s.count f n) ↔ s0.Keeps s :=
  keeps_congr rfl rfl rfl rfl rfl

@[simp] theorem State.keeps_countSat (s0 s : State) (f : Fld) (n : Nat) : s0.Keeps (s.countSat f n) ↔ s0.Keeps s :=
  keeps_congr rfl rfl rfl rfl rfl

@[simp] theorem State.keeps_setBit (s0 s : State) (f : Fld) (i : Nat) : s0.Keeps (s.setBit f i) ↔ s0.Keeps s :=
  keeps_congr rfl rfl rfl rfl rfl

@[simp] theorem State.keeps_clrBit (s0 s : State) (f : Fld) (i : Nat) : s0.Keeps (s.clrBit f i) ↔ s0.Keeps s :=
  keeps_congr rfl rfl rfl rfl rfl

@[simp] theorem State.keeps_setCtx (s0 s : State) (c : Nat) (x : Ctx) : s0.Keeps (s.setCtx c x) ↔ s0.Keeps s :=
  keeps_congr rfl rfl rfl rfl rfl

@[simp] theorem State.keeps_setRoom (s0 s : State) (r : Nat) (x : RoomSt) : s0.Keeps (s.setRoom r x) ↔ s0.Keeps s :=
  keeps_congr rfl rfl rfl rfl rfl

@[simp] theorem State.keeps_setEng (s0 s : State) (e : Nat) (x : EngSt) : s0.Keeps (s.setEng e x) ↔ s0.Keeps s :=
  keeps_congr rfl rfl rfl rfl rfl

@[simp] theorem State.keeps_setPort (s0 s : State) (q : Nat) (x : PortSt) : s0.Keeps (s.setPort q x) ↔ s0.Keeps s :=
  keeps_congr rfl rfl rfl rfl rfl

@[simp] theorem State.keeps_setArb (s0 s : State) (a : Nat) (x : ArbSt) : s0.Keeps (s.setArb a x) ↔ s0.Keeps s :=
  keeps_congr rfl rfl rfl rfl rfl

@[simp] theorem State.keeps_setCore (s0 s : State) (r : Nat) (c : CoreSt) : s0.Keeps (s.setCore r c) ↔ s0.Keeps s :=
  keeps_congr rfl rfl rfl rfl rfl

@[simp] theorem State.keeps_setMerge (s0 s : State) (k : Nat) (m : Option Merge) : s0.Keeps (s.setMerge k m) ↔ s0.Keeps s :=
  keeps_congr rfl rfl rfl rfl rfl

@[simp] theorem State.keeps_updCmd (s0 s : State) (r seq : Nat) (f : RoomCmd → RoomCmd) :
    s0.Keeps (s.updCmd r seq f) ↔ s0.Keeps s :=
  keeps_congr rfl rfl rfl rfl rfl

@[simp] theorem State.keeps_updStream (s0 s : State) (t : StreamRef) (f : Stream → Stream) :
    s0.Keeps (s.updStream t f) ↔ s0.Keeps s :=
  keeps_congr rfl rfl rfl rfl rfl

theorem State.keeps_withLink {s0 s : State} (h : s0.Keeps s) (l : LinkSt) : s0.Keeps { s with link := l } := by
  simp [h]

/-! ### Shared operations of the register, management and message commands -/

theorem State.whole_goesOn (s : State) (w : BusWr) (f : State → State)
    (h : ∀ t, s.Keeps t → s.Keeps (f t)) :
    s.GoesOn (.next (s.whole w f)) :=
  (goesOn_next s _).2 (State.whole_keeps s w f s (Keeps.refl s) h)

theorem State.busWrite_goesOn (s : State) (off : Nat) (w : BusWr) (f : State → State)
    (h : ∀ t, s.Keeps t → s.Keeps (f t)) :
    s.GoesOn (.next (s.busWrite off w f)) :=
  (goesOn_next s _).2 (State.busWrite_keeps s off w f s (Keeps.refl s) h)

theorem State.openWrite_goesOn (s : State) (off : Nat) (w : BusWr) (f : State → State)
    (h : ∀ t, s.Keeps t → s.Keeps (f t)) :
    s.GoesOn (.next (s.openWrite off w f)) :=
  (goesOn_next s _).2 (State.openWrite_keeps s off w f s (Keeps.refl s) h)

theorem State.keyedWrite_goesOn (s : State) (off : Nat) (w : BusWr) (f : Bool → State → State)
    (h : ∀ keyed t, s.Keeps t → s.Keeps (f keyed t)) :
    s.GoesOn (.next (s.keyedWrite off w f)) :=
  (goesOn_next s _).2 (State.keyedWrite_keeps s off w f s (Keeps.refl s) h)

theorem State.onMctp_goesOn (s : State) (b : MBus) (f : State → State)
    (h : ∀ t, s.Keeps t → s.Keeps (f t)) :
    s.GoesOn (.next (s.onMctp b f)) :=
  (goesOn_next s _).2 (State.onMctp_keeps s b f s (Keeps.refl s) h)

theorem State.onPldm_goesOn (s : State) (b : MBus) (f : State → State)
    (h : ∀ t, s.Keeps t → s.Keeps (f t)) :
    s.GoesOn (.next (s.onPldm b f)) :=
  (goesOn_next s _).2 (State.onPldm_keeps s b f s (Keeps.refl s) h)

theorem State.onUpdate_goesOn (s : State) (b : MBus) (f : State → State)
    (h : ∀ t, s.Keeps t → s.Keeps (f t)) :
    s.GoesOn (.next (s.onUpdate b f)) :=
  (goesOn_next s _).2 (State.onUpdate_keeps s b f s (Keeps.refl s) h)

theorem State.onStep_goesOn (s : State) (b : MBus) (l : List UpdSt) (f : State → State)
    (h : ∀ t, s.Keeps t → s.Keeps (f t)) :
    s.GoesOn (.next (s.onStep b l f)) :=
  (goesOn_next s _).2 (State.onStep_keeps s b l f s (Keeps.refl s) h)

theorem State.onMsg_goesOn (s : State) (q vc ty : Nat) (f : Msg → State → State)
    (h : ∀ m t, s.Keeps t → s.Keeps (f m t)) : s.GoesOn (s.onMsg q vc ty f) := by
  unfold State.onMsg
  split <;> simp [h]

/-! ### Shared operations of the control-core instructions -/

theorem State.ins_goesOn (s : State) (r : Pipe) (f : CoreSt → State) (h : ∀ c, s.Keeps (f c)) : s.GoesOn (s.ins r f) := by
  unfold State.ins
  dsimp only
  split
  · split <;> simp [h]
  · simp

@[simp] theorem State.alu_goesOn (s : State) (r : Pipe) (rd : GReg) (v : CoreSt → W32) : s.GoesOn (s.alu r rd v) :=
  State.ins_goesOn s r _ fun c => by simp

@[simp] theorem State.shift_goesOn (s : State) (r : Pipe) (rd : GReg) (b : Src2) (v : CoreSt → Nat → W32) :
    s.GoesOn (s.shift r rd b v) := by
  refine State.ins_goesOn s r _ fun c => ?_
  dsimp only
  split <;> simp

theorem State.access_goesOn (s : State) (r : Pipe) (ra : GReg) (off : BitVec 16) (n : Nat) (f : CoreSt → Nat → State)
    (h : ∀ c a, s.Keeps (f c a)) : s.GoesOn (s.access r ra off n f) :=
  State.ins_goesOn s r _ fun c => by simp [h]

@[simp] theorem State.loadN_goesOn (s : State) (r : Pipe) (rd ra : GReg) (off : BitVec 16) (n : Nat) (v : Nat → W32) :
    s.GoesOn (s.loadN r rd ra off n v) :=
  State.access_goesOn s r ra off n _ fun c a => by simp

@[simp] theorem State.storeN_goesOn (s : State) (r : Pipe) (ra : GReg) (off : BitVec 16) (n : Nat) (v : CoreSt → Nat) :
    s.GoesOn (s.storeN r ra off n v) :=
  State.access_goesOn s r ra off n _ fun c a => by simp

theorem State.pair_goesOn (s : State) (r : Pipe) (rd : GReg) (o : Host.Outcome State Fault Refusal) (h : s.GoesOn o) :
    s.GoesOn (s.pair r rd o) := by
  unfold State.pair
  split
  · exact h
  · exact State.ins_goesOn s r _ fun c => by simp

@[simp] theorem State.branch_goesOn (s : State) (r : Pipe) (tgt : BitVec 13) (test : CoreSt → Bool) :
    s.GoesOn (s.branch r tgt test) :=
  State.ins_goesOn s r _ fun c => by simp

theorem State.fwOnly_goesOn (s : State) (r : Pipe) (f : CoreSt → State) (h : ∀ c, s.Keeps (f c)) :
    s.GoesOn (s.fwOnly r f) :=
  State.ins_goesOn s r _ fun c => by simp [h]

theorem State.cp_goesOn (s : State) (r : Pipe) (ok : Bool) (f : CoreSt → State) (h : ∀ c, s.Keeps (f c)) :
    s.GoesOn (s.cp r ok f) :=
  State.ins_goesOn s r _ fun c => by simp [h]

theorem State.latchIns_goesOn (s : State) (r : Pipe) (f : CpWord) (ok : Bool) (g : CoreSt → Nat → State)
    (h : ∀ c l, s.Keeps (g c l)) : s.GoesOn (s.latchIns r f ok g) :=
  State.cp_goesOn s r ok _ fun c => by simp [h]

/-! ### Registers, lock, mailbox (R80 to R118) -/

@[simp] theorem execRegisterWrite_goesOn (t : RegTarget) (a : RegAcc) (s : State) : s.GoesOn (execRegisterWrite t a s) := by
  unfold execRegisterWrite
  split <;> simp

@[simp] theorem execLockKeyWrite_goesOn (w : BusWr) (s : State) : s.GoesOn (execLockKeyWrite w s) :=
  State.openWrite_goesOn s _ _ _ fun t ht => by simp [ht]

@[simp] theorem execBStagedApply_goesOn (b : Boundary) (s : State) : s.GoesOn (execBStagedApply b s) := by
  unfold execBStagedApply
  cases b with
  | command => simp
  | frame q => simp
  | tick =>
    refine (goesOn_next s _).2 (keeps_foldl _ _ _ (by simp) fun t q ht => ?_)
    simp [ht]

@[simp] theorem execPWriteTakesEffect_goesOn (d : Domain) (s : State) : s.GoesOn (execPWriteTakesEffect d s) := by
  unfold execPWriteTakesEffect
  split <;> simp

@[simp] theorem execMailboxSelWrite_goesOn (w : BusWr) (s : State) : s.GoesOn (execMailboxSelWrite w s) := by
  refine State.openWrite_goesOn s _ _ _ fun t ht => ?_
  dsimp only
  split <;> simp [ht]

@[simp] theorem execMailboxFetchDone_goesOn (r : Req) (s : State) : s.GoesOn (execMailboxFetchDone r s) := by
  unfold execMailboxFetchDone
  dsimp only
  split
  · split <;> simp
  · simp

@[simp] theorem execMailboxLastWordRead_goesOn (r : Req) (s : State) : s.GoesOn (execMailboxLastWordRead r s) := by
  unfold execMailboxLastWordRead
  split <;> simp

/-! ### Remap, fence, failures (R61 to R76, R388) -/

@[simp] theorem execRemapWrite_goesOn (t : RemapReg) (w : BusWr) (s : State) : s.GoesOn (execRemapWrite t w s) :=
  State.keyedWrite_goesOn s _ _ _ fun keyed t ht => by simp [ht]

@[simp] theorem execFenceRequestWrite_goesOn (t : RemapReg) (w : BusWr) (s : State) :
    s.GoesOn (execFenceRequestWrite t w s) :=
  State.keyedWrite_goesOn s _ _ _ fun keyed t ht => by simp [ht]

@[simp] theorem execFenceDrainEnd_goesOn (u : PhysUnit) (s : State) : s.GoesOn (execFenceDrainEnd u s) := by
  unfold execFenceDrainEnd
  split
  · split <;> simp
  · simp

@[simp] theorem execUnitFailureDetected_goesOn (f : Failure) (s : State) : s.GoesOn (execUnitFailureDetected f s) := by
  unfold execUnitFailureDetected
  split
  · split <;> simp
  · simp

@[simp] theorem execSramUncorrectable_goesOn (x : SramSite) (s : State) : s.GoesOn (execSramUncorrectable x s) := by
  unfold execSramUncorrectable
  dsimp only
  split
  · simp
  · split <;> simp

/-! ### Seal and keystone (R119 to R142) -/

@[simp] theorem execSealSweepEnd_goesOn (s : State) : s.GoesOn (execSealSweepEnd s) := by
  unfold execSealSweepEnd
  split <;> simp

@[simp] theorem execSealCommit_goesOn (w : BusWr) (s : State) : s.GoesOn (execSealCommit w s) :=
  State.keyedWrite_goesOn s _ _ _ fun keyed t ht => by simp [ht]

@[simp] theorem execKeystoneSet_goesOn (w : BusWr) (s : State) : s.GoesOn (execKeystoneSet w s) :=
  State.keyedWrite_goesOn s _ _ _ fun keyed t ht => by simp [ht]

/-! ### Queues and commands (R281 to R334) -/

@[simp] theorem execDbTailWrite_goesOn (p : DbPage) (w : BusWr) (s : State) : s.GoesOn (execDbTailWrite p w s) := by
  refine State.whole_goesOn s _ _ fun t ht => ?_
  split <;> simp [ht]

@[simp] theorem execCompatHoldEnd_goesOn (p : DbPage) (timeout : Bool) (s : State) :
    s.GoesOn (execCompatHoldEnd p timeout s) := by
  unfold execCompatHoldEnd
  split <;> simp

@[simp] theorem execDescriptorDelivery_goesOn (s : State) : s.GoesOn (execDescriptorDelivery s) := by
  unfold execDescriptorDelivery
  split <;> simp

@[simp] theorem execCommandDispatch_goesOn (c : CmdRef) (s : State) : s.GoesOn (execCommandDispatch c s) := by
  unfold execCommandDispatch
  dsimp only
  split
  · split <;> simp
  · simp

@[simp] theorem execCommandComplete_goesOn (c : CmdRef) (s : State) : s.GoesOn (execCommandComplete c s) := by
  unfold execCommandComplete
  split <;> simp

@[simp] theorem execCommandFault_goesOn (c : CmdRef) (s : State) : s.GoesOn (execCommandFault c s) := by
  unfold execCommandFault
  split
  · split <;> simp
  · simp

@[simp] theorem execSync_goesOn (c : CmdRef) (s : State) : s.GoesOn (execSync c s) := by
  unfold execSync
  dsimp only
  split
  · split <;> simp
  · simp

@[simp] theorem execMatmul_goesOn (c : ArrayRun) (s : State) : s.GoesOn (execMatmul c s) := by
  unfold execMatmul
  dsimp only
  split
  · split
    · split <;> simp
    · simp
  · simp

@[simp] theorem execLoad_goesOn (c : CmdRef) (s : State) : s.GoesOn (execLoad c s) := by
  unfold execLoad
  split <;> simp

@[simp] theorem execStore_goesOn (c : CmdRef) (s : State) : s.GoesOn (execStore c s) := by
  unfold execStore
  split <;> simp

@[simp] theorem execGather_goesOn (c : CmdRef) (s : State) : s.GoesOn (execGather c s) := by
  unfold execGather
  split <;> simp

@[simp] theorem execScatter_goesOn (c : CmdRef) (s : State) : s.GoesOn (execScatter c s) := by
  unfold execScatter
  split <;> simp

@[simp] theorem execHalo_goesOn (c : CmdRef) (s : State) : s.GoesOn (execHalo c s) := by
  unfold execHalo
  split <;> simp

@[simp] theorem execMortarOpen_goesOn (c : CmdRef) (s : State) : s.GoesOn (execMortarOpen c s) := by
  unfold execMortarOpen
  dsimp only
  split
  · simp
  · next d _ =>
    have h : s.Keeps (s.readVa c.room.val d.ctx (dMcb d.desc) 64).2 := by simp
    split
    · simp
    · split
      · exact (goesOn_next s _).2 (State.workUndef_keeps _ _ _ _ _ (by simp [h]))
      · simp [h]

@[simp] theorem execCall_goesOn (c : CmdRef) (s : State) : s.GoesOn (execCall c s) := by
  unfold execCall
  dsimp only
  split
  · split
    · simp
    · split <;> simp
  · simp

@[simp] theorem execLatchValWrite_goesOn (w : BusWr) (s : State) : s.GoesOn (execLatchValWrite w s) :=
  State.openWrite_goesOn s _ _ _ fun t ht => by simp [ht]

@[simp] theorem execFwGo_goesOn (r : RoomIx) (w : BusWr) (s : State) : s.GoesOn (execFwGo r w s) := by
  refine State.busWrite_goesOn s _ _ _ fun t ht => ?_
  split <;> simp [ht]

@[simp] theorem execBrkResume_goesOn (r : RoomIx) (w : BusWr) (s : State) : s.GoesOn (execBrkResume r w s) :=
  State.openWrite_goesOn s _ _ _ fun t ht => by simp [ht]

/-! ### Mortar tree (R268 to R279) -/

@[simp] theorem execEngineRecord_goesOn (e : EngIx) (s : State) : s.GoesOn (execEngineRecord e s) := by
  unfold execEngineRecord
  dsimp only
  split
  · simp
  · split
    · simp
    · split <;> simp

@[simp] theorem execDieStageRecord_goesOn (d : DieIx) (s : State) : s.GoesOn (execDieStageRecord d s) := by
  unfold execDieStageRecord
  dsimp only
  split
  · simp
  · split <;> simp

@[simp] theorem execMortarForwardTimeout_goesOn (st : MortarStage) (k : MergeKey) (s : State) :
    s.GoesOn (execMortarForwardTimeout st k s) := by
  unfold execMortarForwardTimeout
  dsimp only
  split
  · simp
  · split <;> simp

@[simp] theorem execPackageStageRecord_goesOn (s : State) : s.GoesOn (execPackageStageRecord s) := by
  unfold execPackageStageRecord
  dsimp only
  split
  · simp
  · split
    · simp
    · split
      · simp
      · split
        · simp
        · split <;> split <;> simp

/-! ### Control cores (R335 to R364) -/

@[simp] theorem execServiceEntry_goesOn (r : RoomIx) (sq : List Young) (s : State) : s.GoesOn (execServiceEntry r sq s) := by
  have h : s.Keeps ((s.squash r.val sq).joinSpare r.val) := by simp
  unfold execServiceEntry
  split
  · simp [h]
  · simp

@[simp] theorem execLd2w_goesOn (r : Pipe) (rd ra : GReg) (off : BitVec 16) (s : State) : s.GoesOn (execLd2w r rd ra off s) :=
  State.pair_goesOn s r rd _ (State.access_goesOn s r ra off 8 _ fun c a => by simp)

@[simp] theorem execSt2w_goesOn (r : Pipe) (rs ra : GReg) (off : BitVec 16) (s : State) :
    s.GoesOn (execSt2w r rs ra off s) :=
  State.pair_goesOn s _ _ _ (by simp)

@[simp] theorem execJmp_goesOn (r : Pipe) (tgt : BitVec 13) (s : State) : s.GoesOn (execJmp r tgt s) :=
  State.ins_goesOn s _ _ fun c => by simp

@[simp] theorem execJmpr_goesOn (r : Pipe) (ra : GReg) (s : State) : s.GoesOn (execJmpr r ra s) := by
  refine State.ins_goesOn s _ _ fun c => ?_
  dsimp only
  split <;> simp

@[simp] theorem execRcall_goesOn (r : Pipe) (rt : Fin 4096) (s : State) : s.GoesOn (execRcall r rt s) :=
  State.ins_goesOn s _ _ fun c => by simp

@[simp] theorem execRet_goesOn (r : Pipe) (s : State) : s.GoesOn (execRet r s) := by
  refine State.ins_goesOn s r _ fun c => ?_
  split
  · simp
  · have h : s.Keeps (s.squash r.val r.young) := by simp
    dsimp only
    split <;> simp [h]

@[simp] theorem execDmbar_goesOn (r : Pipe) (s : State) : s.GoesOn (execDmbar r s) :=
  State.ins_goesOn s r _ fun c => by simp

@[simp] theorem execHaltw_goesOn (r : Pipe) (s : State) : s.GoesOn (execHaltw r s) :=
  State.ins_goesOn s _ _ fun c => by simp

@[simp] theorem execSysrd_goesOn (r : Pipe) (rd : GReg) (n : BitVec 16) (s : State) : s.GoesOn (execSysrd r rd n s) :=
  State.fwOnly_goesOn s _ _ fun c => by simp

@[simp] theorem execSyswr_goesOn (r : Pipe) (ra : GReg) (n : BitVec 16) (s : State) : s.GoesOn (execSyswr r ra n s) :=
  State.fwOnly_goesOn s _ _ fun c => by simp

@[simp] theorem execTrapret_goesOn (r : Pipe) (s : State) : s.GoesOn (execTrapret r s) := by
  refine State.fwOnly_goesOn s _ _ fun c => ?_
  split <;> simp

@[simp] theorem execEsel_goesOn (r : Pipe) (f : CpWord) (s : State) : s.GoesOn (execEsel r f s) :=
  State.cp_goesOn s _ _ _ fun c => by simp

@[simp] theorem execTload_goesOn (r : Pipe) (f : CpWord) (s : State) : s.GoesOn (execTload r f s) := by
  refine State.cp_goesOn s _ _ _ fun c => ?_
  dsimp only
  split
  · simp
  · split
    · simp
    · split <;> simp

@[simp] theorem execTloadTransferEnd_goesOn (r : RoomIx) (s : State) : s.GoesOn (execTloadTransferEnd r s) := by
  unfold execTloadTransferEnd
  dsimp only
  split <;> simp

@[simp] theorem execTpref_goesOn (r : Pipe) (f : CpWord) (s : State) : s.GoesOn (execTpref r f s) :=
  State.cp_goesOn s _ _ _ fun c => by simp

@[simp] theorem execTstore_goesOn (r : Pipe) (f : CpWord) (s : State) : s.GoesOn (execTstore r f s) := by
  refine State.cp_goesOn s _ _ _ fun c => ?_
  dsimp only
  split
  · simp
  · split <;> simp

@[simp] theorem execEissue_goesOn (r : Pipe) (f : CpWord) (s : State) : s.GoesOn (execEissue r f s) := by
  refine State.cp_goesOn s _ _ _ fun c => ?_
  dsimp only
  split
  · simp
  · split <;> simp

@[simp] theorem execIssuedDescriptorReadEnd_goesOn (r : RoomIx) (s : State) : s.GoesOn (execIssuedDescriptorReadEnd r s) := by
  unfold execIssuedDescriptorReadEnd
  dsimp only
  split <;> simp

@[simp] theorem execEwait_goesOn (r : Pipe) (f : CpWord) (s : State) : s.GoesOn (execEwait r f s) :=
  State.cp_goesOn s _ _ _ fun c => by simp

@[simp] theorem execLsig_goesOn (r : Pipe) (f : CpWord) (s : State) : s.GoesOn (execLsig r f s) :=
  State.latchIns_goesOn s _ _ _ _ fun c l => by simp

@[simp] theorem execLwait_goesOn (r : Pipe) (f : CpWord) (s : State) : s.GoesOn (execLwait r f s) :=
  State.latchIns_goesOn s _ _ _ _ fun c l => by simp

@[simp] theorem execLread_goesOn (r : Pipe) (f : CpWord) (s : State) : s.GoesOn (execLread r f s) :=
  State.latchIns_goesOn s _ _ _ _ fun c l => by simp

/-! ### Lockstep and routine store (R365 to R382) -/

@[simp] theorem execLockstepCompare_goesOn (r : RoomIx) (main chk : CommitRec) (railsOk parityOk : Bool) (s : State) :
    s.GoesOn (execLockstepCompare r main chk railsOk parityOk s) := by
  unfold execLockstepCompare
  dsimp only
  split
  · split <;> simp
  · simp

@[simp] theorem execLockstepInjection_goesOn (r : RoomIx) (passed : Bool) (s : State) :
    s.GoesOn (execLockstepInjection r passed s) := by
  unfold execLockstepInjection
  split <;> simp

@[simp] theorem execSwapReq_goesOn (r : RoomIx) (w : BusWr) (s : State) : s.GoesOn (execSwapReq r w s) := by
  refine State.keyedWrite_goesOn s _ _ _ fun keyed t ht => ?_
  dsimp only
  split
  · split <;> simp [ht]
  · simp [ht]

@[simp] theorem execRoutineStoreWindowWrite_goesOn (r : RoomIx) (word : BitVec 13) (w : BusWr) (s : State) :
    s.GoesOn (execRoutineStoreWindowWrite r word w s) :=
  State.busWrite_goesOn s _ _ _ fun t ht => by simp [ht]

@[simp] theorem execSwap_goesOn (r : RoomIx) (w : BusWr) (s : State) : s.GoesOn (execSwap r w s) :=
  State.openWrite_goesOn s _ _ _ fun t ht => by simp [ht]

@[simp] theorem execSwapCheckEnd_goesOn (r : RoomIx) (s : State) : s.GoesOn (execSwapCheckEnd r s) := by
  unfold execSwapCheckEnd
  dsimp only
  split <;> simp

/-! ### Memory (R383 to R444) -/

/-- A fill request that is accepted keeps the machine whole. -/
theorem State.fillRequest_keeps {s t : State} {ctx x : Nat} (h : s.fillRequest ctx x = some t) : s.Keeps t := by
  unfold State.fillRequest at h
  dsimp only at h
  split at h
  · cases h; simp [State.fillDrop]
  · split at h
    · cases h; simp
    · split at h
      · cases h
      · cases h; simp

@[simp] theorem execStreamBlockIssue_goesOn (t : StreamRef) (s : State) : s.GoesOn (execStreamBlockIssue t s) := by
  unfold execStreamBlockIssue
  split
  · simp
  · split
    · split
      · split
        · split
          · next h => simp [State.fillRequest_keeps h]
          · simp
        · simp
      · simp
    · simp

@[simp] theorem execStreamBlockComplete_goesOn (t : StreamRef) (k : Nat) (s : State) :
    s.GoesOn (execStreamBlockComplete t k s) := by
  unfold execStreamBlockComplete
  dsimp only
  split
  · simp
  · split
    · simp
    · split
      · simp
      · split <;> simp

@[simp] theorem execTranslationWalkEnd_goesOn (t : StreamRef) (s : State) : s.GoesOn (execTranslationWalkEnd t s) := by
  unfold execTranslationWalkEnd
  dsimp only
  split
  · simp
  · split
    · split <;> simp
    · simp

@[simp] theorem execFaultRingRecordWrite_goesOn (s : State) : s.GoesOn (execFaultRingRecordWrite s) := by
  unfold execFaultRingRecordWrite
  split
  · simp
  · split
    · simp
    · dsimp only
      split
      · simp
      · split
        · simp
        · exact (goesOn_next s _).2 (State.pkgEvent_keeps _ _ _ (by simp))

@[simp] theorem execXfResume_goesOn (w : BusWr) (s : State) : s.GoesOn (execXfResume w s) := by
  refine State.openWrite_goesOn s _ _ _ fun t ht => ?_
  dsimp only
  split <;> simp [ht]

@[simp] theorem execInvGo_goesOn (w : BusWr) (s : State) : s.GoesOn (execInvGo w s) := by
  refine State.busWrite_goesOn s _ _ _ fun t ht => ?_
  split <;> simp [ht]

@[simp] theorem execInvDone_goesOn (s : State) : s.GoesOn (execInvDone s) := by
  unfold execInvDone
  split <;> simp

@[simp] theorem execLarderFillEnd_goesOn (x : BitVec 16) (s : State) : s.GoesOn (execLarderFillEnd x s) := by
  unfold execLarderFillEnd
  split
  · simp
  · next f _ =>
    have hcopy : ∀ n dst, s.Keeps
        (((s.physRead (ldCellar f.entry) n).2.physWrite dst (s.physRead (ldCellar f.entry) n).1).copyPoison
          (ldCellar f.entry) dst n) := fun n dst => State.copyPoison_keeps _ _ _ _ _ (by simp)
    dsimp only
    split
    · simp
    · split
      · refine (goesOn_next s _).2 (State.dropLedger_keeps _ _ _ (State.physWrite_keeps _ _ _ _ ?_))
        simp [hcopy]
      · simp [hcopy]

@[simp] theorem execCellarBurstData_goesOn (p : Fin 2) (seq n : Nat) (poison : List (BitVec 48)) (s : State) :
    s.GoesOn (execCellarBurstData p seq n poison s) := by
  unfold execCellarBurstData
  split <;> simp

@[simp] theorem execCellarGapExpiry_goesOn (p : Fin 2) (seq : Nat) (s : State) : s.GoesOn (execCellarGapExpiry p seq s) := by
  unfold execCellarGapExpiry
  dsimp only
  split
  · simp
  · split <;> simp

@[simp] theorem execPreempt_goesOn (e : EngIx) (w : BusWr) (s : State) : s.GoesOn (execPreempt e w s) :=
  State.openWrite_goesOn s _ _ _ fun t ht => by simp [ht]

@[simp] theorem execContextSwitch_goesOn (e : EngIx) (s : State) : s.GoesOn (execContextSwitch e s) := by
  unfold execContextSwitch
  dsimp only
  split
  · split <;> simp
  · simp

@[simp] theorem execArbRequest_goesOn (a : ArbIx) (q : ArbSource) (beats : Fin 9) (cycle : Nat) (s : State) :
    s.GoesOn (execArbRequest a q beats cycle s) := by
  unfold execArbRequest
  dsimp only
  split
  · simp
  · split <;> simp

@[simp] theorem execArbDecision_goesOn (a : ArbIx) (cycle : Nat) (withdrawn : List ArbSource) (s : State) :
    s.GoesOn (execArbDecision a cycle withdrawn s) := by
  unfold execArbDecision
  dsimp only
  split
  · simp
  · split
    · simp
    · split
      · simp
      · split
        · simp
        · split <;> simp

@[simp] theorem execCntClr_goesOn (a : ArbIx) (w : CycleWr) (s : State) : s.GoesOn (execCntClr a w s) := by
  refine State.openWrite_goesOn s _ _ _ fun t ht => keeps_foldl _ _ _ ht fun u i hu => ?_
  simp [hu]

@[simp] theorem execMemCtrlEn_goesOn (w : BusWr) (s : State) : s.GoesOn (execMemCtrlEn w s) := by
  refine State.keyedWrite_goesOn s _ _ _ fun keyed t ht => ?_
  dsimp only
  split
  · simp [ht]
  · split <;> simp [ht]

@[simp] theorem execHbmPcRemapWrite_goesOn (st : Fin 8) (w : BusWr) (s : State) : s.GoesOn (execHbmPcRemapWrite st w s) := by
  refine State.keyedWrite_goesOn s _ _ _ fun keyed t ht => ?_
  split <;> simp [ht]

/-! ### Lorlink (R445 to R501) -/

@[simp] theorem execMessageEgress_goesOn (s : State) : s.GoesOn (execMessageEgress s) := by
  unfold execMessageEgress
  split
  · simp
  · split
    · simp
    · exact (goesOn_next s _).2 (State.pumpAll_keeps _ _ (by simp))

@[simp] theorem execFlitReceive_goesOn (q : PortIx) (f : Flit) (s : State) : s.GoesOn (execFlitReceive q f s) := by
  unfold execFlitReceive
  split <;> simp

@[simp] theorem execLlGapExpiry_goesOn (q : PortIx) (vc : Fin 8) (s : State) : s.GoesOn (execLlGapExpiry q vc s) := by
  unfold execLlGapExpiry
  split
  · split <;> simp
  · simp

@[simp] theorem execLlRespExpiry_goesOn (t : StreamRef) (k : Nat) (s : State) : s.GoesOn (execLlRespExpiry t k s) := by
  unfold execLlRespExpiry
  split <;> simp

@[simp] theorem execRdReq_goesOn (q : PortIx) (s : State) : s.GoesOn (execRdReq q s) :=
  State.onMsg_goesOn s _ _ _ _ fun m t ht => by simp [ht]

/-- The answer to a fetch that waits keeps what its message kept. -/
theorem State.ackFetch_keeps {s0 s t : State} {m : Msg} {bad : List Nat} (hK : s0.Keeps s) (h : s.ackFetch m bad = some t) :
    s0.Keeps t := by
  unfold State.ackFetch at h
  split at h <;> cases h
  simp [State.fillLine, hK]

/-- The acknowledgement of a status that waits keeps what its message kept. -/
theorem State.ackStatus_keeps {s0 s t : State} {m : Msg} (hK : s0.Keeps s) (h : s.ackStatus m = some t) : s0.Keeps t := by
  unfold State.ackStatus at h
  split at h <;> cases h
  simp [hK]

@[simp] theorem execRdRsp_goesOn (q : ReadRsp) (s : State) : s.GoesOn (execRdRsp q s) := by
  refine State.onMsg_goesOn s _ _ _ _ fun m t ht => ?_
  dsimp only
  split
  · simp [ht]
  · split
    · next h => exact State.ackFetch_keeps ht h
    · simp [ht]

@[simp] theorem execWr_goesOn (q : PortIx) (s : State) : s.GoesOn (execWr q s) := by
  unfold execWr
  split
  · next m _ =>
    have h : s.Keeps (s.consume q.val m) := by simp
    dsimp only
    split
    · simp [h]
    · split <;> simp [h]
  · simp

@[simp] theorem execWrAck_goesOn (q : PortIx) (s : State) : s.GoesOn (execWrAck q s) := by
  refine State.onMsg_goesOn s _ _ _ _ fun m t ht => ?_
  split
  · simp [ht]
  · split
    · next h => exact State.ackStatus_keeps ht h
    · simp [ht]

@[simp] theorem execLatch_goesOn (q : PortIx) (s : State) : s.GoesOn (execLatch q s) :=
  State.onMsg_goesOn s _ _ _ _ fun m t ht => by simp [ht]

@[simp] theorem execMortar_goesOn (q : PortIx) (s : State) : s.GoesOn (execMortar q s) :=
  State.onMsg_goesOn s _ _ _ _ fun m t ht => by simp [ht]

@[simp] theorem execHeartbeat_goesOn (q : PortIx) (s : State) : s.GoesOn (execHeartbeat q s) :=
  State.onMsg_goesOn s _ _ _ _ fun _ _ ht => ht

@[simp] theorem execEpochData_goesOn (q : PortIx) (s : State) : s.GoesOn (execEpochData q s) :=
  State.onMsg_goesOn s _ _ _ _ fun m t ht => by simp [ht]

@[simp] theorem execEpochEnd_goesOn (q : PortIx) (s : State) : s.GoesOn (execEpochEnd q s) :=
  State.onMsg_goesOn s _ _ _ _ fun m t ht => by simp [ht]

@[simp] theorem execEpochAck_goesOn (q : PortIx) (s : State) : s.GoesOn (execEpochAck q s) :=
  State.onMsg_goesOn s _ _ _ _ fun m t ht => by simp [ht]

@[simp] theorem execRetrain_goesOn (q : PortIx) (w : BusWr) (s : State) : s.GoesOn (execRetrain q w s) :=
  State.openWrite_goesOn s _ _ _ fun t ht => by simp [ht]

@[simp] theorem execPortEnable_goesOn (q : PortIx) (w : BusWr) (s : State) : s.GoesOn (execPortEnable q w s) :=
  State.openWrite_goesOn s _ _ _ fun t ht => by simp [ht]

@[simp] theorem execTrainingTimeout_goesOn (q : PortIx) (fewLanes : Bool) (s : State) :
    s.GoesOn (execTrainingTimeout q fewLanes s) := by
  unfold execTrainingTimeout
  split
  · simp
  · split <;> simp

@[simp] theorem execJoin_goesOn (w : BusWr) (s : State) : s.GoesOn (execJoin w s) :=
  State.openWrite_goesOn s _ _ _ fun t ht => by simp [ht]

@[simp] theorem execJoinTimerExpiry_goesOn (g : RingIx) (s : State) : s.GoesOn (execJoinTimerExpiry g s) := by
  unfold execJoinTimerExpiry
  split
  · split <;> simp
  · simp

@[simp] theorem execRtInv_goesOn (w : BusWr) (s : State) : s.GoesOn (execRtInv w s) :=
  State.openWrite_goesOn s _ _ _ fun t ht => by simp [ht]

@[simp] theorem execFlush_goesOn (w : BusWr) (s : State) : s.GoesOn (execFlush w s) := by
  refine State.openWrite_goesOn s _ _ _ fun t ht => ?_
  dsimp only
  split
  · refine keeps_foldl _ _ _ ?_ fun u m hu => State.flushed_keeps u m s hu
    refine keeps_withLink (keeps_foldl _ _ _ ht fun u q hu => ?_) _
    simp [hu]
  · exact ht

/-! ### Host boundary (R502 to R531) -/

@[simp] theorem execDestroyEnd_goesOn (s : State) : s.GoesOn (execDestroyEnd s) := by
  have h : s.Keeps s.finishFlr := by simp
  unfold execDestroyEnd
  dsimp only
  split
  · split <;> simp [h]
  · simp [h]

@[simp] theorem execVfAptWrite_goesOn (v : Fin 256) (isSize : Bool) (w : BusWr) (s : State) :
    s.GoesOn (execVfAptWrite v isSize w s) :=
  State.keyedWrite_goesOn s _ _ _ fun keyed t ht => by simp [ht]

@[simp] theorem execFlueConfigWrite_goesOn (k : Fin 3) (w : BusWr) (s : State) : s.GoesOn (execFlueConfigWrite k w s) := by
  refine State.openWrite_goesOn s _ _ _ fun t ht => ?_
  dsimp only
  split
  · simp [ht]
  · split <;> simp [ht]

@[simp] theorem execMsixIntervalEnd_goesOn (f : Func) (vec : Nat) (s : State) : s.GoesOn (execMsixIntervalEnd f vec s) := by
  unfold execMsixIntervalEnd
  dsimp only
  split
  · split <;> simp
  · simp

/-! ### Management endpoint (R537 to R542) -/

@[simp] theorem execSetEndpointId_goesOn (b : MBus) (op : BitVec 2) (eid : Byte) (s : State) :
    s.GoesOn (execSetEndpointId b op eid s) :=
  State.onMctp_goesOn s _ _ fun t ht => by simp [ht]

@[simp] theorem execGetEndpointId_goesOn (b : MBus) (s : State) : s.GoesOn (execGetEndpointId b s) :=
  State.onMctp_goesOn s _ _ fun t ht => by simp [ht]

@[simp] theorem execGetEndpointUuid_goesOn (b : MBus) (s : State) : s.GoesOn (execGetEndpointUuid b s) :=
  State.onMctp_goesOn s _ _ fun t ht => by simp [ht]

@[simp] theorem execGetMctpVersionSupport_goesOn (b : MBus) (ty : Byte) (s : State) :
    s.GoesOn (execGetMctpVersionSupport b ty s) :=
  State.onMctp_goesOn s _ _ fun t ht => by simp [ht]

@[simp] theorem execGetMessageTypeSupport_goesOn (b : MBus) (s : State) : s.GoesOn (execGetMessageTypeSupport b s) :=
  State.onMctp_goesOn s _ _ fun t ht => by simp [ht]

@[simp] theorem execUnsupportedMctpMessage_goesOn (b : MBus) (ty : BitVec 7) (cmd : Byte) (s : State) :
    s.GoesOn (execUnsupportedMctpMessage b ty cmd s) :=
  State.onMctp_goesOn s _ _ fun t ht => by simp [ht]

@[simp] theorem execSettid_goesOn (b : MBus) (tid : Byte) (s : State) : s.GoesOn (execSettid b tid s) := by
  refine State.onPldm_goesOn s _ _ fun t ht => ?_
  split <;> simp [ht]

@[simp] theorem execGettid_goesOn (b : MBus) (s : State) : s.GoesOn (execGettid b s) :=
  State.onPldm_goesOn s _ _ fun t ht => by simp [ht]

@[simp] theorem execGetpldmversion_goesOn (b : MBus) (ty : Byte) (s : State) : s.GoesOn (execGetpldmversion b ty s) :=
  State.onPldm_goesOn s _ _ fun t ht => by simp [ht]

@[simp] theorem execGetpldmtypes_goesOn (b : MBus) (s : State) : s.GoesOn (execGetpldmtypes b s) :=
  State.onPldm_goesOn s _ _ fun t ht => by simp [ht]

@[simp] theorem execGetpldmcommands_goesOn (b : MBus) (ty : Byte) (s : State) : s.GoesOn (execGetpldmcommands b ty s) :=
  State.onPldm_goesOn s _ _ fun t ht => by simp [ht]

@[simp] theorem execSeteventreceiver_goesOn (b : MBus) (enable : Byte) (eid : Byte) (s : State) :
    s.GoesOn (execSeteventreceiver b enable eid s) := by
  refine State.onPldm_goesOn s _ _ fun t ht => ?_
  dsimp only
  split
  · simp [ht]
  · split <;> simp [ht]

@[simp] theorem execGetsensorreading_goesOn (b : MBus) (sensor : BitVec 16) (measured : W32) (s : State) :
    s.GoesOn (execGetsensorreading b sensor measured s) := by
  refine State.onPldm_goesOn s _ _ fun t ht => ?_
  split <;> simp [ht]

@[simp] theorem execGetstatesensorreadings_goesOn (b : MBus) (sensor : BitVec 16) (s : State) :
    s.GoesOn (execGetstatesensorreadings b sensor s) := by
  refine State.onPldm_goesOn s _ _ fun t ht => ?_
  dsimp only
  split <;> simp [ht]

@[simp] theorem execSetnumericsensorenable_goesOn (b : MBus) (sensor : BitVec 16) (op : Byte) (s : State) :
    s.GoesOn (execSetnumericsensorenable b sensor op s) := by
  refine State.onPldm_goesOn s _ _ fun t ht => ?_
  dsimp only
  split
  · simp [ht]
  · split <;> simp [ht]

@[simp] theorem execGetpdrrepositoryinfo_goesOn (b : MBus) (s : State) : s.GoesOn (execGetpdrrepositoryinfo b s) :=
  State.onPldm_goesOn s _ _ fun t ht => by simp [ht]

@[simp] theorem execGetpdr_goesOn (b : MBus) (handle : W32) (s : State) : s.GoesOn (execGetpdr b handle s) := by
  refine State.onPldm_goesOn s _ _ fun t ht => ?_
  split <;> simp [ht]

@[simp] theorem execQuerydeviceidentifiers_goesOn (b : MBus) (s : State) : s.GoesOn (execQuerydeviceidentifiers b s) :=
  State.onUpdate_goesOn s _ _ fun t ht => by simp [ht]

@[simp] theorem execGetfirmwareparameters_goesOn (b : MBus) (s : State) : s.GoesOn (execGetfirmwareparameters b s) :=
  State.onUpdate_goesOn s _ _ fun t ht => by simp [ht]

@[simp] theorem execRequestupdate_goesOn (b : MBus) (ncomp : BitVec 16) (s : State) :
    s.GoesOn (execRequestupdate b ncomp s) := by
  refine State.onUpdate_goesOn s _ _ fun t ht => ?_
  split
  · simp [ht]
  · split <;> simp [ht]

@[simp] theorem execPasscomponenttable_goesOn (b : MBus) (comp : BitVec 16) (s : State) :
    s.GoesOn (execPasscomponenttable b comp s) :=
  State.onStep_goesOn s _ _ _ fun t ht => by simp [ht]

@[simp] theorem execUpdatecomponent_goesOn (b : MBus) (comp : BitVec 16) (version : W32) (data : List Byte) (s : State) :
    s.GoesOn (execUpdatecomponent b comp version data s) := by
  refine State.onStep_goesOn s _ _ _ fun t ht => ?_
  split <;> simp [ht]

@[simp] theorem execActivatefirmware_goesOn (b : MBus) (selfContained : Bool) (s : State) :
    s.GoesOn (execActivatefirmware b selfContained s) := by
  refine State.onStep_goesOn s _ _ _ fun t ht => ?_
  split <;> simp [ht]

@[simp] theorem execGetstatus_goesOn (b : MBus) (s : State) : s.GoesOn (execGetstatus b s) :=
  State.onUpdate_goesOn s _ _ fun t ht => by simp [ht]

@[simp] theorem execCancelupdatecomponent_goesOn (b : MBus) (s : State) : s.GoesOn (execCancelupdatecomponent b s) :=
  State.onStep_goesOn s _ _ _ fun t ht => by simp [ht]

@[simp] theorem execCancelupdate_goesOn (b : MBus) (s : State) : s.GoesOn (execCancelupdate b s) := by
  refine State.onUpdate_goesOn s _ _ fun t ht => ?_
  split <;> simp [ht]

@[simp] theorem execStateSensorChange_goesOn (sensor : BitVec 16) (s : State) :
    s.GoesOn (execStateSensorChange sensor s) := by
  unfold execStateSensorChange
  dsimp only
  split
  · split
    · simp
    · split <;> simp
  · simp

@[simp] theorem execEventMergeExpiry_goesOn (sensor : BitVec 16) (s : State) : s.GoesOn (execEventMergeExpiry sensor s) := by
  unfold execEventMergeExpiry
  dsimp only
  split
  · split <;> simp
  · simp

/-! ### Clocks, supplies, resets, power (R547 to R596) -/

@[simp] theorem execPllLoss_goesOn (p : Pll) (s : State) : s.GoesOn (execPllLoss p s) := by
  unfold execPllLoss
  split <;> simp

@[simp] theorem execVddCoreWarning_goesOn (s : State) : s.GoesOn (execVddCoreWarning s) := by
  unfold execVddCoreWarning
  split <;> simp

@[simp] theorem execSupplyWarning_goesOn (x : Rail) (s : State) : s.GoesOn (execSupplyWarning x s) := by
  unfold execSupplyWarning
  split
  · split <;> simp
  · simp

@[simp] theorem execColdReset_goesOn (p : ResetPin) (s : State) : s.GoesOn (execColdReset p s) := by
  unfold execColdReset
  split <;> simp

@[simp] theorem execWarm_goesOn (w : BusWr) (env : TestEnv) (s : State) : s.GoesOn (execWarm w env s) :=
  State.keyedWrite_goesOn s _ _ _ fun keyed t ht => by simp [ht]

@[simp] theorem execThermalTrip_goesOn (x : ThermSensor) (s : State) : s.GoesOn (execThermalTrip x s) := by
  have h : s.Keeps (s.dropBias.coldClear .trip) := by simp
  simp [execThermalTrip, h]

@[simp] theorem execRateUpdate_goesOn (env : RateEnv) (s : State) : s.GoesOn (execRateUpdate env s) := by
  unfold execRateUpdate
  dsimp only
  split
  · split
    · split <;> simp
    · simp
  · simp

@[simp] theorem execRetainEntryEnd_goesOn (s : State) : s.GoesOn (execRetainEntryEnd s) := by
  have h : s.Keeps s.wallOff.diesOff := by simp
  unfold execRetainEntryEnd
  split
  · split
    · simp
    · split <;> simp [h]
  · simp

@[simp] theorem execRetainExitEnd_goesOn (env : TestEnv) (s : State) : s.GoesOn (execRetainExitEnd env s) := by
  unfold execRetainExitEnd
  split
  · exact (goesOn_next s _).2 (State.pwrDone_keeps _ _ (by simp))
  · simp

@[simp] theorem execRoomPwrWrite_goesOn (f : FloorIx) (w : BusWr) (s : State) : s.GoesOn (execRoomPwrWrite f w s) :=
  State.openWrite_goesOn s _ _ _ fun t ht => by simp [ht]

@[simp] theorem execRoomGateEnd_goesOn (r : RoomIx) (s : State) : s.GoesOn (execRoomGateEnd r s) := by
  unfold execRoomGateEnd
  split <;> simp

@[simp] theorem execRoomUngateEnd_goesOn (r : RoomIx) (s : State) : s.GoesOn (execRoomUngateEnd r s) := by
  unfold execRoomUngateEnd
  split
  · exact (goesOn_next s _).2 (State.pkgEvent_keeps _ _ _ (by simp))
  · simp

@[simp] theorem execCreateEnd_goesOn (s : State) : s.GoesOn (execCreateEnd s) := by
  unfold execCreateEnd
  split <;> simp

@[simp] theorem execVfEnable_goesOn (en : Bool) (numVfs : Fin 257) (s : State) : s.GoesOn (execVfEnable en numVfs s) := by
  unfold execVfEnable
  dsimp only
  split
  · split
    · simp
    · exact (goesOn_next s _).2 (keeps_foldl _ _ _ (by simp) fun t v ht => State.resetVfCfg_keeps t v s ht)
  · simp

/-! ### Every command, every step -/

/-- Whatever the command and the state, the command goes on. The meanings listed are one operation, or a guard before one,
that a lemma above or one of the `_keeps` laws covers; each of the others has its own lemma. -/
theorem exec_goesOn (c : Instr) (s : State) : s.GoesOn (exec c s) := by
  cases c <;> simp [
    execSealSweepSnapshot, execSealHoldExpiry, execSealCommitEnd, execDbDepthRead, execBrkModeWrite, execRoutineLimitExpiry,
    execIadd, execIsub, execIand, execIor, execIxor, execInor, execShl, execShr, execShra, execCmplt, execCmpltu, execCmpeq,
    execImovh, execIsel, execClz, execBitcnt, execImul, execLd8, execLd8u, execLd16, execLd16u, execLd32, execSt8, execSt16,
    execSt32, execBrz, execBrnz, execBreq, execBrne, execBrlt, execBrltu, execSwapCopyEnd, execDebugPathWrite,
    execDrainingEnd, execLateThreshExpiry, execQuantumExpiry, execDrainTimeout, execArbStarve, execArbClassWrite, execNak,
    execNakTimeout, execAbort, execTrainingStageExit, execLos, execRtInvDone, execEpochTimer, execClose, execResync,
    execTakeover, execWallGraceExpiry, execPcieLinkDown, execPmD3hot, execCreate, execDestroy, execFunctionLevelReset,
    execCxlLinkLost, execTransfercomplete, execVerifycomplete, execApplycomplete, execUnsupportedPldmCommand, execExtest,
    execSamplePreload, execIdcode, execHighz, execClamp, execBypass, execTrstN, execTsLoRead, execRefclkLoss, execStretchEnd,
    execSupplyReset, execPowerOnReset, execColdResetRelease, execActive, execIdle, execRetain, execIdleEntryEnd,
    execPcieLinkUp, execBar4Access, execIdleExitEnd, execWallHandshakeRetry]

/-- A step takes the command at the front of the queue and keeps the machine whole for the rest of the queue. -/
theorem step_keeps_of_pending {c : Instr} {rest : List Instr} {s t : State} (hq : s.pending = c :: rest)
    (hs : step s = .next t) : State.Keeps { s with pending := rest } t := by
  have hstep : step s = exec c { s with pending := rest } := by simp [step, hq]
  exact (exec_goesOn c _).keeps (hstep ▸ hs)

/-- Settles O3: a step runs the front command on the state without it, and every command keeps the machine whole. -/
theorem everyStepKeepsTheMachineWhole : Obligations.EveryStepKeepsTheMachineWhole := by
  intro c rest s t hq hs
  have hk := step_keeps_of_pending hq hs
  exact ⟨hk.queue, hk.canon, hk.drawn, hk.sent⟩

end Sys2Proof.Machine
end

section
/-! Remap and fence registers (R66 to R73): what a keyed write of one leaves in the register and in the lock, and where a
fence that was requested ends. -/

namespace Sys2Proof.Machine

/-! ### Keyed writes of remap and fence registers -/

/-- The FENCED bits of a remap register. -/
def Fld.fenced (off : Nat) : Fld := { off := off, lsb := 16, width := 5 }

theorem State.fencedBits_eq (s : State) (off : Nat) : s.fencedBits off = s.fget (Fld.fenced off) := rfl

theorem State.mapped_eq (s : State) (off i : Nat) : s.mapped off i = s.fget { off := off, lsb := 3 * i, width := 3 } := rfl

/-- A use of the key leaves the lock closed (R92). -/
theorem State.flag_open_closeLock (s : State) : s.closeLock.flag F.LOCK_STATUS.OPEN = false := by
  simp [State.flag, State.closeLock, State.fget_fset_same, F.LOCK_STATUS.OPEN]

theorem State.reg_closeLock (s : State) {k : Nat} (h : Off.LOCK_STATUS < k) : s.closeLock.reg k = s.reg k :=
  State.reg_fset_ne s _ _ k (by simp only [F.LOCK_STATUS.OPEN]; omega)

theorem State.fget_closeLock (s : State) (f : Fld) (h : Off.LOCK_STATUS < f.off) : s.closeLock.fget f = s.fget f := by
  simp only [State.fget, State.reg_closeLock s h]

/-- A keyed write of a remap register: the key is used up and R70 is applied. -/
theorem exec_remapWrite_keyed {r : RemapReg} {w : BusWr} {s : State} (h : s.Reached w (remapOff r))
    (hk : s.holdsKey w.req = true) :
    exec (.remapWrite r w) s = .next (s.closeLock.remap (remapOff r) w.val.toNat) := by
  rw [exec_remapWrite, execRemapWrite, State.keyedWrite_keyed _ _ _ _ h hk,
    State.writePlain_none _ _ _ _ (noPlain_remap r), if_pos rfl]

/-- A keyed write of a fence register: the key is used up and the request is carried out. -/
theorem exec_fenceRequestWrite_keyed {r : RemapReg} {w : BusWr} {s : State} (h : s.Reached w (fenceOff r))
    (hk : s.holdsKey w.req = true) :
    exec (.fenceRequestWrite r w) s = .next (s.closeLock.fenceRequest r w.val.toNat) := by
  rw [exec_fenceRequestWrite, execFenceRequestWrite, State.keyedWrite_keyed _ _ _ _ h hk,
    State.writePlain_none _ _ _ _ (noPlain_fence r), if_pos rfl]

/-! ### The mapping (R70, R71) -/

/-- Use of the key does not change what a remap asks for, nor whether it is accepted. -/
theorem State.remapWish_closeLock (s : State) {off : Nat} (v : Nat) (h : Off.LOCK_STATUS < off) :
    s.closeLock.remapWish off v = s.remapWish off v := by
  simp only [State.remapWish, State.mapped, State.reg_closeLock s h]

theorem State.remapOk_closeLock (s : State) {off : Nat} (m : List Nat) (h : Off.LOCK_STATUS < off) :
    s.closeLock.remapOk off m = s.remapOk off m := by
  simp only [State.remapOk, State.sparePhys, State.mapped, State.fencedBits, State.reg_closeLock s h]

/-- Every position that a remap asks for fits its field. -/
theorem State.remapWish_lt (s : State) (off v i : Nat) : (s.remapWish off v).getD i 0 < 8 := by
  by_cases hi : i < 4
  · have hm : s.mapped off i < 8 := bitsAt_lt _ _ 3
    simp only [State.remapWish, List.getD_eq_getElem?_getD, List.getElem?_map, List.getElem?_range hi, Option.map_some,
      Option.getD_some]
    split <;> omega
  · simp [State.remapWish, List.getD_eq_getElem?_getD, Nat.le_of_not_lt hi]

/-- What holds of a state and is kept by writes of its four position fields holds after a whole mapping is written. -/
theorem State.setMapping_induct {P : State → Prop} (s : State) (off : Nat) (m : List Nat) (h0 : P s)
    (hs : ∀ (t : State) (i x : Nat), i < 4 → P t → P (t.fset { off := off, lsb := 3 * i, width := 3 } x)) :
    P (s.setMapping off m) :=
  List.foldlRecOn _ _ h0 fun t ht i hi => hs t i _ (List.mem_range.mp hi) ht

/-- A mapping reads as written. -/
theorem State.mapped_setMapping (s : State) (off : Nat) (m : List Nat) {i : Nat} (hi : i < 4) :
    (s.setMapping off m).mapped off i = m.getD i 0 % 8 := by
  have hsame : ∀ (t : State) (k x : Nat), k < 4 → (t.fset { off := off, lsb := 3 * k, width := 3 } x).mapped off k = x % 8 :=
    fun t k x hk => State.fget_fset_same t { off := off, lsb := 3 * k, width := 3 } x (by simp only; omega)
  have hother : ∀ (t : State) (j k x : Nat), k < 4 → j ≠ k →
      (t.fset { off := off, lsb := 3 * j, width := 3 } x).mapped off k = t.mapped off k := fun t j k x hk hj =>
    State.fget_fset_of_apart t { off := off, lsb := 3 * j, width := 3 } { off := off, lsb := 3 * k, width := 3 } x
      (by simp only; omega) (by simp only; omega)
  simp only [State.setMapping, List.range, List.range.loop, List.foldl_cons, List.foldl_nil]
  match i, hi with
  | 0, _ => rw [hother _ 3 0, hother _ 2 0, hother _ 1 0, hsame] <;> decide
  | 1, _ => rw [hother _ 3 1, hother _ 2 1, hsame] <;> decide
  | 2, _ => rw [hother _ 3 2, hsame] <;> decide
  | 3, _ => rw [hsame]; decide

/-- A field outside the four positions is as it was. -/
theorem State.fget_setMapping (s : State) (off : Nat) (m : List Nat) (f : Fld) (hf : f.lsb + f.width ≤ 32)
    (h : f.off ≠ off ∨ 12 ≤ f.lsb) : (s.setMapping off m).fget f = s.fget f :=
  State.setMapping_induct (P := fun t => t.fget f = s.fget f) s off m rfl fun t i x hi ht =>
    (State.fget_fset_of_apart t _ f x (by simp only; omega) hf).trans ht

/-- REMAP_REFUSED and the mapping are apart. -/
theorem State.mapped_remapRefused (s : State) (off x : Nat) {i : Nat} (hi : i < 4) :
    (s.fset (Fld.remapRefused off) x).mapped off i = s.mapped off i :=
  State.fget_fset_of_apart s (Fld.remapRefused off) { off := off, lsb := 3 * i, width := 3 } x
    (by simp only [Fld.remapRefused]; omega) (by simp only; omega)

/-- What R70 leaves outside the mapping and REMAP_REFUSED is as it was. -/
theorem State.fget_remap (s : State) (off v : Nat) (f : Fld) (hf : f.lsb + f.width ≤ 32) (h : f.off ≠ off ∨ 16 ≤ f.lsb) :
    (s.remap off v).fget f = s.fget f := by
  have hr : ∀ (t : State) (x : Nat), (t.fset (Fld.remapRefused off) x).fget f = t.fget f := fun t x =>
    State.fget_fset_of_apart t _ f x (by simp only [Fld.remapRefused]; omega) hf
  unfold State.remap
  dsimp only
  split
  · rw [hr, State.fget_setMapping _ _ _ _ hf (by omega)]
  · exact hr _ _

theorem State.remap_accepted (s : State) (off v : Nat) (h : s.remapOk off (s.remapWish off v) = true) :
    s.remap off v = (s.setMapping off (s.remapWish off v)).fset (Fld.remapRefused off) 0 := by
  simp [State.remap, h]

theorem State.remap_refused (s : State) (off v : Nat) (h : s.remapOk off (s.remapWish off v) = false) :
    s.remap off v = s.fset (Fld.remapRefused off) 1 := by
  simp [State.remap, h]

/-- A remap changes registers only. -/
theorem State.remap_regs {s t : State} (h : t = { s with regs := t.regs }) (off v : Nat) :
    t.remap off v = { s with regs := (t.remap off v).regs } := by
  unfold State.remap
  dsimp only
  split
  · exact State.regs_fset (State.setMapping_induct (P := fun u => u = { s with regs := u.regs }) t off _ h
      fun u i x _ hu => State.regs_fset hu _ _) _ _
  · exact State.regs_fset h _ _

/-- A remap changes the mapping and REMAP_REFUSED only. -/
theorem State.RegsOnly.remap {s t : State} {fs : List Fld} (h : s.RegsOnly t fs) (off v : Nat)
    (hm : { off := off, lsb := 0, width := 12 } ∈ fs) (hr : Fld.remapRefused off ∈ fs) : s.RegsOnly (t.remap off v) fs := by
  unfold State.remap
  dsimp only
  split
  · refine State.RegsOnly.fset ?_ _ hr
    exact State.setMapping_induct (P := fun u => s.RegsOnly u fs) t off _ h fun u i x hi hu =>
      hu.fset_in _ x _ hm rfl (Nat.zero_le _) (by simp only; omega)
  · exact h.fset _ hr

/-- Settles O13: R70 decides after the key is used; an accepted mapping is written field by field, a refused one sets
REMAP_REFUSED, and both leave every other field. -/
theorem remapMovesFencedPositionsToTheSpare : Obligations.RemapMovesFencedPositionsToTheSpare := by
  intro r w s hw hk
  have hl := lock_lt_remapOff r
  refine ⟨_, exec_remapWrite_keyed hw hk, fun hok => ?_, fun hno => ?_, ?_, ?_, ?_, ?_⟩
  · rw [← State.remapOk_closeLock s _ hl, ← State.remapWish_closeLock s _ hl] at hok
    rw [State.remap_accepted _ _ _ hok, ← State.remapWish_closeLock s _ hl]
    refine ⟨fun i hi => ?_, State.fget_fset_same _ _ _ (by simp [Fld.remapRefused])⟩
    rw [State.mapped_remapRefused _ _ _ hi, State.mapped_setMapping _ _ _ hi, Nat.mod_eq_of_lt (State.remapWish_lt ..)]
  · rw [← State.remapOk_closeLock s _ hl, ← State.remapWish_closeLock s _ hl] at hno
    rw [State.remap_refused _ _ _ hno]
    refine ⟨fun i hi => ?_, State.fget_fset_same _ _ _ (by simp [Fld.remapRefused])⟩
    rw [State.mapped_remapRefused _ _ _ hi, State.mapped_eq, State.fget_closeLock s _ hl, State.mapped_eq]
  · rw [State.fencedBits_eq, State.fencedBits_eq, State.fget_remap _ _ _ _ (by simp [Fld.fenced]) (.inr (by simp [Fld.fenced])),
      State.fget_closeLock s _ hl]
  · rw [State.flag, State.fget_remap _ _ _ _ (by decide) (.inl (Nat.ne_of_lt hl))]
    exact State.flag_open_closeLock s
  · exact State.remap_regs (State.regs_fset rfl _ _) _ _
  · exact State.RegsOnly.remap ((State.RegsOnly.refl s _).fset _ (by simp)) _ _ (by simp) (by simp)

/-! ### Fence requests and their end (R67, R72, R73) -/

/-- A request changes the request bits and FENCED of its register only. -/
theorem State.fget_fenceRequest (s : State) (r : RemapReg) (v : Nat) (f : Fld) (hf : f.lsb + f.width ≤ 32)
    (h1 : f.off ≠ fenceOff r ∨ 5 ≤ f.lsb) (h2 : f.off ≠ remapOff r) : (s.fenceRequest r v).fget f = s.fget f := by
  unfold State.fenceRequest
  rw [State.fget_fset_of_apart _ _ f _ (by simp only; omega) hf, State.fget_fset_of_apart _ _ f _ (.inl h2) hf]

theorem bitAt_eq_testBit (n i : Nat) : bitAt n i = n.testBit i := by
  rw [bitAt, Nat.testBit_eq_decide_div_mod_eq]
  rfl

/-- A bit that is set reads as one. -/
theorem State.bitAt_setBit (s : State) (f : Fld) {i : Nat} (hi : i < f.width) (hf : f.lsb + f.width ≤ 32) :
    bitAt ((s.setBit f i).fget f) i = true := by
  rw [State.setBit, State.forBits, State.fget_fset_same _ _ _ hf, bitAt_eq_testBit, Nat.testBit_mod_two_pow, Nat.testBit_or,
    Nat.testBit_two_pow_self]
  simp [hi]

/-- Settles O14: a request and a lift write two fields of their own; an engine without a resident task sets its FENCED bit, and
a room ends what waits in it. -/
theorem fencesAreRequestedDrainedAndLifted : Obligations.FencesAreRequestedDrainedAndLifted := by
  refine ⟨fun r w s hw hk => ?_, fun e s hreq hno hq => ?_, fun r s hreq hno hq => ?_⟩
  · have hlf := lock_lt_fenceOff r
    have hlr := lock_lt_remapOff r
    have hne := remapOff_ne_fenceOff r r
    refine ⟨_, exec_fenceRequestWrite_keyed hw hk, ?_, ?_, ?_, ?_, ?_, ?_⟩
    · rw [State.fenceRequest, State.fget_fset_same _ _ _ (by simp)]
      exact Nat.mod_eq_of_lt (Nat.mod_lt _ (by decide))
    · rw [State.fget_fenceRequest _ _ _ _ (by simp) (.inr (by simp)) hne.symm, State.fget_closeLock s _ hlf]
    · rw [State.fenceRequest, State.fget_fset_of_apart _ _ _ _ (.inl hne) (by simp), State.fget_fset_same _ _ _ (by simp),
        State.fget_closeLock s _ hlr, State.fget_closeLock s _ hlf]
      refine Nat.mod_eq_of_lt (Nat.or_lt_two_pow (Nat.and_lt_two_pow _ ?_) (bitsAt_lt _ _ _))
      exact Nat.mod_lt _ (by decide)
    · rw [State.flag, State.fget_fenceRequest _ _ _ _ (by decide) (.inl (Nat.ne_of_lt hlf)) (Nat.ne_of_lt hlr)]
      exact State.flag_open_closeLock s
    · exact State.regs_fset (State.regs_fset (State.regs_fset rfl _ _) _ _) _ _
    · exact (((State.RegsOnly.refl s _).fset _ (by simp)).fset _ (by simp)).fset _ (by simp)
  · refine ⟨s.setEngFenced e.val false, by simp [execFenceDrainEnd, hreq, hno, hq], ?_, ?_, ?_⟩
    · exact State.bitAt_setBit s (F.ENGINE_REMAP.FENCED (engRoom e.val)) (Nat.mod_lt _ (by decide))
        (by simp [F.ENGINE_REMAP.FENCED])
    · exact State.regs_fset rfl _ _
    · exact (State.RegsOnly.refl s _).fset _ (by simp)
  · exact ⟨_, by simp [execFenceDrainEnd, hreq, hno, hq], rfl⟩

end Sys2Proof.Machine
end

section
/-! What the commands of an engine leave alone while they compute (R47, R193, R308): each part of a MATMUL or HALO changes its
own engine, draws free values and, for a MATMUL, counts in registers and reads through the translation caches. -/

namespace Sys2Proof.Machine

/-! ### What a computation cannot touch -/

/-- What an engine's command that moves no counter leaves alone: the state but the free values drawn and the engines, and
every engine but `e`. -/
def State.beside (s : State) (e : Nat) : State × (Nat → EngSt) :=
  ({ s with freeCtr := 0, engs := [] }, fun g => if g = e then EngSt.reset else s.eng g)

/-- What a read leaves alone: the state but the free values drawn, the registers and the translation caches. -/
def State.still (s : State) : State := { s with freeCtr := 0, regs := [], ms := { MemSt.reset with mem := s.ms.mem } }

/-- What an engine's command that counts and reads leaves alone. -/
def State.around (s : State) (e : Nat) : State × (Nat → EngSt) := ((s.beside e).1.still, (s.beside e).2)

theorem State.around_of_beside {s t : State} {e : Nat} (h : t.beside e = s.beside e) : t.around e = s.around e := by
  rw [State.around, State.around, h]

theorem State.around_of_still {s t : State} (h : t.still = s.still) (e : Nat) : t.around e = s.around e :=
  congrArg (fun x : State => (({ x with engs := [] } : State), fun g => if g = e then EngSt.reset else x.eng g)) h

@[simp] theorem State.beside_setEng (s : State) (e : Nat) (x : EngSt) : (s.setEng e x).beside e = s.beside e := by
  refine Prod.ext rfl (funext fun g => ?_)
  by_cases h : g = e
  · simp [State.beside, h]
  · simp [State.beside, h, State.eng_setEng_ne]

@[simp] theorem State.around_draw (s : State) (e : Nat) : s.draw.2.around e = s.around e := rfl

@[simp] theorem State.around_setEng (s : State) (e : Nat) (x : EngSt) : (s.setEng e x).around e = s.around e :=
  State.around_of_beside (State.beside_setEng s e x)

@[simp] theorem State.around_fset (s : State) (f : Fld) (x e : Nat) : (s.fset f x).around e = s.around e := rfl

@[simp] theorem State.around_count (s : State) (f : Fld) (n e : Nat) : (s.count f n).around e = s.around e := rfl

/-- Nothing but the engines and the free values drawn is another. -/
theorem State.eq_of_beside {s t : State} {e : Nat} (h : t.beside e = s.beside e) :
    t = { s with engs := t.engs, freeCtr := t.freeCtr } :=
  congrArg (fun p : State × (Nat → EngSt) => { p.1 with engs := t.engs, freeCtr := t.freeCtr }) h

/-- Every engine but the one that works is as it was. -/
theorem State.eng_of_around {s t : State} {e g : Nat} (h : t.around e = s.around e) (hg : g ≠ e) : t.eng g = s.eng g := by
  simpa [State.around, State.beside, hg] using congrFun (congrArg Prod.snd h) g

/-- The parts of the machine that a command at work in an engine cannot change. -/
theorem State.fields_of_around {s t : State} {e : Nat} (h : t.around e = s.around e) :
    t.rooms = s.rooms ∧ t.ms.mem = s.ms.mem ∧ t.ctxs = s.ctxs ∧ t.latches = s.latches ∧ t.mo = s.mo ∧ t.link = s.link ∧
      t.outbox = s.outbox :=
  have hf : ∀ {β : Type} (f : State → β), f (t.around e).1 = f (s.around e).1 := fun f => congrArg f (congrArg Prod.fst h)
  ⟨hf State.rooms, hf (·.ms.mem), hf State.ctxs, hf State.latches, hf State.mo, hf State.link, hf State.outbox⟩

/-- A fold whose steps leave something alone leaves it alone. -/
theorem foldl_leaves {α β γ : Type} (view : β → γ) (g : β → α → β) (h : ∀ b a, view (g b a) = view b) (l : List α) (b : β) :
    view (l.foldl g b) = view b := by
  induction l generalizing b with
  | nil => rfl
  | cons a l ih => rw [List.foldl_cons, ih, h]

theorem ite_leaves {β γ : Type} (view : β → γ) {a b : β} {x : γ} (c : Prop) [Decidable c] (ha : view a = x)
    (hb : view b = x) : view (if c then a else b) = x := by
  split <;> assumption

/-! ### Reads of structures -/

@[simp] theorem State.still_noteRange (s : State) (a n : Nat) : (s.noteRange a n).still = s.still := by
  unfold State.noteRange
  split <;> rfl

@[simp] theorem State.still_walkL0 (s : State) (ctx va base e : Nat) : (s.walkL0 ctx va base e).2.still = s.still := by
  unfold State.walkL0
  dsimp only
  split
  · rfl
  · split <;> rfl

@[simp] theorem State.still_walkFrom (s : State) (ctx va : Nat) (l : List Nat) (base : Nat) :
    (s.walkFrom ctx va l base).2.still = s.still := by
  induction l generalizing base with
  | nil => rfl
  | cons k rest ih =>
    unfold State.walkFrom
    dsimp only
    (repeat' split) <;> simp [ih]

@[simp] theorem State.still_cachePage (s : State) (r : Nat) (w : Walk) : (s.cachePage r w).still = s.still := by
  cases w <;> rfl

@[simp] theorem State.still_choose (s : State) (l : List XRes) (x : XRes) : (s.choose l x).2.still = s.still := by
  unfold State.choose
  split <;> rfl

@[simp] theorem State.still_xlatePaged (s : State) (r ctx va : Nat) (write : Bool) :
    (s.xlatePaged r ctx va write).2.still = s.still := by
  unfold State.xlatePaged
  dsimp only
  split <;> simp

@[simp] theorem State.still_xlateExpert (s : State) (r ctx va : Nat) (write : Bool) :
    (s.xlateExpert r ctx va write).2.still = s.still := by
  unfold State.xlateExpert
  dsimp only
  split
  · exact State.still_choose _ _ _
  · exact State.still_choose _ _ _

@[simp] theorem State.still_xlate (s : State) (r ctx va : Nat) (write : Bool) :
    (s.xlate r ctx va write).2.still = s.still := by
  unfold State.xlate
  dsimp only
  split
  · rfl
  · split
    · simp
    · split <;> simp

@[simp] theorem State.still_readPiece (s : State) (pa n : Nat) : (s.readPiece pa n).2.still = s.still := by
  unfold State.readPiece
  split
  · rfl
  · exact State.still_noteRange s pa n

/-- A structure is read through the translation caches, and nothing else is touched. -/
@[simp] theorem State.still_readVa (s : State) (r ctx va n : Nat) : (s.readVa r ctx va n).2.still = s.still := by
  refine foldl_leaves (fun b : SRead × State => b.2.still) _ (fun b c => ?_) _ _
  dsimp only
  split
  · simp
  · exact State.still_xlate _ _ _ _ _

/-- The instances of a MATMUL come from its descriptor or from a read of its pointer list (R312). -/
@[simp] theorem State.still_mmInsts (s : State) (m : Mm) : (s.mmInsts m).2.still = s.still := by
  unfold State.mmInsts
  dsimp only
  split
  · exact State.still_readVa _ _ _ _ _
  · rfl

/-! ### A MATMUL at work (R193, R207, R235, R257) -/

@[simp] theorem State.around_countWalk (s : State) (m : Mm) (drop miss e : Nat) :
    (s.countWalk m drop miss).around e = s.around e := by
  unfold State.countWalk
  dsimp only
  split
  · simp
  · split
    · simp
    · split <;> simp

section
variable (m : Mm)

/-- The parts of a MATMUL leave alone what lies around its engine. -/
def MmSt.view (t : MmSt) : State × (Nat → EngSt) := t.s.around m.e

theorem MmSt.view_ite {a b : MmSt} {x : State × (Nat → EngSt)} (c : Prop) [Decidable c] (ha : a.view m = x)
    (hb : b.view m = x) : (if c then a else b).view m = x :=
  ite_leaves (MmSt.view m) c ha hb

theorem MmSt.view_iteRun {a b : MmSt × Bool} {x : State × (Nat → EngSt)} (c : Prop) [Decidable c] (ha : a.1.view m = x)
    (hb : b.1.view m = x) : (if c then a else b).1.view m = x :=
  ite_leaves (fun q : MmSt × Bool => q.1.view m) c ha hb

theorem MmSt.view_steps (t : MmSt) (n : Nat) (f : MmSt → MmSt) (hf : ∀ t, (f t).view m = t.view m) :
    (t.steps n f).view m = t.view m :=
  MmSt.view_ite m _ rfl (MmSt.view_ite m _ rfl (hf t))

theorem Mm.view_walkTile (w : WalkIn) (i : MmInst) (m0 n0 : Nat) (main shad : AccSlot) (t : MmSt)
    (f : TileAcc → TileAcc → MmSt → MmSt) (hf : ∀ a b t, (f a b t).view m = t.view m) :
    (m.walkTile w i m0 n0 main shad t f).view m = t.view m :=
  MmSt.view_ite m _ (State.around_countWalk ..) ((hf _ _ _).trans (State.around_countWalk ..))

theorem Mm.view_finish (i : MmInst) (g : Geo) (o : OutMap) (m0 n0 slot : Nat) (a : AccSlot) (t : MmSt) :
    (m.finish i g o m0 n0 slot a t).view m = t.view m := by
  unfold Mm.finish
  dsimp only
  split
  · exact State.around_setEng ..
  · split <;> exact State.around_setEng ..

theorem Mm.view_holdOrFinish (i : MmInst) (g : Geo) (o : OutMap) (m0 n0 slot : Nat) (a : AccSlot) (t : MmSt) :
    (m.holdOrFinish i g o m0 n0 slot a t).view m = t.view m :=
  MmSt.view_ite m _ (State.around_setEng ..) (m.view_finish ..)

theorem Mm.view_enter (i : MmInst) (m0 n0 : Nat) (f : Nat → MmSt → MmSt) (t : MmSt)
    (hf : ∀ n t, (f n t).view m = t.view m) : (m.enter i m0 n0 f t).view m = t.view m :=
  MmSt.view_steps m _ _ _ fun t =>
    MmSt.view_ite m _ rfl (MmSt.view_ite m _ rfl (MmSt.view_ite m _ rfl (hf _ t)))

theorem Mm.view_showSlot (n : Nat) (t : MmSt) : (m.showSlot n t).view m = t.view m :=
  MmSt.view_ite m _ rfl (State.around_setEng ..)

/-- A tile that breaks off shows its slot; one that ends does not. -/
theorem Mm.view_showIfHalted (n : Nat) (t : MmSt) : (if t.halt then m.showSlot n t else t).view m = t.view m :=
  MmSt.view_ite m _ (m.view_showSlot n t) rfl

theorem Mm.view_tile (i : MmInst) (g : Geo) (o : OutMap) (m0 n0 : Nat) (t : MmSt) :
    (m.tile i g o m0 n0 t).view m = t.view m :=
  m.view_enter _ _ _ _ _ fun n _ => (m.view_showIfHalted n _).trans
    (m.view_walkTile _ _ _ _ _ _ _ _ fun _ _ _ => m.view_holdOrFinish ..)

theorem Mm.view_secondTile (i : MmInst) (ib : EngSt) (n1 m0 n0 : Nat) (t : MmSt) :
    (m.secondTile i ib n1 m0 n0 t).view m = t.view m :=
  m.view_enter _ _ _ _ _ fun n _ => (m.view_showIfHalted n _).trans
    (m.view_walkTile _ _ _ _ _ _ _ _ fun _ _ _ => m.view_holdOrFinish ..)

theorem Mm.view_firstTile (i : MmInst) (m0 n1 j : Nat) (t : MmSt) : (m.firstTile i m0 n1 j t).view m = t.view m :=
  MmSt.view_steps m _ _ _ fun _ =>
    MmSt.view_ite m _ rfl (m.view_walkTile _ _ _ _ _ _ _ _ fun _ _ _ => rfl)

theorem Mm.view_verifyRow (i : MmInst) (m0 n0 row : Nat) (t : MmSt) : (m.verifyRow i m0 n0 row t).view m = t.view m := by
  unfold Mm.verifyRow
  dsimp only
  split
  · rfl
  · split
    · exact State.around_setEng ..
    · dsimp only [MmSt.view]
      split <;> simp

theorem Mm.view_topkRows (i : MmInst) (m0 n0 : Nat) (rows : List Nat) (t : MmSt) :
    (m.topkRows i m0 n0 rows t).view m = t.view m := by
  refine foldl_leaves (MmSt.view m) _ (fun t row => MmSt.view_ite m _ rfl ?_) _ _
  dsimp only [MmSt.view]
  split <;> simp

theorem Mm.view_courseEnd (i : MmInst) (m0 n0 : Nat) (t : MmSt) : (m.courseEnd i m0 n0 t).view m = t.view m := by
  have hv : ∀ rows : List Nat, (if m.mc.verify then rows.foldl (fun acc r => m.verifyRow i m0 n0 r acc) t else t).view m =
      t.view m := fun rows =>
    MmSt.view_ite m _ (foldl_leaves (MmSt.view m) _ (fun t row => m.view_verifyRow ..) _ _) rfl
  exact MmSt.view_ite m _ ((m.view_topkRows ..).trans (hv _)) (hv _)

theorem Mm.view_rowStage (i : MmInst) (m0 n1 : Nat) (t : MmSt) : (m.rowStage i m0 n1 t).view m = t.view m := by
  refine MmSt.view_ite m _ rfl ?_
  split
  · rfl
  · exact State.around_setEng ..

theorem Mm.view_lintelCourse (i : MmInst) (m0 : Nat) (t : MmSt) : (m.lintelCourse i m0 t).view m = t.view m := by
  refine MmSt.view_steps m _ _ _ fun t => ?_
  have hfirst : ∀ (n1 : Nat) (l : List Nat), (l.foldl (fun acc j => m.firstTile i m0 n1 j acc) t).view m = t.view m :=
    fun n1 l => foldl_leaves (MmSt.view m) _ (fun t j => m.view_firstTile ..) l t
  have hsecond : ∀ (ib : EngSt) (n1 c : Nat) (l : List Nat) (u : MmSt),
      (l.foldl (fun acc j => m.secondTile i ib n1 m0 (j * c) acc) u).view m = u.view m :=
    fun ib n1 c => foldl_leaves (MmSt.view m) _ fun u j => m.view_secondTile ..
  have htiles : ∀ (ib : EngSt) (n1 c : Nat) (l k : List Nat), (l.foldl (fun acc j => m.secondTile i ib n1 m0 (j * c) acc)
      (m.rowStage i m0 n1 (k.foldl (fun acc j => m.firstTile i m0 n1 j acc) t))).view m = t.view m := fun ib n1 c l k =>
    (hsecond ib n1 c l _).trans ((m.view_rowStage ..).trans (hfirst n1 k))
  exact MmSt.view_ite m _ (htiles ..) ((m.view_courseEnd ..).trans (htiles ..))

theorem Mm.view_course (i : MmInst) (m0 : Nat) (t : MmSt) : (m.course i m0 t).view m = t.view m := by
  refine MmSt.view_steps m _ _ _ fun t => ?_
  have htiles : ∀ (g : Nat → Geo) (o : Nat → OutMap) (c : Nat → Nat) (l : List Nat),
      (l.foldl (fun acc j => m.tile i (g j) (o j) m0 (c j) acc) t).view m = t.view m := fun g o c l =>
    foldl_leaves (MmSt.view m) _ (fun t j => m.view_tile ..) l t
  exact MmSt.view_ite m _ (htiles ..) ((m.view_courseEnd ..).trans (htiles ..))

theorem Mm.view_packWindow (i : MmInst) (wgrp band : Nat) (t : MmSt) : (m.packWindow i wgrp band t).view m = t.view m := by
  refine MmSt.view_steps m _ _ _ fun t => ?_
  split
  · rfl
  · exact foldl_leaves (MmSt.view m) _ (fun t l => m.view_tile ..) _ _

theorem Mm.view_oneInst (i : MmInst) (t : MmSt) : (m.oneInst i t).view m = t.view m := by
  refine MmSt.view_ite m _ rfl ?_
  dsimp only
  split
  · rfl
  · refine MmSt.view_ite m _ ?_ ?_
    · exact foldl_leaves (MmSt.view m) _ (fun t w =>
        foldl_leaves (MmSt.view m) _ (fun t b => m.view_packWindow i w b t) _ _) _ _
    · exact foldl_leaves (MmSt.view m) _ (fun t j =>
        MmSt.view_ite m _ (m.view_lintelCourse ..) (m.view_course ..)) _ _

/-- The instances of a MATMUL run in its engine. -/
theorem Mm.view_runInsts (l : List MmInst) (t : MmSt) : (m.runInsts l t).1.view m = t.view m := by
  induction l generalizing t with
  | nil => rfl
  | cons i l ih =>
    have hone : ∀ p : MmProg, (m.oneInst i (if t.p.judged then t else { t with p := p })).view m = t.view m := fun p =>
      (m.view_oneInst ..).trans (MmSt.view_ite m _ rfl rfl)
    refine MmSt.view_iteRun m _ rfl (MmSt.view_iteRun m _ (MmSt.view_iteRun m _ (hone _) ?_) rfl)
    exact (ih _).trans (hone _)

end

/-! ### What becomes of the command (R302, R321) -/

theorem State.room_of_rooms {s t : State} (h : t.rooms = s.rooms) (r : Nat) : t.room r = s.room r := by
  rw [State.room, State.room, h]

theorem State.cmd_of_rooms {s t : State} (h : t.rooms = s.rooms) (c : CmdRef) : t.cmd c = s.cmd c := by
  rw [State.cmd, State.cmd, State.room_of_rooms h]

/-- A change of one command of a room that keeps its number is what is found there. -/
theorem State.cmd_updCmd {s : State} {c : CmdRef} {d : RoomCmd} (h : s.cmd c = some d) (f : RoomCmd → RoomCmd)
    (hf : ∀ k, (f k).seq = k.seq) : (s.updCmd c.room.val d.seq f).cmd c = some (f d) := by
  have hp : ((fun k : RoomCmd => k.seq == c.seq) ∘ fun k => if k.seq = d.seq then f k else k) = fun k => k.seq == c.seq := by
    funext k
    dsimp only [Function.comp_apply]
    split
    · rw [hf]
    · rfl
  have hfind : (s.room c.room.val).cmds.find? (fun k => k.seq == c.seq) = some d := h
  rw [State.cmd, State.updCmd, State.room_setRoom_same, RoomSt.find, List.find?_map, hp, hfind, Option.map_some, if_pos rfl]

/-- Two changes of one command after one another are found there as one. -/
theorem State.cmd_updCmd_updCmd {s : State} {c : CmdRef} {d : RoomCmd} (h : s.cmd c = some d) (f g : RoomCmd → RoomCmd)
    (hf : ∀ k, (f k).seq = k.seq) (hg : ∀ k, (g k).seq = k.seq) :
    ((s.updCmd c.room.val d.seq f).updCmd c.room.val d.seq g).cmd c = some (g (f d)) :=
  hf d ▸ State.cmd_updCmd (State.cmd_updCmd h f hf) g hg

/-- `t` is `s` but for room `r`. -/
def State.RoomOnly (s t : State) (r : Nat) : Prop := t = { s with rooms := t.rooms } ∧ ∀ q, q ≠ r → t.room q = s.room q

theorem State.roomOnly_updCmd (s : State) (r seq : Nat) (f : RoomCmd → RoomCmd) : s.RoomOnly (s.updCmd r seq f) r :=
  ⟨rfl, fun _ h => State.room_setRoom_ne _ _ _ _ h⟩

theorem State.RoomOnly.updCmd {s t : State} {r : Nat} (h : s.RoomOnly t r) (seq : Nat) (f : RoomCmd → RoomCmd) :
    s.RoomOnly (t.updCmd r seq f) r :=
  ⟨congrArg (fun u : State => { u with rooms := (t.updCmd r seq f).rooms }) h.1,
    fun q hq => (State.room_setRoom_ne _ _ _ _ hq).trans (h.2 q hq)⟩

/-- What a command of room `r` leaves alone when it has worked in engine `e` and only its own record is brought up to
date after that. -/
theorem State.frame_of_around {s u t : State} {r e : Nat} (ha : u.around e = s.around e) (hr : u.RoomOnly t r) :
    t.eng e = u.eng e ∧ (∀ g, g ≠ e → t.eng g = s.eng g) ∧ (∀ q, q ≠ r → t.room q = s.room q) ∧ t.ms.mem = s.ms.mem ∧
      t.ctxs = s.ctxs ∧ t.latches = s.latches ∧ t.mo = s.mo ∧ t.link = s.link ∧ t.outbox = s.outbox := by
  obtain ⟨ht, hq⟩ := hr
  obtain ⟨rooms, rfl⟩ : ∃ rooms, t = { u with rooms := rooms } := ⟨_, ht⟩
  obtain ⟨hrooms, hmem, hctxs, hlatches, hmo, hlink, hout⟩ := State.fields_of_around ha
  exact ⟨rfl, fun g hg => (State.eng_of_around ha hg : u.eng g = s.eng g),
    fun q h => (hq q h).trans (State.room_of_rooms hrooms q), hmem, hctxs,
    hlatches, hmo, hlink, hout⟩

/-- A part of a MATMUL that breaks off keeps its progress (R421). -/
theorem State.mmEnd_halted {q : MmSt} (m : Mm) (he : q.err = none) (hh : q.halt = true) :
    State.mmEnd q true m = q.s.updCmd m.r m.c.seq fun c =>
      { c with started := true, prog := some { q.p with ended := false } } := by
  simp [State.mmEnd, he, hh]

/-- A MATMUL at its end waits while a record of a slot of its own is not yet taken (R271). -/
theorem State.mmEnd_waits {q : MmSt} {m : Mm} (he : q.err = none) (hh : q.halt = false) (hb : q.p.bad = false)
    (hr : ∃ k ∈ (q.s.eng m.e).recs, m.ec.slots.contains k.slot = true) :
    State.mmEnd q true m = q.s.updCmd m.r m.c.seq fun c =>
      { c with started := true, prog := some { q.p with wait := true, ended := true } } := by
  have hany : (q.s.eng m.e).recs.any (fun k => m.ec.slots.contains k.slot) = true := List.any_eq_true.mpr hr
  simp only [State.mmEnd, he, hh, hb, hany]
  simp

/-- A MATMUL at its end whose slots have no record left is done. -/
theorem State.mmEnd_done {q : MmSt} {m : Mm} (he : q.err = none) (hh : q.halt = false) (hb : q.p.bad = false)
    (hr : ∀ k ∈ (q.s.eng m.e).recs, m.ec.slots.contains k.slot = false) :
    State.mmEnd q true m = (q.s.dropProg m).workDone m.r m.c.seq := by
  have hany : (q.s.eng m.e).recs.any (fun k => m.ec.slots.contains k.slot) = false :=
    List.any_eq_false.mpr fun k hk => by rw [hr k hk]; decide
  simp only [State.mmEnd, he, hh, hb, hany]
  simp

/-- A part of a MATMUL without a fault or an undefined result changes only its own room after its work. -/
theorem State.mmEnd_roomOnly {q : MmSt} (m : Mm) (he : q.err = none) (h : q.halt = true ∨ q.p.bad = false) :
    q.s.RoomOnly (State.mmEnd q true m) m.r := by
  by_cases hh : q.halt = true
  · rw [State.mmEnd_halted m he hh]
    exact State.roomOnly_updCmd ..
  · have hb := h.resolve_left hh
    rw [Bool.not_eq_true] at hh
    by_cases hr : ∃ k ∈ (q.s.eng m.e).recs, m.ec.slots.contains k.slot = true
    · rw [State.mmEnd_waits he hh hb hr]
      exact State.roomOnly_updCmd ..
    · rw [State.mmEnd_done he hh hb fun k hk => by simpa using fun hc => hr ⟨k, hk, hc⟩]
      exact (State.roomOnly_updCmd ..).updCmd ..

/-- What is found of a MATMUL that was found at the start, once a part of its work has ended without a fault. -/
theorem State.mmEnd_cmd {s : State} {q : MmSt} {m : Mm} {c : CmdRef} (hr : m.r = c.room.val) (hcmd : s.cmd c = some m.c)
    (ha : q.s.around m.e = s.around m.e) (he : q.err = none) :
    (q.halt = true → (State.mmEnd q true m).cmd c =
      some { m.c with started := true, prog := some { q.p with ended := false } }) ∧
    (q.halt = false → q.p.bad = false → (∀ k ∈ (q.s.eng m.e).recs, m.ec.slots.contains k.slot = false) →
      (State.mmEnd q true m).cmd c = some { m.c with st := .done, started := true, prog := none }) ∧
    (q.halt = false → q.p.bad = false → (∃ k ∈ (q.s.eng m.e).recs, m.ec.slots.contains k.slot = true) →
      (State.mmEnd q true m).cmd c = some { m.c with started := true, prog := some { q.p with wait := true, ended := true } }) := by
  have hc : q.s.cmd c = some m.c := (State.cmd_of_rooms (State.fields_of_around ha).1 c).trans hcmd
  refine ⟨fun hh => ?_, fun hh hb hk => ?_, fun hh hb hk => ?_⟩
  · rw [State.mmEnd_halted m he hh, hr]
    exact State.cmd_updCmd hc _ fun _ => rfl
  · rw [State.mmEnd_done he hh hb hk, State.dropProg, State.workDone, hr]
    exact State.cmd_updCmd_updCmd hc _ _ (fun _ => rfl) fun _ => rfl
  · rw [State.mmEnd_waits he hh hb hk, hr]
    exact State.cmd_updCmd hc _ fun _ => rfl

/-! ### MATMUL -/

theorem State.cmd_of_matmulGoes {s : State} {c : CmdRef} {d : RoomCmd} {e : Nat} (h : s.matmulGoes c = some (d, e)) :
    s.cmd c = some d := by
  unfold State.matmulGoes at h
  split at h
  · split at h
    · split at h
      · simp_all
      · cases h
    · cases h
  · cases h

/-- A MATMUL that has begun goes on where it stopped. -/
theorem exec_matmul_resumes {c : CmdRef} {s : State} {d : RoomCmd} {e : Nat} {k : MmProg} (n : Option Nat)
    (hg : s.matmulGoes c = some (d, e)) (hf : s.arrayFree c.room.val e d = true) (hp : d.prog = some k)
    (hk : k.ended = false) :
    exec (.matmul { ref := c, upto := n }) s = .next (s.goMatmul (s.mmOf c.room.val d e) k n) := by
  simp [execMatmul, hg, hf, hp, hk]

/-- A MATMUL that has not begun is judged first. -/
theorem exec_matmul_starts {c : CmdRef} {s : State} {d : RoomCmd} {e : Nat} (n : Option Nat)
    (hg : s.matmulGoes c = some (d, e)) (hf : s.arrayFree c.room.val e d = true) (hp : d.prog = none) :
    exec (.matmul { ref := c, upto := n }) s = .next (s.startMatmul (s.mmOf c.room.val d e) n) := by
  simp [execMatmul, hg, hf, hp]

/-- A MATMUL with the instances `l` covers no tile (R221, R321). -/
def Mm.empty (m : Mm) (l : List MmInst) : Bool :=
  m.n == 0 || (l.all fun i => i.m == 0) || ((m.ec.cont || m.ec.hold) && (dM m.c.desc == 0 || dN m.c.desc == 0))

theorem State.mergeRefused_eq_false {s : State} {m : Mm} (h : m.ep.mortar = true → s.mergeMine m = true) :
    (m.ep.mortar && !s.mergeMine m) = false := by
  cases hm : m.ep.mortar <;> simp [hm, h]

section
variable {s : State} {m : Mm} (hpoison : (s.mmInsts m).1.2 = false) (hok : m.fixedOk = true)
  (hmerge : m.ep.mortar = true → (s.mmInsts m).2.mergeMine m = true)
include hpoison hok hmerge

/-- A legal MATMUL over some tile runs its instances. -/
theorem State.startMatmul_runs (n : Option Nat) (hempty : m.empty (s.mmInsts m).1.1 = false) :
    s.startMatmul m n = (s.mmInsts m).2.goMatmul m (MmProg.start (s.mmInsts m).1.1) n := by
  unfold Mm.empty at hempty
  simp only [State.startMatmul, hpoison, hok, State.mergeRefused_eq_false hmerge, hempty]
  simp

/-- A legal MATMUL over no tile is done without a write. -/
theorem State.startMatmul_empty (n : Option Nat) (hempty : m.empty (s.mmInsts m).1.1 = true)
    (hbases : (s.mmInsts m).1.1.all m.basesOk = true) : s.startMatmul m n =
      ((s.mmInsts m).2.updCmd m.r m.c.seq fun c => { c with noWrite := true }).workDone m.r m.c.seq := by
  unfold Mm.empty at hempty
  simp only [State.startMatmul, hpoison, hok, State.mergeRefused_eq_false hmerge, hempty, hbases]
  simp

end

/-- Where a MATMUL's work starts or goes on: the state after its instances are read, and its progress. -/
def State.matmulFrom (s : State) (m : Mm) : State × MmProg :=
  match m.c.prog with
  | some k => (s, k)
  | none => ((s.mmInsts m).2, MmProg.start (s.mmInsts m).1.1)

theorem State.still_matmulFrom (s : State) (m : Mm) : (s.matmulFrom m).1.still = s.still := by
  unfold State.matmulFrom
  split
  · rfl
  · exact State.still_mmInsts s m

/-- A legal MATMUL over some tile, begun or not, goes to work from there. -/
theorem exec_matmul_works {c : CmdRef} {s : State} {d : RoomCmd} {e : Nat} (n : Option Nat)
    (hg : s.matmulGoes c = some (d, e)) (hf : s.arrayFree c.room.val e d = true) {m : Mm} (hm : m = s.mmOf c.room.val d e)
    (hstart : d.prog = none → (s.mmInsts m).1.2 = false ∧ m.fixedOk = true ∧
      (m.ep.mortar = true → (s.mmInsts m).2.mergeMine m = true))
    (hend : ∀ k, d.prog = some k → k.ended = false) (hempty : d.prog = none → m.empty (s.mmInsts m).1.1 = false) :
    exec (.matmul { ref := c, upto := n }) s = .next ((s.matmulFrom m).1.goMatmul m (s.matmulFrom m).2 n) := by
  subst hm
  cases hp : d.prog with
  | none =>
    obtain ⟨hpoison, hok, hmerge⟩ := hstart hp
    rw [exec_matmul_starts n hg hf hp, State.startMatmul_runs hpoison hok hmerge n (hempty hp)]
    simp [State.matmulFrom, State.mmOf, hp]
  | some k =>
    rw [exec_matmul_resumes n hg hf hp (hend k hp)]
    simp [State.matmulFrom, State.mmOf, hp]

/-! ### HALO (R46, R47, R308) -/

theorem State.cmd_of_startable {s : State} {c : CmdRef} {op : Nat} {d : RoomCmd} {e : Nat}
    (h : s.startable c op = some (d, e)) : s.cmd c = some d := by
  unfold State.startable at h
  split at h
  · split at h
    · split at h
      · simp_all
      · cases h
    · cases h
  · cases h

/-- A piece of a HALO is written in the engine of the destination. -/
theorem State.beside_haloPiece (s : State) (ctx e e2 : Nat) (t : TReg) (lo size inst : Nat) (p : Piece) :
    (s.haloPiece ctx e e2 t lo size inst p).1.beside e2 = s.beside e2 := by
  unfold State.haloPiece
  dsimp only
  split
  · rfl
  · rfl
  · rw [State.beside_setEng]
    split <;> rfl

theorem State.beside_haloAll (ctx e e2 : Nat) (t : TReg) (lo size inst : Nat) (l : List Piece) (s : State) :
    (State.haloAll ctx e e2 t lo size inst l s).1.beside e2 = s.beside e2 := by
  induction l generalizing s with
  | nil => rfl
  | cons p l ih =>
    have hp := State.beside_haloPiece s ctx e e2 t lo size inst p
    unfold State.haloAll
    split
    · next s1 h =>
      exact (ih s1).trans ((congrArg (fun q : State × Option FaultInfo => q.1.beside e2) h).symm.trans hp)
    · exact hp

/-- The instances of a HALO change the engine of the destination alone. -/
theorem State.beside_haloInsts (c : RoomCmd) (e e2 : Nat) (l : List Nat) (s : State) :
    (State.haloInsts c e e2 l s).1.beside e2 = s.beside e2 := by
  induction l generalizing s with
  | nil => rfl
  | cons n l ih =>
    unfold State.haloInsts
    dsimp only
    split
    · next s1 h =>
      exact (ih s1).trans ((congrArg (fun q : State × Option FaultInfo => q.1.beside e2) h).symm.trans
        (State.beside_haloAll ..))
    · exact State.beside_haloAll ..

/-- A legal HALO whose strips lie in their regions and that nothing races moves them and is done. -/
theorem exec_halo_done {c : CmdRef} {s : State} {d : RoomCmd} {e e2 : Nat} (hs : s.startable c 7 = some (d, e))
    (hdst : d.dst = some e2) (hok : haloOk d = true)
    (hq : (State.haloInsts d e e2 (List.range (dRepeat d.desc)) s).2 = none)
    (hrace : engRoom e2 = c.room.val ∨ (State.haloInsts d e e2 (List.range (dRepeat d.desc)) s).1.haloRivals d e2 = []) :
    exec (.halo c) s =
      .next ((State.haloInsts d e e2 (List.range (dRepeat d.desc)) s).1.workDone c.room.val d.seq) := by
  generalize hi : State.haloInsts d e e2 (List.range (dRepeat d.desc)) s = q at hq hrace
  obtain ⟨u, f⟩ := q
  subst hq
  have hr : u.haloRaces c.room.val d e2 = u := by
    simp only [State.haloRaces, List.isEmpty_iff]
    exact if_pos hrace
  simp [execHalo, hs, State.haloWork, hdst, hok, hi, hr]

/-! ### Both stay in their engine -/

/-- Settles O40: the instances of a MATMUL and the strips of a HALO change one engine, and what follows them changes the
record of the command alone. -/
theorem computationsFinishInTheirEngine : Obligations.ComputationsFinishInTheirEngine := by
  refine ⟨fun c n s d e hgo hfree => ?_, fun c s d e e2 hs hdst hok => ?_⟩
  · intro m p l empty from' q hstart hend
    have hcmd := State.cmd_of_matmulGoes hgo
    refine ⟨fun hempty hlegal herr => ?_, fun hp hempty hbases => ?_⟩
    · have hexec := exec_matmul_works n hgo hfree (m := m) rfl hstart hend hempty
      have ha : q.1.s.around e = s.around e :=
        (m.view_runInsts _ _).trans (State.around_of_still (s.still_matmulFrom m) e)
      have hend' : (s.matmulFrom m).1.goMatmul m (s.matmulFrom m).2 n = State.mmEnd q.1 true m := by
        rw [← hlegal]; rfl
      obtain ⟨hhalt, hdone, hwait⟩ := State.mmEnd_cmd (m := m) rfl hcmd ha herr
      exact ⟨_, hexec.trans (congrArg _ hend'), hhalt, hdone, hwait,
        fun h => State.frame_of_around ha (State.mmEnd_roomOnly m herr h)⟩
    · obtain ⟨hpoison, hok, hmerge⟩ := hstart hp
      have hst : p.2.still = s.still := State.still_mmInsts s m
      have hc : p.2.cmd c = some d := (State.cmd_of_rooms (congrArg State.rooms hst :) c).trans hcmd
      have hexec := exec_matmul_starts n hgo hfree hp
      rw [State.startMatmul_empty hpoison hok hmerge n hempty hbases] at hexec
      obtain ⟨-, -, hrooms, hmem, hctxs, -, -, -, hout⟩ := State.frame_of_around (State.around_of_still hst e)
        ((State.roomOnly_updCmd p.2 c.room.val d.seq _).updCmd d.seq _)
      exact ⟨_, hexec, State.cmd_updCmd_updCmd hc _ _ (fun _ => rfl) fun _ => rfl, (congrArg State.engs hst :), hrooms, hmem,
        hctxs, hout⟩
  · intro q hq hrace
    have hb : q.1.beside e2 = s.beside e2 := State.beside_haloInsts ..
    have hr := State.roomOnly_updCmd q.1 c.room.val d.seq fun c => { c with st := .done, started := true }
    have hc : q.1.cmd c = some d :=
      (State.cmd_of_rooms (State.fields_of_around (State.around_of_beside hb)).1 c).trans (State.cmd_of_startable hs)
    obtain ⟨heng, hengs, hrooms, -⟩ := State.frame_of_around (State.around_of_beside hb) hr
    refine ⟨_, exec_halo_done hs hdst hok hq hrace, State.cmd_updCmd hc _ fun _ => rfl, heng, hengs, hrooms, ?_⟩
    exact congrArg (fun x : State => { x with rooms := (q.1.workDone c.room.val d.seq).rooms }) (State.eq_of_beside hb)

end Sys2Proof.Machine
end

section
/-! Blocks of streams and larder fills as they complete (R325, R389, R394 to R396, R398, R591): what a write of physical memory
changes and leaves alone, where the bits of a block land, and what becomes of its stream. -/

namespace Sys2Proof.Machine

/-! ### Maps and registers -/

/-- After every value of a map is changed by `f`, a key reads its default or a value of `f`. -/
theorem FMap.get_mapV {α : Type} [DecidableEq α] (d : Nat → α) (m : FMap α) (f : α → α) (k : Nat) :
    FMap.get d (FMap.mapV d m f) k = d k ∨ ∃ v, FMap.get d (FMap.mapV d m f) k = f v := by
  induction m with
  | nil => exact .inl rfl
  | cons e m ih =>
    by_cases hd : f e.2 = d e.1
    · simpa [FMap.mapV, hd] using ih
    · by_cases hk : k = e.1
      · exact .inr ⟨e.2, by simp [FMap.mapV, hd, FMap.get, hk]⟩
      · simpa [FMap.mapV, hd, FMap.get, hk] using ih

/-- A register without a listed field is as it was. -/
theorem State.RegsOnly.reg_eq {s t : State} {fs : List Fld} (h : s.RegsOnly t fs) {off : Nat} (ho : ∀ f ∈ fs, f.off ≠ off) :
    t.reg off = s.reg off :=
  BitVec.eq_of_getLsbD_eq fun i _ => h off i fun f hf hc => ho f hf hc.1

theorem State.flag_of_regs {s t : State} (h : t.regs = s.regs) (f : Fld) : t.flag f = s.flag f := by
  rw [State.flag, State.flag, State.fget, State.fget, State.reg, State.reg, h]

/-! ### What a write of memory leaves alone (R384, R389, R490) -/

/-- What the party wall's capture of a write leaves alone: the state but the registers and the links. -/
def State.offWall (s : State) : State := { s with regs := [], link := LinkSt.reset }

/-- What a write of memory leaves alone: the state but the registers, the links, and the bytes, poison marks and floor-cache
lines. -/
def State.offMem (s : State) : State := { s.offWall with ms := { s.ms with mem := [], poison := [], lines := [] } }

/-- The register fields that an access to memory may change. -/
def memFlds : List Fld := [F.MEM_STATUS.UNBACKED, F.PW_OUT_EPOCH.EPOCH, F.PW_COUNTS.FORCED]

theorem State.offMem_of_offWall {s t : State} (h : t.offWall = s.offWall) : t.offMem = s.offMem :=
  congrArg (fun u : State => { u with ms := { u.ms with mem := [], poison := [], lines := [] } }) h

/-- The parts of the machine that a write of memory cannot change. -/
theorem State.fields_of_offMem {s t : State} (h : t.offMem = s.offMem) :
    t.engs = s.engs ∧ t.rooms = s.rooms ∧ t.ctxs = s.ctxs ∧ t.ms.fills = s.ms.fills :=
  ⟨(congrArg State.engs h :), (congrArg State.rooms h :), (congrArg State.ctxs h :),
    (congrArg (fun u : State => u.ms.fills) h :)⟩

theorem State.offWall_originate (s : State) (m : Msg) : (s.originate m).offWall = s.offWall := rfl

theorem State.offWall_count (s : State) (f : Fld) (n : Nat) : (s.count f n).offWall = s.offWall := rfl

theorem State.offWall_countSat (s : State) (f : Fld) (n : Nat) : (s.countSat f n).offWall = s.offWall := rfl

theorem State.offWall_withLink (s : State) (l : LinkSt) : State.offWall { s with link := l } = s.offWall := rfl

theorem State.offWall_noteRange (s : State) (a n : Nat) : (s.noteRange a n).offWall = s.offWall := by
  unfold State.noteRange
  split <;> rfl

theorem State.offWall_closeEpoch (s : State) : s.closeEpoch.offWall = s.offWall := by
  unfold State.closeEpoch
  simp only [State.offWall_count, State.offWall_withLink, State.offWall_originate]
  exact foldl_leaves State.offWall _ (fun t _ => State.offWall_originate t _) _ s

theorem State.offWall_capture (s : State) (a : Nat) (l : List Byte) : (s.capture a l).offWall = s.offWall := by
  unfold State.capture
  dsimp only
  split
  · split
    · rw [State.offWall_countSat, State.offWall_closeEpoch, State.offWall_withLink]
    · exact State.offWall_withLink _ _
  · rfl

theorem State.offWall_physWrite (s : State) (a : Nat) (l : List Byte) :
    (s.physWrite a l).offWall = (s.rawWrite a l).offWall := by
  unfold State.physWrite
  dsimp only
  split
  · exact State.offWall_capture ..
  · rfl

theorem State.offMem_dropWritten (s : State) (a n : Nat) : (s.dropWritten a n).offMem = s.offMem := by
  unfold State.dropWritten
  split <;> rfl

theorem State.mem_dropWritten (s : State) (a n : Nat) : (s.dropWritten a n).ms.mem = s.ms.mem := by
  unfold State.dropWritten
  split <;> rfl

theorem State.offMem_rawWrite (s : State) (a : Nat) (l : List Byte) : (s.rawWrite a l).offMem = s.offMem :=
  (State.offMem_of_offWall (State.offWall_noteRange _ a _)).trans (State.offMem_dropWritten _ (s.foldAddr a) l.length)

theorem State.offMem_physWrite (s : State) (a : Nat) (l : List Byte) : (s.physWrite a l).offMem = s.offMem :=
  (State.offMem_of_offWall (State.offWall_physWrite s a l)).trans (State.offMem_rawWrite s a l)

theorem State.offMem_copyPoison (s : State) (src dst n : Nat) : (s.copyPoison src dst n).offMem = s.offMem := by
  refine foldl_leaves State.offMem _ (fun t i => ?_) _ s
  split <;> rfl

/-! ### The registers that an access to memory changes -/

theorem State.regsOnly_noteRange (s : State) (a n : Nat) : s.RegsOnly (s.noteRange a n) memFlds := by
  unfold State.noteRange
  split
  · exact State.RegsOnly.refl s _
  · exact (State.RegsOnly.refl s _).fset _ (by simp [memFlds])

theorem State.regs_originate (s : State) (m : Msg) : (s.originate m).regs = s.regs := rfl

theorem State.regsOnly_closeEpoch (s : State) : s.RegsOnly s.closeEpoch memFlds := by
  refine State.RegsOnly.fset ((State.RegsOnly.refl s _).congr ?_) _ (by simp [memFlds])
  exact foldl_leaves State.regs _ (fun t _ => State.regs_originate t _) _ s

theorem State.regsOnly_capture (s : State) (a : Nat) (l : List Byte) : s.RegsOnly (s.capture a l) memFlds := by
  unfold State.capture
  dsimp only
  split
  · split
    · exact (State.regsOnly_closeEpoch _).fset _ (by simp [memFlds])
    · exact State.RegsOnly.refl s _
  · exact State.RegsOnly.refl s _

theorem State.regs_dropWritten (s : State) (a n : Nat) : (s.dropWritten a n).regs = s.regs := by
  unfold State.dropWritten
  split <;> rfl

theorem State.regsOnly_rawWrite (s : State) (a : Nat) (l : List Byte) : s.RegsOnly (s.rawWrite a l) memFlds := by
  refine State.RegsOnly.trans ?_ (State.regsOnly_noteRange _ a l.length)
  exact (State.RegsOnly.refl s _).congr (State.regs_dropWritten _ (s.foldAddr a) l.length)

theorem State.regsOnly_physWrite (s : State) (a : Nat) (l : List Byte) : s.RegsOnly (s.physWrite a l) memFlds := by
  unfold State.physWrite
  dsimp only
  split
  · exact (State.regsOnly_rawWrite s a l).trans (State.regsOnly_capture _ _ l)
  · exact State.regsOnly_rawWrite s a l

theorem State.ledgerBase_of_regsOnly {s t : State} (h : s.RegsOnly t memFlds) : t.ledgerBase = s.ledgerBase := by
  have hlo : t.reg Off.LEDGER_BASE_LO = s.reg Off.LEDGER_BASE_LO := h.reg_eq (by decide)
  have hhi : t.reg Off.LEDGER_BASE_HI = s.reg Off.LEDGER_BASE_HI := h.reg_eq (by decide)
  rw [State.ledgerBase, State.ledgerBase, State.fget, State.fget, State.fget, State.fget, F.LEDGER_BASE_LO.ADDR_LO,
    F.LEDGER_BASE_HI.ADDR_HI, hlo, hhi]

/-! ### The bytes that a write leaves in memory (R384) -/

theorem State.mem_physWrite (s : State) (a : Nat) (l : List Byte) : (s.physWrite a l).ms.mem =
    Mem.writeFn s.ms.mem (s.foldAddr a) l.length fun i =>
      if s.backed (s.foldAddr a + i) then listByte l i else Mem.byte s.ms.mem (s.foldAddr a + i) :=
  have hmem : ∀ {t u : State}, t.offWall = u.offWall → t.ms.mem = u.ms.mem := congrArg fun u : State => u.ms.mem
  (hmem (State.offWall_physWrite s a l)).trans
    ((hmem (State.offWall_noteRange _ a _)).trans (State.mem_dropWritten _ (s.foldAddr a) l.length))

/-- An address of HBM, its end included, lies in no remote window (R383, R384). -/
theorem State.foldAddr_hbm (s : State) {a : Nat} (h : a ≤ hbmEnd) : s.foldAddr a = a := by
  have : ¬ remoteBase ≤ a := by simp only [hbmEnd, remoteBase] at *; omega
  simp [State.foldAddr, isRemote, this]

section
variable (s : State) {a : Nat} {l : List Byte} (h : a + l.length ≤ hbmEnd)
include h

/-- Memory backs all of HBM, so every byte of a write there is kept (R384). -/
theorem State.byte_physWrite_in {i : Nat} (hi : i < l.length) : Mem.byte (s.physWrite a l).ms.mem (a + i) = listByte l i := by
  have hb : s.backed (a + i) = true := by simp [State.backed, show a + i < hbmEnd by omega]
  rw [State.mem_physWrite, s.foldAddr_hbm (by omega), Mem.byte, Mem.writeFn, FMap.get_setRange_in _ _ _ _ _ _ hi, if_pos hb]

theorem State.byte_physWrite_out {k : Nat} (hk : k < a ∨ a + l.length ≤ k) :
    Mem.byte (s.physWrite a l).ms.mem k = Mem.byte s.ms.mem k := by
  rw [State.mem_physWrite, s.foldAddr_hbm (by omega)]
  exact FMap.get_setRange_out _ _ _ _ _ _ hk

end

/-- What is read where one byte is written in HBM. -/
theorem State.byte_physWrite_one (s : State) {a : Nat} (h : a < hbmEnd) (b : Byte) :
    Mem.byte (s.physWrite a [b]).ms.mem a = b :=
  s.byte_physWrite_in (l := [b]) h (i := 0) Nat.one_pos

@[simp] theorem length_mergeBits (old : List Byte) (ph n v : Nat) : (mergeBits old ph n v).length = old.length := by
  simp [mergeBits, leList]

theorem listByte_mergeBits (old : List Byte) (ph n v : Nat) {i : Nat} (hi : i < old.length) :
    listByte (mergeBits old ph n v) i = leByte (setBitsNat (leOfList old) ph n v) i := by
  simp [listByte, mergeBits, leList, hi]

/-! ### Streams -/

section
variable {s : State} {x : StreamRef} {st : Stream}

/-- A change of a stream that keeps its number is what is found there. -/
theorem State.stream_updStream (h : s.stream x = some st) (f : Stream → Stream) (hf : ∀ y, (f y).id = y.id) :
    (s.updStream x f).stream x = some (f st) := by
  have hid : st.id = x.id := by simpa using List.find?_some h
  have hp : ((fun y : Stream => y.id == x.id) ∘ fun y => if y.id = x.id then f y else y) = fun y => y.id == x.id := by
    funext y
    dsimp only [Function.comp_apply]
    split
    · rw [hf]
    · rfl
  have hfind : (s.eng x.eng.val).streams.find? (fun y => y.id == x.id) = some st := h
  rw [State.stream, State.updStream, State.eng_setEng_same, List.find?_map, hp, hfind, Option.map_some, if_pos hid]

theorem State.buf_updStream (s : State) (x : StreamRef) (f : Stream → Stream) :
    ((s.updStream x f).eng x.eng.val).buf = (s.eng x.eng.val).buf := by
  rw [State.updStream, State.eng_setEng_same]

theorem State.eng_updStream_ne (s : State) (x : StreamRef) (f : Stream → Stream) {g : Nat} (hg : g ≠ x.eng.val) :
    (s.updStream x f).eng g = s.eng g :=
  State.eng_setEng_ne _ _ _ _ hg

/-- Block `k` is no more in flight. -/
def Stream.landed (k : Nat) (y : Stream) : Stream := { y with flight := y.flight.filter fun g => g.k != k }

/-- A stream with blocks to issue goes on when one in flight leaves it (R398). -/
theorem State.retire_of_blocks (h : s.stream x = some st) (hb : st.blocks ≠ []) (k : Nat) (look : Bool) :
    s.retire x k look = s.updStream x (Stream.landed k) := by
  have hu : (s.updStream x (Stream.landed k)).stream x = some (st.landed k) := State.stream_updStream h _ fun _ => rfl
  have he : (st.landed k).blocks.isEmpty = false := by simpa [Stream.landed] using hb
  show State.checkStream (s.updStream x (Stream.landed k)) x look = _
  simp [State.checkStream, hu, he]

theorem State.eng_of_engs {t : State} (h : t.engs = s.engs) (e : Nat) : t.eng e = s.eng e := by
  rw [State.eng, State.eng, h]

theorem State.stream_of_engs {t : State} (h : t.engs = s.engs) (x : StreamRef) : t.stream x = s.stream x := by
  rw [State.stream, State.stream, State.eng_of_engs h]

end

/-! ### Bits that land in an engine buffer or a room store (R591) -/

section
variable {s : State} {r e ctx space b w v : Nat}

theorem State.putSpace_buffer (h : space ≠ 1) : s.putSpace r e ctx space b w v = s.setEng e ((s.eng e).putBits ctx b w v) :=
  if_neg h

theorem State.putSpace_store (h : space = 1) : s.putSpace r e ctx space b w v =
    s.setRoom r { s.room r with store := Mem.writeBits (s.room r).store b w fun i => bitAt v i } :=
  if_pos h

/-- Bits that land change units alone. -/
theorem State.fields_putSpace : (s.putSpace r e ctx space b w v).regs = s.regs ∧
    (s.putSpace r e ctx space b w v).ms = s.ms ∧ (s.putSpace r e ctx space b w v).ctxs = s.ctxs := by
  unfold State.putSpace
  split <;> exact ⟨rfl, rfl, rfl⟩

theorem State.eng_putSpace_ne {g : Nat} (hg : g ≠ e) : (s.putSpace r e ctx space b w v).eng g = s.eng g := by
  unfold State.putSpace
  split
  · rfl
  · exact State.eng_setEng_ne _ _ _ _ hg

theorem State.streams_putSpace : ((s.putSpace r e ctx space b w v).eng e).streams = (s.eng e).streams := by
  unfold State.putSpace
  split
  · rfl
  · rw [State.eng_setEng_same]; rfl

end

/-! ### A read block (R325, R389, R398) -/

theorem State.fields_of_still {s t : State} (h : t.still = s.still) :
    t.engs = s.engs ∧ t.rooms = s.rooms ∧ t.ms.mem = s.ms.mem ∧ t.ctxs = s.ctxs :=
  ⟨(congrArg State.engs h :), (congrArg State.rooms h :), (congrArg (fun u : State => u.ms.mem) h :),
    (congrArg State.ctxs h :)⟩

theorem State.still_blockData (s : State) (f : InFlight) : (s.blockData f).2.still = s.still := by
  unfold State.blockData
  split
  · rfl
  · exact State.still_noteRange ..

/-- Each poisoned beat of a block is noted, and a free value drawn for the bits that have no replacement (R389). -/
def State.noteBeats (s : State) (bad : List Nat) : State := if bad.isEmpty then s else s.draw.2.notePoison bad.length

/-- The cellar burst of a block that has arrived whole is over (R416). -/
def State.endBurst (s : State) (f : InFlight) : State :=
  match f.reach with
  | .cellar p q => { s with ms := { s.ms with bursts := s.ms.bursts.filter fun b => !(b.port == p && b.seq == q) } }
  | _ => s

/-- The state in which the bits of a block land: its line is kept, its poison noted, its burst over. -/
def State.received (s : State) (x : StreamRef) (st : Stream) (f : InFlight) (data : List Byte) (bad : List Nat) : State :=
  ((s.cacheRead (engFloor x.eng.val) st f data bad).noteBeats bad).endBurst f

theorem State.still_cacheRead (s : State) (fl : Nat) (st : Stream) (f : InFlight) (data : List Byte) (bad : List Nat) :
    (s.cacheRead fl st f data bad).still = s.still :=
  ite_leaves State.still _ rfl rfl

theorem State.freeCtr_cacheRead (s : State) (fl : Nat) (st : Stream) (f : InFlight) (data : List Byte) (bad : List Nat) :
    (s.cacheRead fl st f data bad).freeCtr = s.freeCtr :=
  ite_leaves State.freeCtr _ rfl rfl

theorem State.still_noteBeats (s : State) (bad : List Nat) : (s.noteBeats bad).still = s.still :=
  ite_leaves State.still _ rfl (ite_leaves State.still _ rfl rfl)

theorem State.still_endBurst (s : State) (f : InFlight) : (s.endBurst f).still = s.still := by
  unfold State.endBurst
  split <;> rfl

theorem State.regs_endBurst (s : State) (f : InFlight) : (s.endBurst f).regs = s.regs := by
  unfold State.endBurst
  split <;> rfl

theorem State.flag_poison_noteBeats (s : State) {bad : List Nat} (h : bad ≠ []) :
    (s.noteBeats bad).flag F.MEM_STATUS.POISON = true := by
  simp [State.noteBeats, State.notePoison, h, State.flag, State.fget_fset_same, F.MEM_STATUS.POISON]

section
variable (s : State) (x : StreamRef) (st : Stream) (f : InFlight) (data : List Byte) (bad : List Nat)

theorem State.still_received : (s.received x st f data bad).still = s.still :=
  (State.still_endBurst ..).trans ((State.still_noteBeats ..).trans (State.still_cacheRead ..))

theorem State.flag_poison_received (h : bad ≠ []) : (s.received x st f data bad).flag F.MEM_STATUS.POISON = true :=
  (State.flag_of_regs (State.regs_endBurst ..) _).trans (State.flag_poison_noteBeats _ h)

/-- A burst may end before or after the bits of its block land. -/
theorem State.endBurst_putSpace (r e ctx space b w v : Nat) :
    (s.putSpace r e ctx space b w v).endBurst f = (s.endBurst f).putSpace r e ctx space b w v := by
  unfold State.endBurst State.putSpace
  split <;> split <;> rfl

/-- A read block that moves data lands its bits, poison replaced, and leaves the flight. -/
theorem State.completeRead_eq (h : f.blk.kind ≠ .look) : s.completeRead x st f data bad =
    ((s.received x st f data bad).putSpace (engRoom x.eng.val) x.eng.val st.ctx f.blk.space f.blk.loc f.blk.nbits
      (blockBits f.blk f.pa data bad s.draw.1)).retire x f.k false := by
  have hland : ∀ (u : State) (v : Nat), u.landRead x st f.blk v =
      u.putSpace (engRoom x.eng.val) x.eng.val st.ctx f.blk.space f.blk.loc f.blk.nbits v := fun u v => by
    unfold State.landRead
    split
    · contradiction
    · rfl
  have hlook : (f.blk.kind == .look) = false := by simpa using h
  have hdraw : (s.cacheRead (engFloor x.eng.val) st f data bad).draw.1 = s.draw.1 :=
    congrArg Config.freeNat (State.freeCtr_cacheRead ..)
  rw [State.received, ← State.endBurst_putSpace, ← hland, ← hlook, ← hdraw]
  rfl

end

/-! ### A block of a stream completes -/

section
variable {s : State} {x : StreamRef} {k : Nat} {st : Stream} {f : InFlight} (hrun : s.running = true)
  (hst : s.stream x = some st) (hf : st.flight.find? (fun g => g.k == k) = some f) (hw : s.burstWhole f = true)
include hrun hst hf hw

theorem exec_streamBlockComplete_read (hr : st.isWrite = false) : exec (.streamBlockComplete x k) s =
    .next ((s.blockData f).2.completeRead x st f (s.blockData f).1.1 (s.blockData f).1.2) := by
  simp [execStreamBlockComplete, hst, hf, hrun, hw, hr]

theorem exec_streamBlockComplete_write (hr : st.isWrite = true) :
    exec (.streamBlockComplete x k) s = .next (s.completeWrite x st f) := by
  simp [execStreamBlockComplete, hst, hf, hrun, hw, hr]

end

/-- A write block that nothing holds back writes its bits among those of its bytes and leaves the flight (R308, R490, R591). -/
theorem State.completeWrite_eq {s : State} {x : StreamRef} {st : Stream} {f : InFlight} (hk : f.blk.kind ≠ .free)
    (hmeet : ∀ g ∈ st.flight, g.k < f.k → rangesMeet g.pa g.blk.nbits f.pa f.blk.nbits = false)
    (hblock : s.wallBlocks (blockSpan f.pa f.blk.nbits).1 (blockSpan f.pa f.blk.nbits).2 = false)
    (hfull : s.wallFull (s.foldAddr (blockSpan f.pa f.blk.nbits).1) (blockSpan f.pa f.blk.nbits).2 = false) :
    s.completeWrite x st f = (s.physWrite (blockSpan f.pa f.blk.nbits).1
      (mergeBits ((List.range (blockSpan f.pa f.blk.nbits).2).map fun i => s.physByte ((blockSpan f.pa f.blk.nbits).1 + i))
        (f.pa % 8) f.blk.nbits
        (s.getSpace (engRoom x.eng.val) x.eng.val st.ctx f.blk.space f.blk.loc f.blk.nbits))).retire x f.k false := by
  have hany : (st.flight.any fun g => decide (g.k < f.k) && rangesMeet g.pa g.blk.nbits f.pa f.blk.nbits) = false := by
    simpa using hmeet
  have hout : s.outBits x.eng.val st.ctx f.blk =
      (s.getSpace (engRoom x.eng.val) x.eng.val st.ctx f.blk.space f.blk.loc f.blk.nbits, s) := by
    unfold State.outBits
    split
    · contradiction
    · rfl
  simp only [State.completeWrite, hany, hblock, hfull, hout, Bool.false_eq_true, if_false]

/-- What a read block changes of its stream, its engine buffer and its room store, and what it leaves (R398). -/
theorem State.retire_putSpace {s u : State} {x : StreamRef} {st : Stream} (hu : u.still = s.still)
    (hst : s.stream x = some st) (hb : st.blocks ≠ []) (ctx space b w v k : Nat) :
    let t := (u.putSpace (engRoom x.eng.val) x.eng.val ctx space b w v).retire x k false
    t.stream x = some (st.landed k) ∧
      (space ≠ 1 → (t.eng x.eng.val).buf = ((s.eng x.eng.val).putBits ctx b w v).buf ∧ t.rooms = s.rooms) ∧
      (space = 1 → (t.eng x.eng.val).buf = (s.eng x.eng.val).buf ∧ (∀ q, q ≠ engRoom x.eng.val → t.room q = s.room q) ∧
        t.room (engRoom x.eng.val) = { s.room (engRoom x.eng.val) with
          store := Mem.writeBits (s.room (engRoom x.eng.val)).store b w fun i => bitAt v i }) ∧
      t.regs = u.regs ∧ (∀ g, g ≠ x.eng.val → t.eng g = s.eng g) ∧ t.ms.mem = s.ms.mem ∧ t.ctxs = s.ctxs := by
  intro t
  obtain ⟨hengs, hrooms, hmem, hctxs⟩ := State.fields_of_still hu
  have heng := State.eng_of_engs hengs
  have hq : (u.putSpace (engRoom x.eng.val) x.eng.val ctx space b w v).stream x = some st := by
    rw [State.stream, State.streams_putSpace]
    exact (State.stream_of_engs hengs x).trans hst
  have ht : t = (u.putSpace (engRoom x.eng.val) x.eng.val ctx space b w v).updStream x (Stream.landed k) :=
    State.retire_of_blocks hq hb k false
  clear_value t
  subst ht
  obtain ⟨hregs, hms, hctxs'⟩ := State.fields_putSpace (s := u) (r := engRoom x.eng.val) (e := x.eng.val) (ctx := ctx)
    (space := space) (b := b) (w := w) (v := v)
  refine ⟨State.stream_updStream hq _ fun _ => rfl, fun hs => ⟨?_, ?_⟩, fun hs => ⟨?_, fun q hne => ?_, ?_⟩,
    hregs, fun g hg => ?_, (congrArg MemSt.mem hms).trans hmem, hctxs'.trans hctxs⟩
  · rw [State.buf_updStream, State.putSpace_buffer hs, State.eng_setEng_same, heng]
  · rw [State.putSpace_buffer hs]
    exact hrooms
  · rw [State.buf_updStream, State.putSpace_store hs, State.eng_setRoom, heng]
  · rw [State.putSpace_store hs]
    exact (State.room_setRoom_ne _ _ _ _ hne).trans (State.room_of_rooms hrooms q)
  · rw [State.putSpace_store hs, ← State.room_of_rooms hrooms]
    exact State.room_setRoom_same ..
  · rw [State.eng_updStream_ne _ _ _ hg, State.eng_putSpace_ne hg, heng]

/-- What a write block changes of its stream, and what it leaves beside memory (R398). -/
theorem State.retire_physWrite {s : State} {x : StreamRef} {st : Stream} (hst : s.stream x = some st) (hb : st.blocks ≠ [])
    (a : Nat) (l : List Byte) (k : Nat) :
    let t := (s.physWrite a l).retire x k false
    t.stream x = some (st.landed k) ∧ t.ms.mem = (s.physWrite a l).ms.mem ∧ (t.eng x.eng.val).buf = (s.eng x.eng.val).buf ∧
      (∀ g, g ≠ x.eng.val → t.eng g = s.eng g) ∧ t.rooms = s.rooms ∧ t.ctxs = s.ctxs := by
  intro t
  obtain ⟨hengs, hrooms, hctxs, -⟩ := State.fields_of_offMem (s.offMem_physWrite a l)
  have heng := State.eng_of_engs hengs
  have hw : (s.physWrite a l).stream x = some st := (State.stream_of_engs hengs x).trans hst
  have ht : t = (s.physWrite a l).updStream x (Stream.landed k) := State.retire_of_blocks hw hb k false
  clear_value t
  subst ht
  refine ⟨State.stream_updStream hw _ fun _ => rfl, rfl, ?_, fun g hg => ?_, hrooms, hctxs⟩
  · rw [State.buf_updStream, heng]
  · rw [State.eng_updStream_ne _ _ _ hg, heng]

/-! ### A larder fill (R394 to R396) -/

/-- The state after an expert is copied to the larder, its poison marks with it (R389, R394). -/
def State.copyExpert (s : State) (src dst n : Nat) : State :=
  ((s.physRead src n).2.physWrite dst (s.physRead src n).1).copyPoison src dst n

theorem State.offMem_copyExpert (s : State) (src dst n : Nat) : (s.copyExpert src dst n).offMem = s.offMem :=
  (State.offMem_copyPoison ..).trans
    ((State.offMem_physWrite ..).trans (State.offMem_of_offWall (State.offWall_noteRange s src n)))

theorem State.regs_copyPoison (s : State) (src dst n : Nat) : (s.copyPoison src dst n).regs = s.regs := by
  refine foldl_leaves State.regs _ (fun t i => ?_) _ s
  split <;> rfl

theorem State.regsOnly_copyExpert (s : State) (src dst n : Nat) : s.RegsOnly (s.copyExpert src dst n) memFlds :=
  ((State.regsOnly_noteRange s src n).trans (State.regsOnly_physWrite _ dst _)).congr (State.regs_copyPoison ..)

/-- The fill of expert `n` is no more in progress. -/
def State.endFill (s : State) (n : Nat) : State :=
  { s with ms := { s.ms with fills := s.ms.fills.filter fun g => g.expert != n } }

/-- No floor keeps a ledger entry that a drop selects. -/
theorem State.ledgerC_dropLedger (s : State) (sel : Nat → Nat → Bool) (fl : Nat) :
    ∀ e ∈ (s.dropLedger sel).ms.ledgerC.get (fun _ => []) fl, sel e.1 e.2.1 = false := by
  intro e he
  rcases FMap.get_mapV (fun _ => []) s.ms.ledgerC (fun l => l.filter fun e => !sel e.1 e.2.1) fl with h | ⟨v, h⟩
  · rw [State.dropLedger, h] at he
    cases he
  · rw [State.dropLedger, h] at he
    simpa using (List.mem_filter.mp he).2

section
variable {n : BitVec 16} {s : State} {f : Fill} (hf : s.ms.fills.find? (fun g => g.expert == n.toNat) = some f)
  (hblock : s.wallBlocks (ldLarder f.entry) (ldSize f.entry * 4096) = false)
include hf hblock

/-- A fill that no window holds back copies its expert and then compares the ledger entry (R395). -/
theorem exec_larderFillEnd_copies : exec (.larderFillEnd n) s =
    let u := (s.copyExpert (ldCellar f.entry) (ldLarder f.entry) (ldSize f.entry * 4096)).endFill n.toNat
    .next (if u.ledgerMem n.toNat = f.entry
      then (u.physWrite (u.ledgerBase + n.toNat * 32) [1]).dropLedger fun _ y => y == n.toNat
      else u.countSat F.FILL_COUNTS.FILL_FAIL 1) := by
  simp only [exec_larderFillEnd, execLarderFillEnd, hf, hblock, Bool.false_eq_true, if_false]
  rfl

/-- A fill whose ledger entry has not changed marks its expert present and drops the copies of the entry (R395). -/
theorem exec_larderFillEnd_present
    (hsame : (s.copyExpert (ldCellar f.entry) (ldLarder f.entry) (ldSize f.entry * 4096)).ledgerMem n.toNat = f.entry) :
    exec (.larderFillEnd n) s =
      .next ((((s.copyExpert (ldCellar f.entry) (ldLarder f.entry) (ldSize f.entry * 4096)).endFill n.toNat).physWrite
        (s.ledgerBase + n.toNat * 32) [1]).dropLedger fun _ y => y == n.toNat) := by
  rw [exec_larderFillEnd_copies hf hblock, ← State.ledgerBase_of_regsOnly (State.regsOnly_copyExpert s _ _ _)]
  exact congrArg Host.Outcome.next (if_pos hsame)

end

/-- What the end of a fill changes once its expert is copied: the fill is over, its entry's first byte is PRESENT, and no floor
keeps a copy of the entry (R395). -/
theorem State.markPresent (u : State) (n : Nat) {a : Nat} (ha : a < hbmEnd) :
    let t := ((u.endFill n).physWrite a [1]).dropLedger fun _ y => y == n
    t.ms.fills = u.ms.fills.filter (fun g => g.expert != n) ∧ Mem.byte t.ms.mem a = 1 ∧
      (∀ fl, ∀ e ∈ t.ms.ledgerC.get (fun _ => []) fl, e.2.1 ≠ n) ∧ t.rooms = u.rooms ∧ t.engs = u.engs ∧
      t.ctxs = u.ctxs := by
  intro t
  obtain ⟨hengs, hrooms, hctxs, hfills⟩ := State.fields_of_offMem (State.offMem_physWrite (u.endFill n) a [1])
  refine ⟨hfills, State.byte_physWrite_one _ ha 1, fun fl e he => ?_, hrooms, hengs, hctxs⟩
  simpa using State.ledgerC_dropLedger _ _ fl e he

/-! ### Stream blocks and larder fills -/

/-- Settles O43: the bits of a read block land in its region, those of a write block among the other bits of their bytes, and
a fill copies its expert and marks it present. -/
theorem streamBlocksAndFillsComplete : Obligations.StreamBlocksAndFillsComplete := by
  refine ⟨fun x k s st f hrun hst hf hw hblocks => ?_, fun n s f hf => ?_⟩
  · have hk : f.k = k := by simpa using List.find?_some hf
    refine ⟨fun hr hlook => ?_, fun hr hfree hmeet => ?_⟩
    · intro p v r
      have hexec := exec_streamBlockComplete_read hrun hst hf hw hr
      rw [State.completeRead_eq _ x st f _ _ hlook, hk] at hexec
      have hstill : (p.2.received x st f p.1.1 p.1.2).still = s.still :=
        (State.still_received ..).trans (State.still_blockData s f)
      obtain ⟨hstream, hbuf, hroom, hregs, hengs, hmem, hctxs⟩ :=
        State.retire_putSpace hstill hst hblocks st.ctx f.blk.space f.blk.loc f.blk.nbits v k
      exact ⟨_, hexec, hstream, hbuf, hroom,
        fun hbad => (State.flag_of_regs hregs _).trans (State.flag_poison_received _ _ _ _ _ _ hbad), hengs, hmem, hctxs⟩
    · intro sp v hin hblock hfull
      have hfold : s.foldAddr sp.1 = sp.1 := s.foldAddr_hbm (by omega)
      have hexec := exec_streamBlockComplete_write hrun hst hf hw hr
      rw [State.completeWrite_eq hfree hmeet hblock (hfold.symm ▸ hfull), hk] at hexec
      obtain ⟨hstream, hmem, hbuf, hengs, hrooms, hctxs⟩ := State.retire_physWrite hst hblocks sp.1
        (mergeBits ((List.range sp.2).map fun i => s.physByte (sp.1 + i)) (f.pa % 8) f.blk.nbits v) k
      refine ⟨_, hexec, hstream, fun i hi => ?_, fun a ha => ?_, hbuf, hengs, hrooms, hctxs⟩
      · rw [hmem]
        exact (State.byte_physWrite_in s (by simpa using hin) (by simpa using hi)).trans
          (listByte_mergeBits _ _ _ _ (by simpa using hi))
      · rw [hmem]
        exact State.byte_physWrite_out s (by simpa using hin) (by simpa using ha)
  · intro size p hblock hin hsame
    have hadr : s.ledgerBase + n.toNat * 32 < hbmEnd := by
      have hn := n.isLt
      simp only [inHbm, decide_eq_true_eq] at hin
      omega
    obtain ⟨hengs, hrooms, hctxs, hfills⟩ := State.fields_of_offMem
      (s.offMem_copyExpert (ldCellar f.entry) (ldLarder f.entry) size)
    rw [← hengs, ← hrooms, ← hctxs, ← hfills]
    exact ⟨_, exec_larderFillEnd_present hf hblock hsame, State.markPresent _ n.toNat hadr⟩

end Sys2Proof.Machine
end

section
/-! Dispatch of a ready command (R200, R222, R298, R300, R306, R317, R326, R330): what each step of a dispatch leaves alone, what
the verdict on a command is, and what becomes of its record. -/

namespace Sys2Proof.Machine

/-! ### What counting, a task slot and a flue record leave alone -/

/-- What a change of registers and of room `r` leaves alone: the state but both, and every other room. -/
def State.offRoom (s : State) (r : Nat) : State × (Nat → RoomSt) :=
  ({ s with regs := [], rooms := [] }, fun q => if q = r then RoomSt.reset else s.room q)

theorem State.offRoom_setRoom (s : State) (r : Nat) (x : RoomSt) : (s.setRoom r x).offRoom r = s.offRoom r := by
  refine Prod.ext rfl (funext fun q => ?_)
  by_cases h : q = r
  · simp [State.offRoom, h]
  · simp [State.offRoom, h, State.room_setRoom_ne]

theorem State.offRoom_updCmd (s : State) (r seq : Nat) (f : RoomCmd → RoomCmd) :
    (s.updCmd r seq f).offRoom r = s.offRoom r :=
  State.offRoom_setRoom ..

/-- Nothing but registers and rooms is another. -/
theorem State.eq_of_offRoom {s t : State} {r : Nat} (h : t.offRoom r = s.offRoom r) :
    t = { s with regs := t.regs, rooms := t.rooms } :=
  congrArg (fun p : State × (Nat → RoomSt) => { p.1 with regs := t.regs, rooms := t.rooms }) h

/-- Every room but the one that changes is as it was. -/
theorem State.room_of_offRoom {s t : State} {r q : Nat} (h : t.offRoom r = s.offRoom r) (hq : q ≠ r) : t.room q = s.room q := by
  simpa [State.offRoom, hq] using congrFun (congrArg Prod.snd h) q

/-- What neither a counter nor a room's count of dispatches changes is as it was once a dispatch is counted (R330, R371). -/
theorem State.countDispatch_leaves {β : Type} (view : State → β) (s : State) (r : Nat) (d : RoomCmd)
    (hcount : ∀ t f, view (State.count t f 1) = view t)
    (hseen : ∀ n, view (s.setRoom r { s.room r with brkSeen := n }) = view s) : view (s.countDispatch r d) = view s :=
  (ite_leaves view _ (hcount ..) rfl).trans (ite_leaves view _ rfl ((hcount ..).trans (hseen _)))

theorem State.offRoom_countDispatch (s : State) (r : Nat) (d : RoomCmd) : (s.countDispatch r d).offRoom r = s.offRoom r :=
  State.countDispatch_leaves (State.offRoom · r) s r d (fun _ _ => rfl) fun _ => State.offRoom_setRoom ..

/-- Counting a dispatch leaves the commands of its room. -/
theorem State.cmd_countDispatch (s : State) (c : CmdRef) (d : RoomCmd) : (s.countDispatch c.room.val d).cmd c = s.cmd c :=
  State.countDispatch_leaves (State.cmd · c) s _ d (fun _ _ => rfl) fun _ => by simp [State.cmd, RoomSt.find]

theorem State.eng_placeTask_ne (s : State) (d : RoomCmd) (n : Nat) {e f : Nat} (h : f ≠ e) :
    (s.placeTask d e n).eng f = s.eng f :=
  State.eng_setEng_ne _ _ _ _ h

/-- The slot that a command takes holds it, and its context. -/
theorem State.slot_placeTask (s : State) (d : RoomCmd) (e n : Nat) :
    (((s.placeTask d e n).eng e).slot n).cmd = some d.seq ∧ (((s.placeTask d e n).eng e).slot n).ctx = d.ctx := by
  simp [State.placeTask]

/-- What a flue record leaves alone: the state but the free values drawn, the registers, memory, the links, the host boundary
and what was sent. -/
def State.offFlue (s : State) : State :=
  { s with freeCtr := 0, regs := [], ms := MemSt.reset, link := LinkSt.reset, hs := HostSt.reset, outbox := [] }

theorem State.offFlue_physWrite (s : State) (a : Nat) (l : List Byte) : (s.physWrite a l).offFlue = s.offFlue :=
  (congrArg State.offFlue (State.offMem_physWrite s a l) :)

theorem State.offFlue_signal (s : State) (vec : Nat) : (s.signal .pf vec).offFlue = s.offFlue := by
  have hsend : (s.sendMsix .pf vec).offFlue = s.offFlue :=
    ite_leaves State.offFlue _ rfl (ite_leaves State.offFlue _ rfl rfl)
  exact ite_leaves State.offFlue _ rfl hsend

theorem State.offFlue_pkgEvent (s : State) (i : Nat) : (s.pkgEvent i).offFlue = s.offFlue :=
  ite_leaves State.offFlue _ (State.offFlue_signal ..) rfl

/-- A flue record goes to the ring, or is lost, and may raise FLUE (R526). -/
theorem State.offFlue_fluePush (s : State) (l : List Byte) : (s.fluePush l).offFlue = s.offFlue := by
  have hlost : ((s.countSat F.FLUE_LOST.COUNT 1).pkgEvent evFlue).offFlue = s.offFlue := State.offFlue_pkgEvent ..
  have hput : ∀ a x, ((s.physWrite a l).fset F.FLUE_TAIL.TAIL x).offFlue = s.offFlue := fun a _ => State.offFlue_physWrite s a l
  refine ite_leaves State.offFlue _ hlost (ite_leaves State.offFlue _ hlost (ite_leaves State.offFlue _ ?_ (hput ..)))
  exact (State.offFlue_pkgEvent ..).trans (hput ..)

theorem State.offFlue_flueCmd (s : State) (ty cause : Nat) (d : RoomCmd) (phys : Option Nat) :
    (s.flueCmd ty cause d phys).offFlue = s.offFlue := by
  cases phys <;> exact State.offFlue_fluePush ..

theorem State.offFlue_flueDispatch (s : State) (r seq : Nat) : (s.flueDispatch r seq).offFlue = s.offFlue := by
  unfold State.flueDispatch
  split
  · exact ite_leaves State.offFlue _ (State.offFlue_flueCmd ..) rfl
  · rfl

/-- The parts of the machine that a flue record cannot change. -/
theorem State.fields_of_offFlue {s t : State} (h : t.offFlue = s.offFlue) :
    t.rooms = s.rooms ∧ t.engs = s.engs ∧ t.ctxs = s.ctxs ∧ t.latches = s.latches ∧ t.arbs = s.arbs ∧ t.pwr = s.pwr :=
  ⟨(congrArg State.rooms h :), (congrArg State.engs h :), (congrArg State.ctxs h :), (congrArg State.latches h :),
    (congrArg State.arbs h :), (congrArg State.pwr h :)⟩

theorem State.seq_of_cmd {s : State} {c : CmdRef} {k : RoomCmd} (h : s.cmd c = some k) : k.seq = c.seq := by
  simpa using List.find?_some (h : (s.room c.room.val).cmds.find? (fun k => k.seq == c.seq) = some k)

/-- A command without TRACE_DISPATCH sends no flue record at its dispatch (R326). -/
theorem State.flueDispatch_untraced {s : State} {c : CmdRef} {k : RoomCmd} (h : s.cmd c = some k) (ht : dTrace k.desc = false) :
    s.flueDispatch c.room.val c.seq = s := by
  have hfind : (s.room c.room.val).find c.seq = some k := h
  simp [State.flueDispatch, hfind, ht]

/-! ### The verdict on a ready command (R222, R300, R317) -/

section
variable {s : State} {r e : Nat} {d : RoomCmd}

theorem State.judged_ok (h : s.latchBad d = false) (v : Verdict) : s.judged d v = v := by
  simp [State.judged, h]

theorem State.judged_latchBad (h : s.latchBad d = true) (v : Verdict) :
    s.judged d v = .fault (FaultInfo.mk0 causeLatchRange) := by
  simp [State.judged, h]

theorem State.verdict_of_engine (hu : usesEngine (dOpcode d.desc) = true) (he : s.engineOf r d = some e) :
    s.verdict r d = s.judgeOn r d e := by
  simp [State.verdict, hu, he]

theorem State.verdict_plain (hu : usesEngine (dOpcode d.desc) = false) : s.verdict r d = s.judged d (.go none) := by
  simp [State.verdict, hu]

/-- A conflict on the board keeps the command waiting (R317). -/
theorem State.judgeOn_conflict (hb : s.boardFree r d (s.cmdRegions r d) = false) : s.judgeOn r d e = .wait := by
  simp [State.judgeOn, hb]

/-- A fenced engine is judged once no conflict is left (R586). -/
theorem State.judgeOn_fenced (hb : s.boardFree r d (s.cmdRegions r d) = true) (hf : s.engFenced e = true) :
    s.judgeOn r d e = s.judged d (.fault (fenceInfo causeUnitFence (physPlace e))) := by
  simp [State.judgeOn, hb, hf]

/-- A requested fence, a named accumulator slot in use and full task slots keep the command waiting (R72, R222). -/
theorem State.judgeOn_occupied (hf : s.engFenced e = false)
    (h : s.engFenceReq e = true ∨ s.slotsFree d e = false ∨ s.taskSlotFor d e = none) : s.judgeOn r d e = .wait := by
  rcases h with h | h | h <;> simp [State.judgeOn, hf, h]

/-- With its regions and slots free the command takes a task slot of its engine. -/
theorem State.judgeOn_free {n : Nat} (hb : s.boardFree r d (s.cmdRegions r d) = true) (hf : s.engFenced e = false)
    (hq : s.engFenceReq e = false) (hs : s.slotsFree d e = true) (ht : s.taskSlotFor d e = some n) :
    s.judgeOn r d e = s.judged d (.go (some (e, n))) := by
  simp [State.judgeOn, hb, hf, hq, hs, ht]

end

/-! ### The work of a dispatch -/

/-- The record of a command from its dispatch on, when it has neither a runtime shape nor an affine block. -/
def State.dispatched (s : State) (r : Nat) (c : RoomCmd) (en : Option (Nat × Nat)) (d : RoomCmd) : RoomCmd :=
  { d with
    st := .running, tDispatch := s.ts.toNat, eng := en.elim d.eng fun p => some p.1, slot := en.elim d.slot (·.2)
    dst := if dOpcode d.desc = 7 then s.haloDst d.desc else none, badRec := false
    regions := s.cmdRegions r c, aff := BitVec.ofNat 512 (leOfList SRead.empty.bytes), shape := none }

/-- A dispatch before its flue record: the command's record, its task slot where it takes one, and what counts it. -/
def State.entered (s : State) (r : Nat) (d : RoomCmd) (en : Option (Nat × Nat)) : State :=
  let u := s.updCmd r d.seq (s.dispatched r d en)
  match en with
  | some p => (u.placeTask d p.1 p.2).countDispatch r d
  | none => u.countDispatch r d

/-- An operation of R292 with neither a runtime shape nor an affine block is dispatched without a read of memory. -/
theorem State.doDispatch_eq {s : State} {r : Nat} {d : RoomCmd} (en : Option (Nat × Nat))
    (hop : 1 ≤ dOpcode d.desc ∧ dOpcode d.desc ≤ 9)
    (hshape : ¬(dShapeRt d.desc = true ∧ 2 ≤ dOpcode d.desc ∧ dOpcode d.desc ≤ 6)) (haff : dAgen d.desc ≠ 2) :
    s.doDispatch r d en = (s.entered r d en).flueDispatch r d.seq := by
  have hsh : s.shapeOf r d = ((none, false, true), s) := if_neg hshape
  have haf : s.affOf r d = (SRead.empty, s) := if_neg haff
  have hlegal : (!(decide (1 ≤ dOpcode d.desc) && decide (dOpcode d.desc ≤ 9))) = false := by simp [hop]
  simp only [State.doDispatch, hsh, haf, hlegal]
  cases en <;> rfl

section
variable {s : State} {c : CmdRef} {d : RoomCmd} (hcmd : s.cmd c = some d)
include hcmd

/-- What the dispatch of a command to slot `n` of engine `e` does before its flue record. -/
theorem State.entered_engine (e n : Nat) :
    let k := s.dispatched c.room.val d (some (e, n)) d
    let t := s.entered c.room.val d (some (e, n))
    t.cmd c = some k ∧ ((t.eng e).slot n).cmd = some d.seq ∧ ((t.eng e).slot n).ctx = d.ctx ∧
      (∀ q, q ≠ c.room.val → t.room q = s.room q) ∧ (∀ f, f ≠ e → t.eng f = s.eng f) ∧
      t = { s with regs := t.regs, rooms := t.rooms, engs := t.engs } := by
  intro k t
  let u := s.updCmd c.room.val d.seq (s.dispatched c.room.val d (some (e, n)))
  have hroom : t.offRoom c.room.val = (u.placeTask d e n).offRoom c.room.val := State.offRoom_countDispatch ..
  have hrest : t = { u.placeTask d e n with regs := t.regs, rooms := t.rooms } := State.eq_of_offRoom hroom
  have hengs : t.engs = (u.placeTask d e n).engs := (congrArg State.engs hrest :)
  obtain ⟨hslot, hctx⟩ := State.slot_placeTask u d e n
  rw [← State.eng_of_engs hengs] at hslot hctx
  refine ⟨(State.cmd_countDispatch ..).trans (State.cmd_updCmd hcmd _ fun _ => rfl), hslot, hctx, fun q hq => ?_, fun f hf => ?_,
    congrArg (fun v : State => { v with engs := t.engs }) hrest⟩
  · exact (State.room_of_offRoom hroom hq).trans (State.room_setRoom_ne _ _ _ _ hq)
  · exact (State.eng_of_engs hengs f).trans (State.eng_placeTask_ne u d n hf)

/-- What the dispatch of a command without an engine does before its flue record. -/
theorem State.entered_plain :
    let t := s.entered c.room.val d none
    t.cmd c = some (s.dispatched c.room.val d none d) ∧ t.offRoom c.room.val = s.offRoom c.room.val :=
  ⟨(State.cmd_countDispatch ..).trans (State.cmd_updCmd hcmd _ fun _ => rfl),
    (State.offRoom_countDispatch ..).trans (State.offRoom_updCmd ..)⟩

end

/-! ### A break (R330, R331) -/

theorem State.roomOnly_setRoom (s : State) (r : Nat) (x : RoomSt) : s.RoomOnly (s.setRoom r x) r :=
  ⟨rfl, fun _ h => State.room_setRoom_ne _ _ _ _ h⟩

/-- The room of a break: the break has occurred, and the command is held. -/
def State.heldAtBreak (s : State) (r : Nat) (d : RoomCmd) : State :=
  (s.setRoom r { s.room r with brkFired := true }).updCmd r d.seq fun k => { k with st := .held }

theorem State.roomOnly_heldAtBreak (s : State) (r : Nat) (d : RoomCmd) : s.RoomOnly (s.heldAtBreak r d) r :=
  (s.roomOnly_setRoom r _).updCmd _ _

theorem State.cmd_heldAtBreak {s : State} {c : CmdRef} {d : RoomCmd} (h : s.cmd c = some d) :
    (s.heldAtBreak c.room.val d).cmd c = some { d with st := .held } := by
  refine State.cmd_updCmd ?_ _ fun _ => rfl
  rw [← h, State.cmd, State.room_setRoom_same]
  rfl

theorem State.takeBreak_eq (s : State) (r : Nat) (d : RoomCmd) : s.takeBreak r d =
    (((s.heldAtBreak r d).fset (F.BRK_STATUS.HIT r) 1).fset (F.BRK_STATUS.HALTED r) 1).emit (.mgmtIrq r) := rfl

/-- BRK_STATUS after a break (R331). -/
theorem State.flags_haltHit (s : State) (r : Nat) :
    let t := (s.fset (F.BRK_STATUS.HIT r) 1).fset (F.BRK_STATUS.HALTED r) 1
    t.flag (F.BRK_STATUS.HALTED r) = true ∧ t.flag (F.BRK_STATUS.HIT r) = true := by
  have hapart := State.flag_fset_of_apart (s.fset (F.BRK_STATUS.HIT r) 1) (F.BRK_STATUS.HALTED r) (F.BRK_STATUS.HIT r) 1
    (.inr (.inl (Nat.le_refl 1))) (by simp [F.BRK_STATUS.HIT])
  refine ⟨?_, hapart.trans ?_⟩ <;> simp [State.flag, State.fget_fset_same, F.BRK_STATUS.HALTED, F.BRK_STATUS.HIT]

/-! ### COMMAND_DISPATCH -/

section
variable {s : State} {c : CmdRef} {d : RoomCmd} (hcmd : s.cmd c = some d) (hst : d.st = .waiting) (hf : d.fault = none)
  (hgo : s.mayGo c.room.val d = true)
include hcmd hst hf hgo

/-- A ready command that no break stops is judged. -/
theorem exec_commandDispatch_passes (hb : d.isTenant = true ∨ d.passed = true ∨ s.breaksAt c.room.val d = false) :
    exec (.commandDispatch c) s = .next (s.dispatchReady c.room.val d) := by
  have hbrk : (!d.isTenant && !d.passed && s.breaksAt c.room.val d && s.verdict c.room.val d != .wait) = false := by
    rcases hb with h | h | h <;> simp [h]
  simp [execCommandDispatch, hcmd, hst, hf, hgo, hbrk]

/-- A firmware command that would not wait is held at its break (R330). -/
theorem exec_commandDispatch_breaks (hten : d.isTenant = false) (hpass : d.passed = false)
    (hb : s.breaksAt c.room.val d = true) (hv : s.verdict c.room.val d ≠ .wait) :
    exec (.commandDispatch c) s = .next (s.takeBreak c.room.val d) := by
  simp [execCommandDispatch, hcmd, hst, hf, hgo, hten, hpass, hb, hv]

variable (hb : d.isTenant = true ∨ d.passed = true ∨ s.breaksAt c.room.val d = false)
include hb

theorem exec_commandDispatch_waits (hv : s.verdict c.room.val d = .wait) : exec (.commandDispatch c) s = .next s := by
  rw [exec_commandDispatch_passes hcmd hst hf hgo hb, State.dispatchReady, hv]

theorem exec_commandDispatch_faults {i : FaultInfo} (hv : s.verdict c.room.val d = .fault i) :
    exec (.commandDispatch c) s = .next (s.workFault c.room.val d.seq i) := by
  rw [exec_commandDispatch_passes hcmd hst hf hgo hb, State.dispatchReady, hv]

theorem exec_commandDispatch_goes {en : Option (Nat × Nat)} (hv : s.verdict c.room.val d = .go en) :
    exec (.commandDispatch c) s = .next (s.doDispatch c.room.val d en) := by
  rw [exec_commandDispatch_passes hcmd hst hf hgo hb, State.dispatchReady, hv]

end

/-- Settles O19: the verdict decides; a command that goes changes its record, its task slot and what counts it, a fault or a
break its record alone, and one that waits nothing. -/
theorem readyCommandsAreDispatched : Obligations.ReadyCommandsAreDispatched := by
  refine ⟨fun c s d hcmd hst hf hgo hb => ⟨fun e n hu he hfen hreq hboard hslots htask hlatch hshape haff => ?_,
      fun hop hlatch haff htrace => ?_, exec_commandDispatch_waits hcmd hst hf hgo hb, fun i hv => ?_⟩,
    fun c s d e hu he => ?_, fun c s d hcmd hst hf hgo hten hpass hbrk hv => ?_⟩
  · have hv : s.verdict c.room.val d = .go (some (e, n)) := by
      rw [State.verdict_of_engine hu he, State.judgeOn_free hboard hfen hreq hslots htask, State.judged_ok hlatch]
    have hop : 1 ≤ dOpcode d.desc ∧ dOpcode d.desc ≤ 9 := by
      simp only [usesEngine, Bool.and_eq_true, decide_eq_true_eq] at hu
      omega
    have hexec := exec_commandDispatch_goes hcmd hst hf hgo hb hv
    rw [State.doDispatch_eq _ hop (by simp [hshape]) haff] at hexec
    obtain ⟨hk, hslot, hctx, hroom, heng, hrest⟩ := State.entered_engine hcmd e n
    generalize s.entered c.room.val d (some (e, n)) = t at hexec hk hslot hctx hroom heng hrest
    obtain ⟨hrooms, hengs, hctxs, hlatches, harbs, hpwr⟩ :=
      State.fields_of_offFlue (t.offFlue_flueDispatch c.room.val d.seq)
    refine ⟨_, _, hexec, (State.cmd_of_rooms hrooms c).trans hk, rfl, rfl, rfl, rfl, rfl, hf, ?_, ?_,
      fun q hq => (State.room_of_rooms hrooms q).trans (hroom q hq),
      fun f hne => (State.eng_of_engs hengs f).trans (heng f hne), hctxs.trans (congrArg State.ctxs hrest :),
      hlatches.trans (congrArg State.latches hrest :), harbs.trans (congrArg State.arbs hrest :),
      hpwr.trans (congrArg State.pwr hrest :), fun h => if_pos h, fun htrace => ?_⟩
    · rw [State.eng_of_engs hengs, hslot]
    · rw [State.eng_of_engs hengs, hctx]
    · rw [State.seq_of_cmd hcmd, State.flueDispatch_untraced hk htrace]
      exact hrest
  · have hu : usesEngine (dOpcode d.desc) = false := by
      rcases hop with h | h | h <;> rw [h] <;> rfl
    have hv : s.verdict c.room.val d = .go none := by
      rw [State.verdict_plain hu, State.judged_ok hlatch]
    have hexec := exec_commandDispatch_goes hcmd hst hf hgo hb hv
    obtain ⟨hk, hoff⟩ := State.entered_plain hcmd
    rw [State.doDispatch_eq _ (by omega) (by omega) haff, State.seq_of_cmd hcmd] at hexec
    have huntraced := State.flueDispatch_untraced hk htrace
    exact ⟨_, _, hexec.trans (congrArg _ huntraced), hk, rfl, rfl, hf, fun q hq => State.room_of_offRoom hoff hq,
      State.eq_of_offRoom hoff⟩
  · obtain ⟨hrest, hroom⟩ := s.roomOnly_updCmd c.room.val d.seq fun k => { k with started := true, fault := some i }
    exact ⟨_, exec_commandDispatch_faults hcmd hst hf hgo hb hv, State.cmd_updCmd hcmd _ fun _ => rfl, hroom, hrest⟩
  · rw [State.verdict_of_engine hu he]
    refine ⟨fun h => ?_, fun hboard hfen hreq hslots htask hlatch => ?_, fun hboard hfen hlatch => ?_⟩
    · rcases h with h | ⟨hfen, h⟩
      · exact State.judgeOn_conflict h
      · exact State.judgeOn_occupied hfen h
    · obtain ⟨n, hn⟩ := Option.isSome_iff_exists.mp htask
      rw [State.judgeOn_free hboard hfen hreq hslots hn, State.judged_latchBad hlatch]
    · rw [State.judgeOn_fenced hboard hfen, State.judged_ok hlatch]
  · have hexec := exec_commandDispatch_breaks hcmd hst hf hgo hten hpass hbrk hv
    have hk := State.cmd_heldAtBreak hcmd
    obtain ⟨hrest, hroom⟩ := s.roomOnly_heldAtBreak c.room.val d
    rw [State.takeBreak_eq] at hexec
    generalize s.heldAtBreak c.room.val d = u at hexec hk hrest hroom
    obtain ⟨rooms, rfl⟩ : ∃ rooms, u = { s with rooms := rooms } := ⟨_, hrest⟩
    obtain ⟨hhalted, hhit⟩ := State.flags_haltHit { s with rooms := rooms } c.room.val
    exact ⟨_, _, hexec, hk, rfl, hhalted, hhit, rfl, hroom, rfl,
      (((State.RegsOnly.refl s _).congr rfl).fset 1 (by simp)).fset 1 (by simp)⟩

end Sys2Proof.Machine
end

section
/-! The mortar tree (R268, R269, R271 to R279): what reads and writes of structures by virtual address leave alone, what becomes
of a merge object and of the command that opened it, and what a stage's table and a slot of an engine hold after a record. -/

namespace Sys2Proof.Machine

/-! ### What a write by virtual address leaves alone (R276, R396)

A write by virtual address may free a larder fill, go to another package and change what the translation caches hold: it leaves
alone what a flue record does, which `State.offFlue` names. -/

theorem State.offFlue_of_still {s t : State} (h : t.still = s.still) : t.offFlue = s.offFlue := (congrArg State.offFlue h :)

theorem State.offFlue_readVa (s : State) (r ctx va n : Nat) : (s.readVa r ctx va n).2.offFlue = s.offFlue :=
  State.offFlue_of_still (State.still_readVa ..)

/-- A write to an expert may abandon its fill, which is counted (R396). -/
theorem State.offFlue_wroteExpert (s : State) (ctx va : Nat) : (s.wroteExpert ctx va).offFlue = s.offFlue :=
  ite_leaves State.offFlue _ (ite_leaves State.offFlue _ rfl rfl) rfl

theorem State.offFlue_writeVa (s : State) (r ctx va : Nat) (l : List Byte) : (s.writeVa r ctx va l).offFlue = s.offFlue := by
  have hx : (s.xlate r ctx va true).2.offFlue = s.offFlue := State.offFlue_of_still (State.still_xlate ..)
  unfold State.writeVa
  dsimp only
  split
  · have hw := (State.offFlue_wroteExpert _ ctx va).trans hx
    generalize State.wroteExpert _ ctx va = u at hw ⊢
    exact ite_leaves State.offFlue _ hw (ite_leaves State.offFlue _ hw ((State.offFlue_physWrite ..).trans hw))
  · exact hx

theorem State.offFlue_writeVaPages (s : State) (r ctx va : Nat) (l : List Byte) :
    (s.writeVaPages r ctx va l).offFlue = s.offFlue :=
  foldl_leaves State.offFlue _ (fun _ _ => State.offFlue_writeVa ..) _ s

/-! ### What the output rows and the mortar area of a merge leave alone (R274, R276 to R278) -/

theorem State.offFlue_putRow (s : State) (r ctx : Nat) (b : BitVec 512) (row slab : Nat) (enc sc : List Nat) :
    (s.putRow r ctx b row slab enc sc).offFlue = s.offFlue :=
  (foldl_leaves State.offFlue _ (fun _ _ => State.offFlue_writeVa ..) _ _).trans
    (foldl_leaves State.offFlue _ (fun _ _ => State.offFlue_writeVaPages ..) _ s)

theorem State.offFlue_freeRow (s : State) (r ctx : Nat) (b : BitVec 512) (row slab : Nat) :
    (s.freeRow r ctx b row slab).offFlue = s.offFlue :=
  State.offFlue_putRow s.draw.2 ..

theorem State.offFlue_spoilRows (s : State) (m : Merge) : (s.spoilRows m).offFlue = s.offFlue :=
  foldl_leaves State.offFlue _ (fun t _ => foldl_leaves State.offFlue _
    (fun _ _ => ite_leaves State.offFlue _ rfl (State.offFlue_freeRow ..)) _ t) _ s

theorem State.offFlue_mergeBias (s : State) (m : Merge) (c0 : Nat) : (s.mergeBias m c0).2.offFlue = s.offFlue :=
  ite_leaves (fun p : List Num × State => p.2.offFlue) _ rfl (State.offFlue_readVa ..)

theorem State.offFlue_writeMergeRow (s : State) (m : Merge) (t slab : Nat) (v : Nat → Num) :
    (s.writeMergeRow m t slab v).offFlue = s.offFlue :=
  ite_leaves State.offFlue _ (State.offFlue_freeRow ..) ((State.offFlue_putRow ..).trans (State.offFlue_mergeBias ..))

theorem State.offFlue_writeZeroRows (s : State) (m : Merge) : (s.writeZeroRows m).offFlue = s.offFlue :=
  foldl_leaves State.offFlue _ (fun t _ => ite_leaves State.offFlue _
    (foldl_leaves State.offFlue _ (fun _ _ => State.offFlue_writeMergeRow ..) _ t) rfl) _ s

theorem State.offFlue_areaWrite (s : State) (m : Merge) (k : MergeKey) : (s.areaWrite m k).offFlue = s.offFlue :=
  (State.offFlue_writeVaPages ..).trans (State.offFlue_writeVa ..)

/-! ### Merge objects (R269) -/

theorem State.merge_of_mo {s t : State} (h : t.mo = s.mo) (k : Nat) : t.merge k = s.merge k := by
  rw [State.merge, State.merge, h]

@[simp] theorem State.merge_setMerge_same (s : State) (k : Nat) (m : Option Merge) : (s.setMerge k m).merge k = m :=
  FMap.get_set_same ..

theorem State.merge_setMerge_ne (s : State) (k : Nat) (m : Option Merge) {j : Nat} (h : j ≠ k) :
    (s.setMerge k m).merge j = s.merge j :=
  FMap.get_set_ne _ _ _ _ _ h

@[simp] theorem State.merge_closeMerge_same (s : State) (k : Nat) : (s.closeMerge k).merge k = none :=
  FMap.get_set_same ..

theorem State.merge_closeMerge_ne (s : State) (k : Nat) {j : Nat} (h : j ≠ k) : (s.closeMerge k).merge j = s.merge j :=
  FMap.get_set_ne _ _ _ _ _ h

/-- A change of a command that keeps its number is what is found there, if the command is there. -/
theorem State.cmd_updCmd_map (s : State) (c : CmdRef) (f : RoomCmd → RoomCmd) (hf : ∀ k, (f k).seq = k.seq) :
    (s.updCmd c.room.val c.seq f).cmd c = (s.cmd c).map f := by
  cases h : s.cmd c with
  | some d => exact State.seq_of_cmd h ▸ State.cmd_updCmd h f hf
  | none =>
    have hno : ∀ k ∈ (s.room c.room.val).cmds, ¬ k.seq = c.seq := by simpa [State.cmd, RoomSt.find] using h
    have hid : (s.room c.room.val).cmds.map (fun k => if k.seq = c.seq then f k else k) = (s.room c.room.val).cmds :=
      (List.map_congr_left fun k hk => if_neg (hno k hk)).trans (List.map_id' _)
    rw [State.cmd, State.updCmd, State.room_setRoom_same, hid]
    exact h

/-- `t` is where the merge object `k` is free again, the others are as in `s`, and `f` was done to the command `c`. -/
structure State.MergeOver (s t : State) (k : Nat) (c : CmdRef) (f : RoomCmd → RoomCmd) : Prop where
  freed : t.merge k = none
  others : ∀ j, j ≠ k → t.merge j = s.merge j
  cmd : t.cmd c = (s.cmd c).map f

/-- What writes rows and then closes a merge ends it. -/
theorem State.mergeOver_updCmd {s u : State} (h : u.offFlue = s.offFlue) (k : Nat) (c : CmdRef) (f : RoomCmd → RoomCmd)
    (hf : ∀ d, (f d).seq = d.seq) : s.MergeOver ((u.closeMerge k).updCmd c.room.val c.seq f) k c f where
  freed := State.merge_closeMerge_same u k
  others _ hj := (State.merge_closeMerge_ne u k hj).trans (State.merge_of_mo (congrArg State.mo h :) _)
  cmd := (State.cmd_updCmd_map _ c f hf).trans
    (congrArg (Option.map f) (State.cmd_of_rooms (State.fields_of_offFlue h).1 c))

section
variable {s : State} {k : Nat} {m : Merge} (h : s.merge k = some m)
include h

/-- A merge without all of its contributions stays open (R277). -/
theorem State.mergeEnd_waits (hg : m.got ≠ s.expectedAll m) : s.mergeEnd k = s := by
  simp [State.mergeEnd, h, hg]

/-- A merge with all of its contributions ends, and its command is done (R277). -/
theorem State.mergeOver_mergeEnd (hg : m.got = s.expectedAll m) :
    s.MergeOver (s.mergeEnd k) k m.cmd fun c => { c with st := .done, started := true } := by
  simp only [State.mergeEnd, h, if_pos hg]
  exact State.mergeOver_updCmd (State.offFlue_writeZeroRows s m) k m.cmd _ fun _ => rfl

/-- A merge that a record faults ends, and its command has the fault (R278). -/
theorem State.mergeOver_mergeFault (cause : Nat) :
    s.MergeOver (s.mergeFault k cause) k m.cmd fun c =>
      { c with started := true, fault := some (FaultInfo.mk0 cause) } := by
  simp only [State.mergeFault, h]
  exact State.mergeOver_updCmd (State.offFlue_spoilRows s m) k m.cmd _ fun _ => rfl

end

/-! ### MORTAR_OPEN (R268, R269, R356) -/

/-- The merge that the control block read by a command opens (R268). -/
def State.mergeRead (s : State) (c : CmdRef) (d : RoomCmd) : Merge :=
  { cmd := c, ctx := d.ctx, mtag := dTag d.desc
    mcb := BitVec.ofNat 512 (leOfList (s.readVa c.room.val d.ctx (dMcb d.desc) 64).1.bytes)
    got := 0, entries := [], written := [], bad := false }

/-- The state in which a merge has just opened for its command. -/
def State.opened (s : State) (c : CmdRef) (d : RoomCmd) : State :=
  ((s.readVa c.room.val d.ctx (dMcb d.desc) 64).2.updCmd c.room.val d.seq fun k => { k with started := true }).setMerge
    (mcbMerge (s.mergeRead c d).mcb) (some (s.mergeRead c d))

theorem State.cmd_of_plainStart {s : State} {c : CmdRef} {op : Nat} {d : RoomCmd} (h : s.plainStart c op = some d) :
    s.cmd c = some d := by
  unfold State.plainStart at h
  split at h
  · split at h
    · simp_all
    · cases h
  · cases h

section
variable {s : State} {c : CmdRef} {d : RoomCmd} (hs : s.plainStart c 8 = some d)
include hs

/-- A legal control block opens its merge, which is over at once where nothing is expected. -/
theorem exec_mortarOpen_opens (hl : openLegal d.desc = true) (hb : mcbOk (s.mergeRead c d).mcb = true) :
    exec (.mortarOpen c) s = .next ((s.opened c d).mergeEnd (mcbMerge (s.mergeRead c d).mcb)) := by
  unfold State.mergeRead at hb
  simp [execMortarOpen, hs, hl, hb, State.opened, State.mergeRead]

/-- An illegal open that a routine issued faults the routine's call (R356). -/
theorem exec_mortarOpen_issued (h : openLegal d.desc = false ∨ mcbOk (s.mergeRead c d).mcb = false)
    (hi : d.isIssued = true) : exec (.mortarOpen c) s =
      .next ((s.readVa c.room.val d.ctx (dMcb d.desc) 64).2.workIssued c.room.val d.seq) := by
  have hbad : (!openLegal d.desc || !mcbOk (s.mergeRead c d).mcb) = true := by
    rcases h with h | h <;> simp [h]
  unfold State.mergeRead at hbad
  simp only [exec_mortarOpen, execMortarOpen, hs, hbad, hi]
  rfl

/-- The command of a merge that has opened has begun. -/
theorem State.cmd_opened : (s.opened c d).cmd c = some { d with started := true } :=
  State.cmd_updCmd ((State.cmd_of_rooms (State.fields_of_still (State.still_readVa ..)).2.1 c).trans
    (State.cmd_of_plainStart hs)) _ fun _ => rfl

end

/-- The object of a merge that has opened holds what its control block says. -/
theorem State.merge_opened (s : State) (c : CmdRef) (d : RoomCmd) :
    (s.opened c d).merge (mcbMerge (s.mergeRead c d).mcb) = some (s.mergeRead c d) :=
  State.merge_setMerge_same ..

/-- A merge that opens changes its object and the room of its command. -/
theorem State.opened_frame (s : State) (c : CmdRef) (d : RoomCmd) :
    (∀ k, k ≠ mcbMerge (s.mergeRead c d).mcb → (s.opened c d).merge k = s.merge k) ∧
      (∀ r, r ≠ c.room.val → (s.opened c d).room r = s.room r) ∧ (s.opened c d).engs = s.engs ∧
      (s.opened c d).ms.mem = s.ms.mem ∧ (s.opened c d).ctxs = s.ctxs ∧ (s.opened c d).outbox = s.outbox := by
  have hst : (s.readVa c.room.val d.ctx (dMcb d.desc) 64).2.still = s.still := State.still_readVa ..
  unfold State.opened
  generalize (s.readVa c.room.val d.ctx (dMcb d.desc) 64).2 = u at hst ⊢
  obtain ⟨hengs, hrooms, hmem, hctxs⟩ := State.fields_of_still hst
  exact ⟨fun k hne => (State.merge_setMerge_ne _ _ _ hne).trans (State.merge_of_mo (congrArg State.mo hst :) k),
    fun r hne => (State.room_setRoom_ne _ _ _ _ hne).trans (State.room_of_rooms hrooms r), hengs, hmem, hctxs,
    (congrArg State.outbox hst :)⟩

/-! ### Tables and slots (R271, R274) -/

theorem State.floorTabOf_setFloorTab_same (s : State) (f : Nat) (l out : List MergeRec) :
    (s.setFloorTab f l out).floorTabOf f = l :=
  FMap.get_set_same ..

theorem State.floorTabOf_setFloorTab_ne (s : State) (f : Nat) (l out : List MergeRec) {g : Nat} (h : g ≠ f) :
    (s.setFloorTab f l out).floorTabOf g = s.floorTabOf g :=
  FMap.get_set_ne _ _ _ _ _ h

/-- What a floor stage forwards waits at its die stage, behind what waited there. -/
theorem State.dieIn_setFloorTab (s : State) (f : Nat) (l out : List MergeRec) :
    (s.setFloorTab f l out).mo.dieIn.get (fun _ => []) (f / 3) = s.mo.dieIn.get (fun _ => []) (f / 3) ++ out :=
  FMap.get_set_same ..

theorem engDie_eq (e : Nat) : engDie e = engFloor e / 3 := (Nat.div_div_eq_div_mul e 25 3).symm

theorem State.floorTabOf_of_mo {s t : State} (h : t.mo = s.mo) (f : Nat) : t.floorTabOf f = s.floorTabOf f := by
  rw [State.floorTabOf, State.floorTabOf, h]

theorem State.dieTabOf_setDieTab (s : State) (d : Nat) (l out : List MergeRec) : (s.setDieTab d l out).dieTabOf d = l :=
  FMap.get_set_same ..

/-- A slot of which a record waits is as it was. -/
theorem State.slotDrained_held {s : State} {e slot : Nat} (h : ∃ k ∈ (s.eng e).recs, k.slot = slot) :
    s.slotDrained e slot = s := by
  have hany : (s.eng e).recs.any (fun q => q.slot == slot) = true := by simpa using h
  simp only [State.slotDrained, hany, if_true]

/-- A slot of which no record waits becomes FREE, and beside it only a command that waits for it changes. -/
theorem State.slotDrained_freed {s : State} {e slot : Nat} (h : ∀ k ∈ (s.eng e).recs, k.slot ≠ slot) :
    ∃ rooms, s.slotDrained e slot = State.setEng { s with rooms := rooms } e ((s.eng e).setAcc slot AccSlot.reset) := by
  have hany : (s.eng e).recs.any (fun q => q.slot == slot) = false := by simpa using h
  refine ⟨(s.slotDrained e slot).rooms, ?_⟩
  simp only [State.slotDrained, hany, Bool.false_eq_true, if_false]
  split
  · split
    · split <;> rfl
    · rfl
  · rfl

theorem State.accSlot_slotDrained {s : State} {e slot : Nat} (h : ∀ k ∈ (s.eng e).recs, k.slot ≠ slot) :
    ((s.slotDrained e slot).eng e).accSlot slot = AccSlot.reset := by
  obtain ⟨rooms, hd⟩ := State.slotDrained_freed h
  rw [hd, State.eng_setEng_same, EngSt.accSlot_setAcc_same]

/-- A drained slot changes rooms and its own engine, whose records stay. -/
theorem State.slotDrained_frame (s : State) (e slot : Nat) : ((s.slotDrained e slot).eng e).recs = (s.eng e).recs ∧
    (∀ g, g ≠ e → (s.slotDrained e slot).eng g = s.eng g) ∧
    s.slotDrained e slot = { s with rooms := (s.slotDrained e slot).rooms, engs := (s.slotDrained e slot).engs } := by
  by_cases h : ∃ k ∈ (s.eng e).recs, k.slot = slot
  · rw [State.slotDrained_held h]
    exact ⟨rfl, fun _ _ => rfl, rfl⟩
  · obtain ⟨rooms, hd⟩ := State.slotDrained_freed (s := s) (e := e) (slot := slot) fun k hk hc => h ⟨k, hk, hc⟩
    rw [hd]
    exact ⟨(congrArg EngSt.recs (State.eng_setEng_same ..) :), fun g hg => State.eng_setEng_ne _ _ _ _ hg, rfl⟩

/-- A record enters the table of its floor stage while its merge is open for its context. -/
def State.tabled (s : State) (f : Nat) (q : EngineRec) : State :=
  if s.openFor q.merge q.ctx then
    s.setFloorTab f (tabPut (s.floorTabOf f) 2048 q.toMerge).1 (tabPut (s.floorTabOf f) 2048 q.toMerge).2
  else s

/-- The floor stage takes the oldest record of an engine. -/
def State.recordTaken (s : State) (e : Nat) (q : EngineRec) (rest : List EngineRec) : State :=
  (s.tabled (engFloor e) q).setEng e { s.eng e with recs := rest }

theorem exec_engineRecord_takes {s : State} {e : EngIx} {q : EngineRec} {rest : List EngineRec} (hr : s.running = true)
    (hq : (s.eng e.val).recs = q :: rest) :
    exec (.engineRecord e) s = .next ((s.recordTaken e.val q rest).slotDrained e.val q.slot) := by
  have hopen : (s.setEng e.val { s.eng e.val with recs := rest }).openFor q.merge q.ctx = s.openFor q.merge q.ctx := rfl
  simp only [exec_engineRecord, execEngineRecord, hq, State.treeOn, hr, hopen, State.recordTaken, State.tabled, Bool.not_true,
    Bool.false_eq_true, if_false]
  split <;> rfl

section
variable (s : State) (e : Nat) (q : EngineRec) (rest : List EngineRec)

/-- Taking a record changes the engine's records, the floor stages' tables and what waits at the die stages only. -/
theorem State.recordTaken_frame : ∃ tab dieIn, s.recordTaken e q rest =
    State.setEng { s with mo := { s.mo with floorTab := tab, dieIn := dieIn } } e { s.eng e with recs := rest } := by
  unfold State.recordTaken State.tabled
  split
  · exact ⟨_, _, rfl⟩
  · exact ⟨s.mo.floorTab, s.mo.dieIn, rfl⟩

theorem State.eng_recordTaken_same : (s.recordTaken e q rest).eng e = { s.eng e with recs := rest } :=
  State.eng_setEng_same ..

theorem State.eng_recordTaken_ne {g : Nat} (hg : g ≠ e) : (s.recordTaken e q rest).eng g = s.eng g := by
  obtain ⟨tab, dieIn, h⟩ := s.recordTaken_frame e q rest
  rw [h, State.eng_setEng_ne _ _ _ _ hg]
  rfl

theorem State.mo_recordTaken_closed (h : s.openFor q.merge q.ctx = false) : (s.recordTaken e q rest).mo = s.mo := by
  simp [State.recordTaken, State.tabled, h]

theorem State.mo_recordTaken_open (h : s.openFor q.merge q.ctx = true) : (s.recordTaken e q rest).mo =
    (s.setFloorTab (engFloor e) (tabPut (s.floorTabOf (engFloor e)) 2048 q.toMerge).1
      (tabPut (s.floorTabOf (engFloor e)) 2048 q.toMerge).2).mo := by
  simp [State.recordTaken, State.tabled, h]

end

theorem exec_dieStageRecord_takes {s : State} {d : DieIx} {q : MergeRec} {rest : List MergeRec} (hr : s.running = true)
    (hq : s.mo.dieIn.get (fun _ => []) d.val = q :: rest) : exec (.dieStageRecord d) s =
      .next (State.setDieTab { s with mo := { s.mo with dieIn := s.mo.dieIn.set (fun _ => []) d.val rest } } d.val
        (tabPut (s.dieTabOf d.val) 4096 q).1 (tabPut (s.dieTabOf d.val) 4096 q).2) := by
  simp only [exec_dieStageRecord, execDieStageRecord, hq, State.treeOn, hr]
  rfl

/-- Where the tree runs, a time-out moves the entries of its key to the stage above (R274). -/
theorem exec_mortarForwardTimeout_floor {s : State} (hr : s.running = true) (f : FloorIx) (k : MergeKey) :
    exec (.mortarForwardTimeout (.floor f) k) s = .next (s.setFloorTab f.val
      ((s.floorTabOf f.val).filter fun y => y.key != k) ((s.floorTabOf f.val).filter fun y => y.key == k)) := by
  simp [execMortarForwardTimeout, State.treeOn, hr]

theorem exec_mortarForwardTimeout_die {s : State} (hr : s.running = true) (d : DieIx) (k : MergeKey) :
    exec (.mortarForwardTimeout (.die d) k) s = .next (s.setDieTab d.val
      ((s.dieTabOf d.val).filter fun y => y.key != k) ((s.dieTabOf d.val).filter fun y => y.key == k)) := by
  simp [execMortarForwardTimeout, State.treeOn, hr]

/-! ### The package stage (R274, R276 to R279) -/

/-- The entry of a record's key once the record has joined it (R273). -/
def Merge.joined (m : Merge) (r : MergeRec) : MergeRec :=
  match m.entries.find? fun z => z.key == r.key with
  | some o => o.add r
  | none => r

/-- A merge after a record for whose token `x` contributions are expected (R276). -/
def Merge.met (m : Merge) (r : MergeRec) (x : Nat) : Merge :=
  { m with
    got := m.got + r.count
    entries := (m.entries.filter fun z => z.key != r.key) ++ [m.joined r]
    written := if (m.joined r).count = x then m.written ++ [(r.key.token.toNat - mcbLo m.mcb, r.key.slab)] else m.written }

/-- The state after a record has met its entry: the merge knows of it, and a row that is complete is written (R276). -/
def State.afterMeeting (s : State) (m : Merge) (r : MergeRec) : State :=
  let x := s.expected m r.key.token.toNat
  let s1 := (s.areaWrite m r.key).setMerge r.key.merge.val (some (m.met r x))
  if (m.joined r).count = x then s1.writeMergeRow (m.met r x) r.key.token.toNat r.key.slab (m.joined r).value else s1

theorem State.areaStage_eq (s : State) (m : Merge) (r : MergeRec) : s.areaStage m r =
    if s.expected m r.key.token.toNat < (m.joined r).count then s.mergeFault r.key.merge.val 0x03
    else (s.afterMeeting m r).mergeEnd r.key.merge.val := rfl

theorem State.offFlue_setMerge {s t : State} (h : t.offFlue = s.offFlue) (k : Nat) (m : Option Merge) :
    (t.setMerge k m).offFlue = (s.setMerge k m).offFlue :=
  congrArg (fun u : State => u.setMerge k m) h

/-- What a record and its row change beside memory is the merge object. -/
theorem State.offFlue_afterMeeting (s : State) (m : Merge) (r : MergeRec) : (s.afterMeeting m r).offFlue =
    (s.setMerge r.key.merge.val (some (m.met r (s.expected m r.key.token.toNat)))).offFlue := by
  have harea := State.offFlue_setMerge (s.offFlue_areaWrite m r.key) r.key.merge.val
    (some (m.met r (s.expected m r.key.token.toNat)))
  unfold State.afterMeeting
  dsimp only
  split
  · exact (State.offFlue_writeMergeRow ..).trans harea
  · exact harea

theorem State.mo_afterMeeting (s : State) (m : Merge) (r : MergeRec) : (s.afterMeeting m r).mo =
    (s.setMerge r.key.merge.val (some (m.met r (s.expected m r.key.token.toNat)))).mo :=
  (congrArg State.mo (s.offFlue_afterMeeting m r) :)

theorem State.merge_afterMeeting_same (s : State) (m : Merge) (r : MergeRec) :
    (s.afterMeeting m r).merge r.key.merge.val = some (m.met r (s.expected m r.key.token.toNat)) :=
  (State.merge_of_mo (s.mo_afterMeeting m r) _).trans (State.merge_setMerge_same ..)

theorem State.merge_afterMeeting_ne (s : State) (m : Merge) (r : MergeRec) {j : Nat} (hj : j ≠ r.key.merge.val) :
    (s.afterMeeting m r).merge j = s.merge j :=
  (State.merge_of_mo (s.mo_afterMeeting m r) _).trans (State.merge_setMerge_ne _ _ _ hj)

/-- The state whose package stage has taken its oldest record and still has `rest`. -/
def State.pkgTaken (s : State) (rest : List MergeRec) : State := { s with mo := { s.mo with pkgIn := rest } }

section
variable {s : State} {r : MergeRec} {rest : List MergeRec} (hr : s.running = true) (hp : s.mo.pkgIn = r :: rest)
include hr hp

/-- A record whose merge is not open for its context makes its sender's results undefined (R279). -/
theorem exec_packageStageRecord_closed (h : s.openFor r.key.merge.val r.ctx = false) :
    exec .packageStageRecord s = .next ((s.pkgTaken rest).senderUndef r.ctx) := by
  have hm : State.merge { s with mo := { s.mo with pkgIn := rest } } r.key.merge.val = s.merge r.key.merge.val := rfl
  cases hk : s.merge r.key.merge.val with
  | none => simp [execPackageStageRecord, hp, State.treeOn, hr, hm, hk, State.pkgTaken]
  | some m =>
    have hctx : m.ctx ≠ r.ctx := by simpa [State.openFor, hk] using h
    simp [execPackageStageRecord, hp, State.treeOn, hr, hm, hk, hctx, State.pkgTaken]

variable {m : Merge} (hk : s.merge r.key.merge.val = some m) (hc : m.ctx = r.ctx)
include hk hc

/-- What the package stage does with a record of an open merge (R274, R276, R278). -/
theorem exec_packageStageRecord_open : exec .packageStageRecord s =
    .next (if r.key.token.toNat < mcbLo m.mcb ∨ mcbHi m.mcb ≤ r.key.token.toNat then
        if mcbScope m.mcb = 1 then (s.pkgTaken rest).ringStage m r else (s.pkgTaken rest).mergeFault r.key.merge.val 0x04
      else if mcbSlabs m.mcb ≤ r.key.slab then (s.pkgTaken rest).mergeFault r.key.merge.val 0x05
      else (s.pkgTaken rest).areaStage m r) := by
  have hm : State.merge { s with mo := { s.mo with pkgIn := rest } } r.key.merge.val = some m := hk
  simp [execPackageStageRecord, hp, State.treeOn, hr, hm, hc, State.pkgTaken]

variable (hlo : mcbLo m.mcb ≤ r.key.token.toNat) (hhi : r.key.token.toNat < mcbHi m.mcb) (hsl : r.key.slab < mcbSlabs m.mcb)
include hlo hhi hsl

/-- A record that gives its entry more contributions than are expected faults the merge (R278). -/
theorem exec_packageStageRecord_excess (hx : (s.pkgTaken rest).expected m r.key.token.toNat < (m.joined r).count) :
    exec .packageStageRecord s = .next ((s.pkgTaken rest).mergeFault r.key.merge.val 0x03) := by
  rw [exec_packageStageRecord_open hr hp hk hc, if_neg (by omega), if_neg (by omega), State.areaStage_eq, if_pos hx]

/-- A record of a token that is homed here, in a slab of the merge, meets its entry (R276). -/
theorem exec_packageStageRecord_meets (hx : (m.joined r).count ≤ (s.pkgTaken rest).expected m r.key.token.toNat) :
    exec .packageStageRecord s = .next (((s.pkgTaken rest).afterMeeting m r).mergeEnd r.key.merge.val) := by
  rw [exec_packageStageRecord_open hr hp hk hc, if_neg (by omega), if_neg (by omega), State.areaStage_eq,
    if_neg (Nat.not_lt.mpr hx)]

end

theorem State.offFlue_originate (s : State) (m : Msg) : (s.originate m).offFlue = s.offFlue := rfl

theorem State.mem_originate (s : State) (m : Msg) : (s.originate m).ms.mem = s.ms.mem := rfl

/-- A record that leaves for its home changes what is sent, and the translation caches (R274). -/
theorem State.offFlue_ringStage (s : State) (m : Merge) (r : MergeRec) : (s.ringStage m r).offFlue = s.offFlue := by
  unfold State.ringStage
  exact (State.offFlue_originate ..).trans (State.offFlue_readVa ..)

theorem State.mem_ringStage (s : State) (m : Merge) (r : MergeRec) : (s.ringStage m r).ms.mem = s.ms.mem := by
  unfold State.ringStage
  exact (State.mem_originate ..).trans (State.fields_of_still (State.still_readVa ..)).2.2.1

/-- A context that has no merge open has no result to lose (R279). -/
theorem State.senderUndef_of_none {s : State} {ctx : Nat} (h : ∀ p ∈ s.mo.merges, ∀ m, p.2 = some m → m.ctx ≠ ctx) :
    s.senderUndef ctx = s := by
  refine List.foldlRecOn (motive := (· = s)) _ _ rfl fun t ht p hp => ?_
  split
  · next m hm => rw [if_neg (h p hp m hm), ht]
  · exact ht

/-! ### The mortar tree -/

/-- Settles O41: an opened merge stays open or is over at once; a stage's table takes each record once and forwards the rest; a
record of an open merge ends it, faults it, leaves it, or changes its object and rows alone. -/
theorem mergeRecordsClimbTheTree : Obligations.MergeRecordsClimbTheTree := by
  refine ⟨fun c s d hs => ?_, fun e s q rest hrun hq => ?_, fun d s q rest hrun hq => ?_, fun f k s hrun => ?_,
    fun d k s hrun => ?_, fun s r rest m hrun hp hk hc => ?_, fun s r rest hrun hp ho => ?_⟩
  · have hmerge := s.merge_opened c d
    have hcmd := State.cmd_opened hs
    have hst : (s.readVa c.room.val d.ctx (dMcb d.desc) 64).2.still = s.still := State.still_readVa ..
    obtain ⟨hothers, hframe⟩ := s.opened_frame c d
    refine ⟨fun hl hb hx => ?_, fun hl hb hx => ?_, fun hbad hi => ?_⟩
    · have hexec := exec_mortarOpen_opens hs hl hb
      rw [State.mergeEnd_waits hmerge hx.symm] at hexec
      exact ⟨_, hexec, hmerge, hothers, hcmd, hframe⟩
    · have hend := State.mergeOver_mergeEnd hmerge hx.symm
      exact ⟨_, exec_mortarOpen_opens hs hl hb, hend.freed, hend.cmd.trans (congrArg _ hcmd)⟩
    · have hexec := exec_mortarOpen_issued hs hbad hi
      generalize (s.readVa c.room.val d.ctx (dMcb d.desc) 64).2 = u at hst hexec
      obtain ⟨-, hrooms, hmem, -⟩ := State.fields_of_still hst
      exact ⟨_, hexec, (congrArg State.mo hst :), hmem,
        State.cmd_updCmd ((State.cmd_of_rooms hrooms c).trans (State.cmd_of_plainStart hs)) _ fun _ => rfl⟩
  · have hexec := exec_engineRecord_takes hrun hq
    have hclosed := s.mo_recordTaken_closed e.val q rest
    have hopen := s.mo_recordTaken_open e.val q rest
    have heng := s.eng_recordTaken_same e.val q rest
    have hothers : ∀ g, g ≠ e.val → (s.recordTaken e.val q rest).eng g = s.eng g :=
      fun g => s.eng_recordTaken_ne e.val q rest
    obtain ⟨tab, dieIn, htaken⟩ := s.recordTaken_frame e.val q rest
    generalize s.recordTaken e.val q rest = u at hexec hclosed hopen heng hothers htaken
    have hrecs : (u.eng e.val).recs = rest := congrArg EngSt.recs heng
    obtain ⟨hstay, hne, hdrained⟩ := u.slotDrained_frame e.val q.slot
    have hmo : (u.slotDrained e.val q.slot).mo = u.mo := (congrArg State.mo hdrained :)
    refine ⟨_, hexec, hstay.trans hrecs, fun h => State.accSlot_slotDrained (hrecs ▸ h), fun h => ?_,
      fun h => hmo.trans (hclosed h), fun h => ?_, fun g hg => (hne g hg).trans (hothers g hg), ?_⟩
    · rw [State.slotDrained_held (hrecs ▸ h), heng, htaken]
      exact ⟨rfl, rfl⟩
    · have htab := hmo.trans (hopen h)
      rw [State.floorTabOf_of_mo htab, htab, engDie_eq]
      exact ⟨State.floorTabOf_setFloorTab_same .., State.dieIn_setFloorTab .., fun f hf =>
        (State.floorTabOf_of_mo htab f).trans (State.floorTabOf_setFloorTab_ne _ _ _ _ hf)⟩
    · rw [hdrained, htaken]
      rfl
  · exact ⟨_, exec_dieStageRecord_takes hrun hq, FMap.get_set_same .., State.dieTabOf_setDieTab .., rfl, rfl⟩
  · exact ⟨_, exec_mortarForwardTimeout_floor hrun f k, State.floorTabOf_setFloorTab_same .., State.dieIn_setFloorTab .., rfl⟩
  · exact ⟨_, exec_mortarForwardTimeout_die hrun d k, State.dieTabOf_setDieTab .., rfl, rfl⟩
  · have hk0 : (s.pkgTaken rest).merge r.key.merge.val = some m := hk
    have hexec := exec_packageStageRecord_open hrun hp hk hc
    have hfault := State.mergeOver_mergeFault hk0
    refine ⟨fun hout => ⟨fun hsc => ?_, fun hsc => ?_⟩, fun hlo hhi => ⟨fun hsl => ?_, fun hsl => ?_⟩⟩
    · rw [if_pos hout, if_neg hsc] at hexec
      exact ⟨_, hexec, (hfault 4).freed, (hfault 4).others, (hfault 4).cmd⟩
    · rw [if_pos hout, if_pos hsc] at hexec
      have hframe := (s.pkgTaken rest).offFlue_ringStage m r
      obtain ⟨hrooms, hengs, hctxs, -⟩ := State.fields_of_offFlue hframe
      exact ⟨_, hexec, (congrArg State.mo hframe :), hrooms, hengs, (s.pkgTaken rest).mem_ringStage m r, hctxs⟩
    · rw [if_neg (by omega), if_pos hsl] at hexec
      exact ⟨_, hexec, (hfault 5).freed, (hfault 5).others, (hfault 5).cmd⟩
    · have hmeets := exec_packageStageRecord_meets hrun hp hk hc hlo hhi hsl
      have hmerge := (s.pkgTaken rest).merge_afterMeeting_same m r
      have hothers : ∀ j, j ≠ r.key.merge.val → ((s.pkgTaken rest).afterMeeting m r).merge j = s.merge j :=
        fun j => (s.pkgTaken rest).merge_afterMeeting_ne m r
      obtain ⟨hrooms, hengs, hctxs, -⟩ := State.fields_of_offFlue ((s.pkgTaken rest).offFlue_afterMeeting m r)
      have hrest := congrArg MortarSt.pkgIn ((s.pkgTaken rest).mo_afterMeeting m r)
      refine ⟨fun hx => ?_, fun hx hgot => ?_, fun hx hgot => ?_⟩
      · exact ⟨_, exec_packageStageRecord_excess hrun hp hk hc hlo hhi hsl hx, (hfault 3).freed, (hfault 3).others,
          (hfault 3).cmd⟩
      · exact ⟨_, (hmeets hx).trans (congrArg Host.Outcome.next (State.mergeEnd_waits hmerge hgot)), hmerge, hothers, hrest, rfl,
          hrooms, hengs, hctxs⟩
      · have hend := State.mergeOver_mergeEnd hmerge hgot
        exact ⟨_, hmeets hx, hend.freed, fun j hj => (hend.others j hj).trans (hothers j hj),
          hend.cmd.trans (congrArg _ (State.cmd_of_rooms hrooms m.cmd))⟩
  · have hexec := exec_packageStageRecord_closed hrun hp ho
    exact ⟨hexec, fun hno => hexec.trans (congrArg Host.Outcome.next (State.senderUndef_of_none hno))⟩

end Sys2Proof.Machine
end
